-- ==== Sys2Proof/Word.lean ====
section
/-! DEFINITION. The word types of the VZ-40: bytes, 32-bit words, 64-bit values and lane masks. -/

namespace Sys2Proof

/-- A byte of memory. -/
abbrev Byte := BitVec 8

/-- A 32-bit register value (R45). -/
abbrev Word := BitVec 32

/-- A 64-bit value: an address (R85) or a register pair (R47). -/
abbrev Dword := BitVec 64

/-- One bit per lane of a group of up to 128 lanes (R8). -/
abbrev Mask := BitVec 128

/-- The 64-bit value of a pair: bits [31:0] in the first register and [63:32] in the second (R47). -/
def pairOf (lo hi : Word) : Dword := hi ++ lo

/-- Bits [31:0] of a pair's value. -/
def loOf (x : Dword) : Word := x.extractLsb' 0 32

/-- Bits [63:32] of a pair's value. -/
def hiOf (x : Dword) : Word := x.extractLsb' 32 32

end Sys2Proof
end

