-- ==== Sys2Proof/Config.lean ====
section
/-! DEFINITION. What an implementation fixes and the spec leaves open: free values. Each is an opaque constant; nothing
can be proved of the value it takes. -/

namespace Sys2Proof.Config

/-- The number from which the engine looks for an unused handle number (R234): the `k`-th draw (log 8). -/
opaque handlePick (k : Nat) : Nat

/-- Which of the results that R199 permits an FP32 approximation gives: function and operand decide (log 9). -/
opaque approxPick (fn x : Nat) : Nat

/-- The 64 KiB units that the state of one workgroup takes in a save area (R298): lanes, slices and entries decide
(log 10). -/
opaque saveUnits (lanes slices entries lines : Nat) : Nat

/-- The 64 KiB units that the registers of one workgroup take in a spill area (R64) (log 10). -/
opaque spillUnits (lanes slices entries : Nat) : Nat

/-- Where in a save or spill area the state of a workgroup is written, in units of 64 KiB: the `k`-th draw (log 10). -/
opaque areaPlace (k : Nat) : Nat

/-- Byte `i` of what is written into a save or spill area at the `k`-th draw (R64, R298) (log 10). -/
opaque areaByte (k i : Nat) : BitVec 8

/-- Which of the lines that may be evicted leaves a full L1 (R101): the `k`-th draw (log 7). -/
opaque victimPick (k : Nat) : Nat

/-- Which of the healthy quadrants that may run a matrix operation runs it (R24, R271): the `k`-th draw (log 14). -/
opaque quadPick (k : Nat) : Nat

/-- The module power over the last 1 ms, from which PWRCTL.DRAW is taken, at the `k`-th reading (R333) (log 11). -/
opaque powerDraw (k : Nat) : Nat

/-- The stepping in capability PART (R328) (log 11). -/
opaque stepping : BitVec 32

/-- The Kwezipel identity of this package in capability KWEZIPEL (R328) (log 11). -/
opaque packageId : BitVec 16

/-- The word of capability PART that names the dies and the cores, in a layout that R328 leaves open (log 11). -/
opaque partCounts (dies cores : Nat) : BitVec 32

/-- The measurement of the firmware image that the `k`-th boot found, and that of the key hash fused into die 0 (R324)
(log 87). -/
opaque imageMeasure (k : Nat) : BitVec 384
opaque keyHashMeasure : BitVec 384

/-- How RBDATA packs the fields of a selected item into its words where R330 leaves the layout open: the kind, the word and
the fields decide (log 38). -/
opaque rbWord (kind word : Nat) (fields : List Nat) : BitVec 64

end Sys2Proof.Config
end

