-- ==== Sys2Proof/Machine/Flags.lean ====
section
/-! DEFINITION. The sticky flags (R51) and the flags of integer arithmetic (R200). The flags of floating-point arithmetic
come with its results (Machine/Fp.lean). -/

namespace Sys2Proof.Machine

/-- The flags of one result, as bits [5:0] of ln.flags (R51). -/
abbrev Flags := BitVec 6

/-- NV: invalid operation or invalid encoding. -/
def flagNV : Flags := 1
/-- DZ: division of a finite non-zero value by zero. -/
def flagDZ : Flags := 2
/-- OF: a result overflowed its format. -/
def flagOF : Flags := 4
/-- UF: a result was tiny and inexact. -/
def flagUF : Flags := 8
/-- NX: a result was inexact. -/
def flagNX : Flags := 16
/-- SAT: a result was saturated. -/
def flagSAT : Flags := 32

/-- A flag when a condition holds. -/
def flagIf (c : Bool) (f : Flags) : Flags := if c then f else 0

/-- The flags of a 32-bit integer division or remainder (R200): DZ for a non-zero dividend by zero, NV for zero by zero. -/
def divFlags (a b : Word) : Flags := flagIf (b = 0 && a != 0) flagDZ ||| flagIf (b = 0 && a = 0) flagNV

/-- Besides those, OF for the quotient of the least number by -1 (R200). -/
def sdivFlags (a b : Word) : Flags := divFlags a b ||| flagIf (a = 0x80000000 && b = 0xFFFFFFFF) flagOF

end Sys2Proof.Machine
end

