-- ==== Sys2Proof/Machine/Fp.lean ====
section
/-! DEFINITION. Numbers and their arithmetic (R68 to R79, R197 to R206): exact values as integers times powers of two,
one rounding at the end, and the flags that it raises. -/

namespace Sys2Proof.Machine

/-! ### Formats and values -/

/-- A binary format (R68 to R70): the widths of exponent and fraction, the bias, and whether it has infinities and NaNs. -/
structure FFmt where
  ebits : Nat
  fbits : Nat
  bias : Nat
  ieee : Bool
deriving DecidableEq, Repr

def fp32 : FFmt := ⟨8, 23, 127, true⟩
def fp16 : FFmt := ⟨5, 10, 15, true⟩
def bf16 : FFmt := ⟨8, 7, 127, true⟩
def e4m3 : FFmt := ⟨4, 3, 7, false⟩
def e5m2 : FFmt := ⟨5, 2, 15, false⟩
def e2m1 : FFmt := ⟨2, 1, 1, false⟩

/-- The exponent of the smallest spacing of a format. -/
def FFmt.emin (f : FFmt) : Int := 1 - f.bias - f.fbits

/-- The sign bit, the magnitude code of infinity, the greatest finite magnitude code and the canonical NaN (R68, R69,
R78). -/
def FFmt.signBit (f : FFmt) : Nat := 2 ^ (f.ebits + f.fbits)
def FFmt.infCode (f : FFmt) : Nat := (2 ^ f.ebits - 1) * 2 ^ f.fbits
def FFmt.maxCode (f : FFmt) : Nat := if f.ieee then f.infCode - 1 else f.signBit - 1
def FFmt.nanCode (f : FFmt) : Nat := f.infCode + 2 ^ (f.fbits - 1)

/-- A value: a NaN, signalling or quiet; an infinity; or (-1)^neg × m × 2^e. -/
inductive FVal where
  | nan (signalling : Bool)
  | inf (neg : Bool)
  | fin (neg : Bool) (m : Nat) (e : Int)
deriving DecidableEq, Repr

/-- The value of a code (R68 to R70). -/
def FFmt.decode (f : FFmt) (x : Nat) : FVal :=
  let neg := x / f.signBit % 2 = 1
  let mag := x % f.signBit
  if f.ieee && f.infCode < mag then .nan (mag < f.nanCode)
  else if f.ieee && mag = f.infCode then .inf neg
  else
    let ex := mag / 2 ^ f.fbits
    let fr := mag % 2 ^ f.fbits
    if ex = 0 then .fin neg fr f.emin else .fin neg (2 ^ f.fbits + fr) ((ex : Int) - 1 + f.emin)

/-- Whether a value is a signalling NaN. -/
def FVal.snan (v : FVal) : Bool := v = .nan true

/-- Whether a value is a NaN. -/
def FVal.isNan (v : FVal) : Bool :=
  match v with
  | .nan _ => true
  | _ => false

/-- An exact number i × 2^e. -/
structure Dy where
  i : Int
  e : Int
deriving DecidableEq, Repr

/-- The exact number of a sign, a magnitude and an exponent. -/
def dyOf (neg : Bool) (m : Nat) (e : Int) : Dy := ⟨if neg then -(m : Int) else m, e⟩

/-- A number's integer at a lower exponent. -/
def Dy.at (x : Dy) (e : Int) : Int := x.i * 2 ^ (x.e - e).toNat

/-- The exact sum. -/
def Dy.add (x y : Dy) : Dy :=
  let e := min x.e y.e
  ⟨x.at e + y.at e, e⟩

/-- Exact comparison. -/
def Dy.le (x y : Dy) : Bool :=
  let e := min x.e y.e
  x.at e ≤ y.at e

def Dy.lt (x y : Dy) : Bool := !(y.le x)

/-- The magnitude. -/
def Dy.abs (x : Dy) : Dy := ⟨x.i.natAbs, x.e⟩

def Dy.neg (x : Dy) : Dy := ⟨-x.i, x.e⟩

/-! ### Rounding -/

/-- m × 2^e rounded to a multiple of 2^q by a mode (R77): the multiple, and whether the rounding was inexact. -/
def roundAt (rm : BitVec 2) (neg : Bool) (m : Nat) (e q : Int) : Nat × Bool :=
  if q ≤ e then (m * 2 ^ (e - q).toNat, false)
  else
    let k := (q - e).toNat
    let a := m / 2 ^ k
    let r := m % 2 ^ k
    let up := match rm.toNat with
      | 0 => 2 ^ k < 2 * r || (2 * r = 2 ^ k && a % 2 = 1)
      | 1 => false
      | 2 => !neg && r != 0
      | _ => neg && r != 0
    (if up then a + 1 else a, r != 0)

/-- A sign in front of a magnitude code. -/
def FFmt.signed (f : FFmt) (neg : Bool) (mag : Nat) : Nat := if neg then f.signBit + mag else mag

/-- m × 2^e rounded once into an IEEE format by a mode (R77, R78): overflow as the mode dictates with OF and NX, NX for an
inexact result, UF for one that is tiny after rounding and inexact. -/
def FFmt.round (f : FFmt) (rm : BitVec 2) (neg : Bool) (m : Nat) (e : Int) : Nat × Flags :=
  if m = 0 then (f.signed neg 0, 0)
  else
    let q0 : Int := e + (Nat.log2 m : Int) - f.fbits
    let q := max q0 f.emin
    let r := roundAt rm neg m e q
    let mag := (q - f.emin).toNat * 2 ^ f.fbits + r.1
    if f.maxCode < mag then
      let toInf := rm = 0 || (rm = 2 && !neg) || (rm = 3 && neg)
      (f.signed neg (if toInf then f.infCode else f.maxCode), flagOF ||| flagNX)
    else
      let tiny := q0 < f.emin && (roundAt rm neg m e q0).1 < 2 ^ (f.emin + f.fbits - q0).toNat
      (f.signed neg mag, flagIf r.2 flagNX ||| flagIf (tiny && r.2) flagUF)

/-- An exact number rounded; `zneg` is the sign of an exact zero. -/
def FFmt.roundDy (f : FFmt) (rm : BitVec 2) (x : Dy) (zneg : Bool) : Nat × Flags :=
  if x.i = 0 then (f.signed zneg 0, 0) else f.round rm (x.i < 0) x.i.natAbs x.e

/-! ### Arithmetic (R78, R197, R198) -/

/-- The canonical NaN, with NV when a condition holds. -/
def FFmt.nanIf (f : FFmt) (nv : Bool) : Nat × Flags := (f.nanCode, flagIf nv flagNV)

/-- a + b. -/
def FFmt.add (f : FFmt) (rm : BitVec 2) (a b : Nat) : Nat × Flags :=
  match f.decode a, f.decode b with
  | .nan s, y => f.nanIf (s || y.snan)
  | _, .nan s => f.nanIf s
  | .inf n, .inf m => if n = m then (f.signed n f.infCode, 0) else f.nanIf true
  | .inf n, _ => (f.signed n f.infCode, 0)
  | _, .inf n => (f.signed n f.infCode, 0)
  | .fin n m e, .fin n' m' e' =>
    let zneg := if m = 0 && m' = 0 && n = n' then n else rm = 3
    f.roundDy rm ((dyOf n m e).add (dyOf n' m' e')) zneg

/-- A code with its sign inverted. -/
def FFmt.negate (f : FFmt) (a : Nat) : Nat := (a + f.signBit) % (2 * f.signBit)

/-- a - b: a NaN keeps its kind. -/
def FFmt.sub (f : FFmt) (rm : BitVec 2) (a b : Nat) : Nat × Flags := f.add rm a (f.negate b)

/-- a × b. -/
def FFmt.mul (f : FFmt) (rm : BitVec 2) (a b : Nat) : Nat × Flags :=
  match f.decode a, f.decode b with
  | .nan s, y => f.nanIf (s || y.snan)
  | _, .nan s => f.nanIf s
  | .inf n, .inf m => (f.signed (n != m) f.infCode, 0)
  | .inf n, .fin n' m _ => if m = 0 then f.nanIf true else (f.signed (n != n') f.infCode, 0)
  | .fin n' m _, .inf n => if m = 0 then f.nanIf true else (f.signed (n != n') f.infCode, 0)
  | .fin n m e, .fin n' m' e' => f.round rm (n != n') (m * m') (e + e')

/-- Whether a × b is zero times infinity. -/
def zeroTimesInf (a b : FVal) : Bool :=
  match a, b with
  | .inf _, .fin _ 0 _ => true
  | .fin _ 0 _, .inf _ => true
  | _, _ => false

/-- (-1)^np × a × b + d with one rounding; NV for 0 × ∞ even with d NaN. -/
def FFmt.fma (f : FFmt) (rm : BitVec 2) (np : Bool) (a b d : Nat) : Nat × Flags :=
  let x := f.decode a
  let y := f.decode b
  let z := f.decode d
  let nv := x.snan || y.snan || z.snan || zeroTimesInf x y
  if x.isNan || y.isNan || z.isNan || zeroTimesInf x y then f.nanIf nv
  else match x, y, z with
    | .fin n m e, .fin n' m' e', .fin k c g =>
      let s := (n != n') != np
      let zneg := if m * m' = 0 && c = 0 && s = k then s else rm = 3
      f.roundDy rm ((dyOf s (m * m') (e + e')).add (dyOf k c g)) zneg
    | .fin _ _ _, .fin _ _ _, .inf k => (f.signed k f.infCode, 0)
    | x, y, z =>
      let sx := match x with | .inf n => n | .fin n _ _ => n | .nan _ => false
      let sy := match y with | .inf n => n | .fin n _ _ => n | .nan _ => false
      let s := (sx != sy) != np
      match z with
      | .inf k => if k = s then (f.signed s f.infCode, 0) else f.nanIf true
      | _ => (f.signed s f.infCode, 0)

/-- a / b, correctly rounded (R198). -/
def FFmt.div (f : FFmt) (rm : BitVec 2) (a b : Nat) : Nat × Flags :=
  match f.decode a, f.decode b with
  | .nan s, y => f.nanIf (s || y.snan)
  | _, .nan s => f.nanIf s
  | .inf _, .inf _ => f.nanIf true
  | .inf n, .fin n' _ _ => (f.signed (n != n') f.infCode, 0)
  | .fin n _ _, .inf n' => (f.signed (n != n') 0, 0)
  | .fin n m e, .fin n' m' e' =>
    if m' = 0 then (if m = 0 then f.nanIf true else (f.signed (n != n') f.infCode, flagDZ))
    else
      let k := f.fbits + 4 + Nat.log2 m' + 1
      let q := m * 2 ^ k / m'
      let sticky := if m * 2 ^ k % m' = 0 then 0 else 1
      f.round rm (n != n') (2 * q + sticky) (e - e' - k - 1)

/-- The integer square root, bit by bit from bit `k - 1` down. -/
def isqrtFrom (n k r : Nat) : Nat :=
  match k with
  | 0 => r
  | j + 1 => isqrtFrom n j (if (r + 2 ^ j) * (r + 2 ^ j) ≤ n then r + 2 ^ j else r)

/-- The integer square root. -/
def isqrt (n : Nat) : Nat := isqrtFrom n (Nat.log2 n / 2 + 1) 0

/-- √a, correctly rounded (R198), with the special operands of R199. -/
def FFmt.sqrt (f : FFmt) (rm : BitVec 2) (a : Nat) : Nat × Flags :=
  match f.decode a with
  | .nan s => f.nanIf s
  | .inf n => if n then f.nanIf true else (f.infCode, 0)
  | .fin n m e =>
    if m = 0 then (f.signed n 0, 0)
    else if n then f.nanIf true
    else
      let k0 := 2 * (f.fbits + 4)
      let k := k0 + ((e - k0) % 2).toNat
      let x := m * 2 ^ k
      let r := isqrt x
      f.round rm false (2 * r + (if r * r = x then 0 else 1)) ((e - k) / 2 - 1)

/-- The order of two values that are not NaN; −0 and +0 are equal. -/
def FVal.lt (x y : FVal) : Bool :=
  match x, y with
  | .inf n, .inf m => n && !m
  | .inf n, _ => n
  | _, .inf m => !m
  | .fin n m e, .fin n' m' e' => (dyOf n m e).lt (dyOf n' m' e')
  | _, _ => false

def FVal.eq (x y : FVal) : Bool := !x.isNan && !y.isNan && !(x.lt y) && !(y.lt x)

/-- Whether code a comes before code b in the order of VMIN and VMAX, with −0 below +0 (R197). -/
def FFmt.before (f : FFmt) (a b : Nat) : Bool :=
  (f.decode a).lt (f.decode b) || ((f.decode a).eq (f.decode b) && a / f.signBit % 2 = 1 && b / f.signBit % 2 = 0)

/-- The lesser or the greater operand; a NaN gives way to a number (R197). -/
def FFmt.minmax (f : FFmt) (isMax : Bool) (a b : Nat) : Nat × Flags :=
  let x := f.decode a
  let y := f.decode b
  let fl := flagIf (x.snan || y.snan) flagNV
  if x.isNan && y.isNan then (f.nanCode, fl)
  else if x.isNan then (b, fl)
  else if y.isNan then (a, fl)
  else (if f.before a b != isMax then a else b, fl)

/-- |a| and −a: a NaN gives the canonical NaN and no flag (R197). -/
def FFmt.absVal (f : FFmt) (a : Nat) : Nat × Flags := if (f.decode a).isNan then (f.nanCode, 0) else (a % f.signBit, 0)
def FFmt.negVal (f : FFmt) (a : Nat) : Nat × Flags := if (f.decode a).isNan then (f.nanCode, 0) else (f.negate a, 0)

/-! ### Approximations (R199) -/

/-- ln 2 and log2 e times 2^128. -/
def ln2Fixed : Nat := 235865763225513294137944142764154484399
def log2eFixed : Nat := 490923683258796565746369346286093237521

/-- The tail of the exponential series: `n` terms from term `k`, all times 2^128. -/
def expTail (n k u term : Nat) : Nat :=
  match n with
  | 0 => 0
  | j + 1 => term + expTail j (k + 1) u (term * u / 2 ^ 128 / (k + 1))

/-- 2^(z / 2^128) × 2^128 for z below 2^128. -/
def exp2Fixed (z : Nat) : Nat := expTail 45 0 (z * ln2Fixed / 2 ^ 128) (2 ^ 128)

/-- `n` more bits of the binary logarithm of m / 2^191, m from 2^191 to below 2^192. -/
def log2Bits (n m acc : Nat) : Nat :=
  match n with
  | 0 => acc
  | j + 1 =>
    let q := m * m / 2 ^ 191
    if 2 ^ 192 ≤ q then log2Bits j (q / 2) (2 * acc + 1) else log2Bits j q (2 * acc)

/-- The functions of R199. -/
inductive Approx where
  | rcp | rsq | exp2 | log2 | tanh
deriving DecidableEq, Repr

def Approx.code (a : Approx) : Nat :=
  match a with
  | .rcp => 10
  | .rsq => 11
  | .exp2 => 13
  | .log2 => 14
  | .tanh => 15

/-- The value of a function at a finite non-zero operand in its domain, to more than 55 bits beyond the bound, and whether it
is exact (R199). -/
def Approx.value (a : Approx) (n : Bool) (m : Nat) (e : Int) : Dy × Bool :=
  let pow2 := m = 2 ^ Nat.log2 m
  match a with
  | .rcp =>
    let k := 160 + Nat.log2 m
    (dyOf n (2 ^ k / m) (-e - k), pow2)
  | .rsq =>
    let k : Nat := 260 + (e % 2).toNat
    (⟨isqrt (2 ^ k / m), -((k + e) / 2)⟩, pow2 && ((Nat.log2 m : Int) + e) % 2 = 0)
  | .exp2 =>
    let x : Int := if -128 ≤ e then (m : Int) * 2 ^ (128 + e).toNat else (m : Int) / 2 ^ (-128 - e).toNat
    let y : Int := if n then -x - (if e < -128 then 1 else 0) else x
    let q : Int := max (-2000) (min 2000 (y / 2 ^ 128))
    (⟨exp2Fixed (y % 2 ^ 128).toNat, q - 128⟩, -128 ≤ e && y % 2 ^ 128 = 0 && -149 ≤ q)
  | .log2 =>
    let l := Nat.log2 m
    let fr := log2Bits 96 (m * 2 ^ (191 - l)) 0
    (⟨(e + l) * 2 ^ 96 + fr, -96⟩, pow2)
  | .tanh =>
    if e + Nat.log2 m ≥ 6 then (dyOf n (2 ^ 100 - 1) (-100), false)
    else if e + Nat.log2 m < -40 then (dyOf n (m * 2 ^ 100 - 1) (e - 100), false)
    else
      let x := if -128 ≤ e then m * 2 ^ (128 + e).toNat else m / 2 ^ (-128 - e).toNat
      let t := 2 * x * log2eFixed / 2 ^ 128
      let ex := exp2Fixed (t % 2 ^ 128) * 2 ^ (t / 2 ^ 128)
      (dyOf n ((ex - 2 ^ 128) * 2 ^ 128 / (ex + 2 ^ 128)) (-128), false)

/-- The bound on the error at an exact value (R199): a number of FP32 ulps of its binade, or 2^-22 where the table says. -/
def Approx.bound (a : Approx) (n : Bool) (m : Nat) (e : Int) (y : Dy) : Dy :=
  let q : Int := max (y.e + (Nat.log2 y.i.natAbs : Int) - 23) (-149)
  let one : Dy := ⟨1, q⟩
  let two : Dy := ⟨2, q⟩
  let abs22 : Dy := ⟨1, -22⟩
  match a with
  | .rcp => one
  | .rsq => one
  | .exp2 => two
  | .log2 =>
    if !n && (Dy.le ⟨1, -1⟩ ⟨m, e⟩) && (Dy.le ⟨m, e⟩ ⟨2, 0⟩) then abs22 else two
  | .tanh => if two.le abs22 then abs22 else two

/-- Whether two numbers lie within a bound of one another, with 2^-50 of the bound to spare: what the second falls short of
the exact value takes less. -/
def Dy.near (x y b : Dy) : Bool :=
  let d := (x.add y.neg).abs
  Dy.le ⟨d.i * 2 ^ 50, d.e⟩ ⟨b.i * (2 ^ 50 - 1), b.e⟩

/-- Whether an FP32 code lies within the bound of a value. -/
def withinBound (c : Nat) (y b : Dy) : Bool :=
  match fp32.decode c with
  | .fin n m e => (dyOf n m e).near y b
  | _ => false

/-- The spacing of a format at a number's binade. -/
def FFmt.ulpAt (f : FFmt) (y : Dy) : Dy := ⟨1, max (y.e + (Nat.log2 y.i.natAbs : Int) - f.fbits) f.emin⟩

/-- A value written exactly or rounded into an IEEE format. -/
def FFmt.ofVal (f : FFmt) (rm : BitVec 2) (v : FVal) : Nat × Flags :=
  match v with
  | .nan s => f.nanIf s
  | .inf n => (f.signed n f.infCode, 0)
  | .fin n m e => f.round rm n m e

/-- Whether an FP32 code, rounded into a 16-bit format by a mode, stays within 1 ulp of that format (R199), or overflows as the
nearest code does. -/
def FFmt.staysNear (f : FFmt) (rm : BitVec 2) (c nearest : Nat) (y : Dy) : Bool :=
  match f.decode (f.ofVal rm (fp32.decode c)).1 with
  | .fin n m e => (dyOf n m e).near y (f.ulpAt y)
  | _ => f.ofVal rm (fp32.decode nearest) = f.ofVal rm (fp32.decode c)

/-- Whether an FP32 code is a result that R199 permits at operand `x`: within the bound of FP32 and, where `x` is the widening
of a 16-bit element, within 1 ulp of the element's format once rounded into it by any mode. -/
def Approx.permits (a : Approx) (x c nearest : Nat) (n : Bool) (m : Nat) (e : Int) (y : Dy) : Bool :=
  withinBound c y (a.bound n m e y) &&
    [fp16, bf16].all (fun f => (f.ofVal 0 (fp32.decode x)).2 != 0 ||
      (List.range 4).all (fun rm => f.staysNear (BitVec.ofNat 2 rm) c nearest y))

/-- The FP32 result of an approximation at a finite non-zero operand in its domain (R199): the exact one where the table
names an exact case; an overflow, which gives infinity in every rounding mode (DESIGN CHOICE, log 99); and otherwise the free
value that `Config.approxPick` names, wherever R199 permits it, or else the nearest. -/
def Approx.finite (a : Approx) (x : Nat) (n : Bool) (m : Nat) (e : Int) : Nat × Flags :=
  let v := a.value n m e
  let near := fp32.roundDy 0 v.1 n
  if v.2 then near
  else if near.1 % 2147483648 = fp32.infCode then near
  else
    let c := Config.approxPick a.code x % 4294967296
    let r := if a.permits x c near.1 n m e v.1 then c else near.1
    (r, flagNX ||| flagIf (r % 2147483648 < 8388608) flagUF)

/-- An FP32 approximation with its special operands (R199). -/
def Approx.fp32 (a : Approx) (x : Nat) : Nat × Flags :=
  let f := Machine.fp32
  match f.decode x with
  | .nan s => f.nanIf s
  | .inf neg =>
    match a with
    | .rcp => (f.signed neg 0, 0)
    | .rsq => if neg then f.nanIf true else (0, 0)
    | .exp2 => if neg then (0, 0) else (f.infCode, 0)
    | .log2 => if neg then f.nanIf true else (f.infCode, 0)
    | .tanh => (f.signed neg 0x3F800000, 0)
  | .fin neg m e =>
    if m = 0 then
      match a with
      | .rcp => (f.signed neg f.infCode, flagDZ)
      | .rsq => (f.signed neg f.infCode, flagDZ)
      | .exp2 => (0x3F800000, 0)
      | .log2 => (f.signed true f.infCode, flagDZ)
      | .tanh => (f.signed neg 0, 0)
    else if neg && (a = .rsq || a = .log2) then f.nanIf true
    else a.finite x neg m e

/-- An approximation in a format (R199): FP16 and BF16 widen exactly, take the FP32 function, and round once. -/
def FFmt.approx (f : FFmt) (a : Approx) (rm : BitVec 2) (x : Nat) : Nat × Flags :=
  if f = fp32 then a.fp32 x
  else
    match f.decode x with
    | .nan s => f.nanIf s
    | v =>
      let r := a.fp32 (fp32.ofVal 0 v).1
      let y := f.ofVal rm (fp32.decode r.1)
      (y.1, (r.2 &&& ~~~flagUF) ||| y.2 ||| flagIf (r.2 &&& flagNX != 0 && y.1 % f.signBit < 2 ^ f.fbits) flagUF)

/-! ### Conversions (R79, R205, R206) -/

/-- A value converted into a finite-only format (R79): the first row that applies decides. -/
def FFmt.saturate (f : FFmt) (rm : BitVec 2) (v : FVal) : Nat × Flags :=
  match v with
  | .nan _ => (0, flagNV)
  | .inf n => (f.signed n f.maxCode, flagOF ||| flagNX ||| flagSAT)
  | .fin n m e =>
    let top := match f.decode f.maxCode with | .fin _ m' e' => (⟨m', e'⟩ : Dy) | _ => ⟨0, 0⟩
    if top.lt ⟨m, e⟩ then (f.signed n f.maxCode, flagOF ||| flagNX ||| flagSAT)
    else
      let r := f.round rm n m e
      let small := Dy.lt ⟨m, e⟩ ⟨2 ^ f.fbits, f.emin⟩
      if r.2 &&& flagNX = 0 then (r.1, 0) else (r.1, flagNX ||| flagIf small flagUF)

/-- A value converted into an integer from lo to hi (R79): rounded first, then clamped. -/
def toInteger (rm : BitVec 2) (lo hi : Int) (v : FVal) : Int × Flags :=
  let sat := flagOF ||| flagNX ||| flagSAT
  match v with
  | .nan _ => (0, flagNV)
  | .inf n => (if n then lo else hi, sat)
  | .fin n m e =>
    let r := roundAt rm n m e 0
    let x : Int := if n then -(r.1 : Int) else r.1
    if hi < x then (hi, sat) else if x < lo then (lo, sat) else (x, flagIf r.2 flagNX)

/-- The value of an integer. -/
def ofInteger (x : Int) : FVal := .fin (x < 0) x.natAbs 0

/-- The value of an i4x code that is not the escape (R70). -/
def i4Value (c : Nat) : Int := if c < 8 then (c : Int) else (c : Int) - 16

/-- A two's-complement reading of an n-bit code. -/
def signedOf (n c : Nat) : Int := if c < 2 ^ (n - 1) then (c : Int) else (c : Int) - 2 ^ n

/-- The code of an integer in n bits. -/
def codeOf (n : Nat) (x : Int) : Nat := (x % 2 ^ n).toNat

/-- The value of a code of the type that R138 numbers `t`. -/
def typeValue (t c : Nat) : FVal :=
  match t with
  | 0 => fp32.decode c
  | 1 => fp16.decode c
  | 2 => bf16.decode c
  | 3 => e4m3.decode c
  | 4 => e5m2.decode c
  | 5 => e2m1.decode c
  | 6 => ofInteger (i4Value c)
  | 7 => ofInteger (signedOf 8 c)
  | 8 => ofInteger c
  | 9 => ofInteger (signedOf 16 c)
  | 10 => ofInteger c
  | 11 => ofInteger (signedOf 32 c)
  | 12 => ofInteger c
  | 13 => ofInteger (signedOf 64 c)
  | _ => ofInteger c

/-- A value converted into the type that R138 numbers `t` (R206): its code and the flags. -/
def convertTo (t : Nat) (rm : BitVec 2) (v : FVal) : Nat × Flags :=
  let int := fun (n : Nat) (lo hi : Int) =>
    let r := toInteger rm lo hi v
    (codeOf n r.1, r.2)
  match t with
  | 0 => fp32.ofVal rm v
  | 1 => fp16.ofVal rm v
  | 2 => bf16.ofVal rm v
  | 3 => e4m3.saturate rm v
  | 4 => e5m2.saturate rm v
  | 5 => e2m1.saturate rm v
  | 6 => int 4 (-7) 7
  | 7 => int 8 (-128) 127
  | 8 => int 8 0 255
  | 9 => int 16 (-32768) 32767
  | 10 => int 16 0 65535
  | 11 => int 32 (-2147483648) 2147483647
  | 12 => int 32 0 4294967295
  | 13 => int 64 (-9223372036854775808) 9223372036854775807
  | _ => int 64 0 18446744073709551615

/-- convert() of R206 between two types: the i4x escape is 0 with NV. -/
def convert (st dt : Nat) (rm : BitVec 2) (c : Nat) : Nat × Flags :=
  if st = 6 && c = 8 then (0, flagNV) else convertTo dt rm (typeValue st c)

end Sys2Proof.Machine
end

