-- ==== Sys2Proof/Syntax.lean ====
section
/-! DEFINITION. The instructions and events of the VZ-40: one constructor of `Instr` for each row of
spec/opcode_table.json. A row with an encoding carries the fields of its format (R131) in one record per field
layout; a row without one is an event of the package or of the host and carries what names the event. -/

namespace Sys2Proof

/-- Format S with two sources (R131, R158). -/
structure FmtS where
  d : BitVec 6
  a : BitVec 6
  b : BitVec 6
  l : BitVec 1
  s : BitVec 1
deriving DecidableEq, Repr

/-- Format S with one source, B = 0 (R131, R158). -/
structure FmtS1 where
  d : BitVec 6
  a : BitVec 6
  l : BitVec 1
  s : BitVec 1
deriving DecidableEq, Repr

/-- Format SI (R131, R159). -/
structure FmtSi where
  d : BitVec 6
  a : BitVec 6
  i : BitVec 10
deriving DecidableEq, Repr

/-- Format SI of SMOVI, A = 0 (R159). -/
structure FmtSmovi where
  d : BitVec 6
  i : BitVec 10
deriving DecidableEq, Repr

/-- Format SP of SGET (R161). -/
structure FmtSget where
  d : BitVec 6
  r : BitVec 10
deriving DecidableEq, Repr

/-- Format SP of SSET (R161). -/
structure FmtSset where
  a : BitVec 6
  r : BitVec 10
deriving DecidableEq, Repr

/-- Format SP of VGET (R214). -/
structure FmtVget where
  d : BitVec 6
  r : BitVec 10
  p : BitVec 2
deriving DecidableEq, Repr

/-- Format SP of VSET (R214). -/
structure FmtVset where
  a : BitVec 6
  r : BitVec 10
  p : BitVec 2
deriving DecidableEq, Repr

/-- Format BC (R131, R163); CC is the constructor. -/
structure FmtBc where
  a : BitVec 6
  o : BitVec 17
deriving DecidableEq, Repr

/-- Format J (R131, R163). -/
structure FmtJ where
  o : BitVec 26
deriving DecidableEq, Repr

/-- One source field A (JMPI, CALLI, SETE, SETF, FCANCEL). -/
structure FmtA where
  a : BitVec 6
deriving DecidableEq, Repr

/-- Format C of TRAP (R187). -/
structure FmtTrap where
  i : BitVec 8
deriving DecidableEq, Repr

/-- Format C of FENCE (R184); c is the scope code of R139. -/
structure FmtFence where
  c : BitVec 3
deriving DecidableEq, Repr

/-- Format C of DLAUNCH (R185). -/
structure FmtDlaunch where
  a : BitVec 6
  d : BitVec 6
deriving DecidableEq, Repr

/-- Format MS of VIF (R167). -/
structure FmtVif where
  m : BitVec 3
  n : BitVec 1
  e : BitVec 11
  o : BitVec 11
deriving DecidableEq, Repr

/-- Format MS of VLOOP (R169). -/
structure FmtVloop where
  o : BitVec 11
deriving DecidableEq, Repr

/-- Format MS of VWHILE (R169). -/
structure FmtVwhile where
  m : BitVec 3
  n : BitVec 1
  o : BitVec 11
deriving DecidableEq, Repr

/-- Format WD of GSPLIT and GFUSE (R172); w is WC of R139. -/
structure FmtWd where
  d : BitVec 6
  w : BitVec 3
deriving DecidableEq, Repr

/-- Format WD of GCOMPACT (R172). -/
structure FmtWd0 where
  d : BitVec 6
deriving DecidableEq, Repr

/-- Format BA of the barrier arrivals (R175). -/
structure FmtBa where
  a : BitVec 6
  b : BitVec 6
deriving DecidableEq, Repr

/-- Format BA of BLSET and BLCLR (R175). -/
structure FmtBl where
  b : BitVec 6
deriving DecidableEq, Repr

/-- Format V with two sources (R131). -/
structure FmtV where
  d : BitVec 6
  a : BitVec 6
  b : BitVec 6
  q : BitVec 1
  s : BitVec 1
  p : BitVec 2
deriving DecidableEq, Repr

/-- Format V with one source, B = 0 (R131). -/
structure FmtV1 where
  d : BitVec 6
  a : BitVec 6
  q : BitVec 1
  s : BitVec 1
  p : BitVec 2
deriving DecidableEq, Repr

/-- Format V of VIMM, A = B = 0 (R142). -/
structure FmtVimm where
  d : BitVec 6
  q : BitVec 1
  s : BitVec 1
  p : BitVec 2
deriving DecidableEq, Repr

/-- Format VM (R131, R138); CC is the constructor. -/
structure FmtVm where
  d : BitVec 3
  a : BitVec 6
  b : BitVec 6
  t : BitVec 4
  q : BitVec 1
  p : BitVec 2
deriving DecidableEq, Repr

/-- Format VC (R131): s is STY, t is DTY, e is SEL, w is WS. -/
structure FmtVc where
  d : BitVec 6
  a : BitVec 6
  s : BitVec 4
  t : BitVec 4
  e : BitVec 3
  w : BitVec 1
  p : BitVec 2
deriving DecidableEq, Repr

/-- Format MK with two mask sources (R143). -/
structure FmtMk where
  d : BitVec 3
  a : BitVec 3
  b : BitVec 3
deriving DecidableEq, Repr

/-- Format MK with one mask source (R143). -/
structure FmtMk1 where
  d : BitVec 3
  a : BitVec 3
deriving DecidableEq, Repr

/-- Format MK of MLDS (R143). -/
structure FmtMlds where
  d : BitVec 3
  x : BitVec 6
deriving DecidableEq, Repr

/-- Format MK with a scalar destination X (R143). -/
structure FmtMx where
  a : BitVec 3
  x : BitVec 6
deriving DecidableEq, Repr

/-- Format MK of VBALLOT (R143). -/
structure FmtBallot where
  d : BitVec 3
  x : BitVec 6
  p : BitVec 2
deriving DecidableEq, Repr

/-- Format V of VBSCALE (R143). -/
structure FmtBscale where
  d : BitVec 6
  a : BitVec 6
  f : BitVec 2
  q : BitVec 1
  s : BitVec 1
  p : BitVec 2
deriving DecidableEq, Repr

/-- Format V of VQUANT and VDEQ (R143). -/
structure FmtQuant where
  d : BitVec 6
  a : BitVec 6
  b : BitVec 6
  f : BitVec 2
  q : BitVec 1
  s : BitVec 1
  p : BitVec 2
deriving DecidableEq, Repr

/-- Format ML of VLD (R221): z is SZ, x is SX, r is AR, t is STR. -/
structure FmtVld where
  d : BitVec 6
  a : BitVec 6
  i : BitVec 6
  z : BitVec 2
  x : BitVec 1
  r : BitVec 1
  t : BitVec 1
  p : BitVec 2
deriving DecidableEq, Repr

/-- Format ML of VST (R221). -/
structure FmtVst where
  d : BitVec 6
  a : BitVec 6
  i : BitVec 6
  z : BitVec 2
  r : BitVec 1
  t : BitVec 1
  p : BitVec 2
deriving DecidableEq, Repr

/-- Format SM of SLD (R222). -/
structure FmtSld where
  d : BitVec 6
  a : BitVec 6
  z : BitVec 2
  x : BitVec 1
  r : BitVec 1
  o : BitVec 10
deriving DecidableEq, Repr

/-- Format SM of SST (R222). -/
structure FmtSst where
  d : BitVec 6
  a : BitVec 6
  z : BitVec 2
  r : BitVec 1
  o : BitVec 10
deriving DecidableEq, Repr

/-- Format AT with DW free (R225); l is DW. -/
structure FmtAt where
  d : BitVec 6
  a : BitVec 6
  b : BitVec 6
  l : BitVec 1
  q : BitVec 1
  p : BitVec 2
deriving DecidableEq, Repr

/-- Format AT with DW fixed by the function (R225). -/
structure FmtAt1 where
  d : BitVec 6
  a : BitVec 6
  b : BitVec 6
  q : BitVec 1
  p : BitVec 2
deriving DecidableEq, Repr

/-- Format AT of SATOM (R226). -/
structure FmtSat where
  d : BitVec 6
  a : BitVec 6
  b : BitVec 6
  l : BitVec 1
  q : BitVec 1
deriving DecidableEq, Repr

/-- Format AT of SATOM.ADD.f32 (R226). -/
structure FmtSat1 where
  d : BitVec 6
  a : BitVec 6
  b : BitVec 6
  q : BitVec 1
deriving DecidableEq, Repr

/-- A destination D and a source A (TAGLD, FWAIT, FTEST, FPASS, POOLA). -/
structure FmtDa where
  d : BitVec 6
  a : BitVec 6
deriving DecidableEq, Repr

/-- Two sources A and B (TAGST, PUB, POOLF). -/
structure FmtAb where
  a : BitVec 6
  b : BitVec 6
deriving DecidableEq, Repr

/-- Format G of QPUSH (R233). -/
structure FmtQpush where
  a : BitVec 6
  b : BitVec 6
  p : BitVec 2
deriving DecidableEq, Repr

/-- Format G of QPOP (R233). -/
structure FmtQpop where
  d : BitVec 6
  a : BitVec 6
  p : BitVec 2
deriving DecidableEq, Repr

/-- Format E of CPY (R236). -/
structure FmtCpy where
  d : BitVec 6
  a : BitVec 6
  b : BitVec 6
  z : BitVec 2
  p : BitVec 2
deriving DecidableEq, Repr

/-- Format E of GATH and SCAT (R237). -/
structure FmtGath where
  d : BitVec 6
  a : BitVec 6
  b : BitVec 6
  p : BitVec 2
deriving DecidableEq, Repr

/-- D, A and B of PFD and RETIRE (R239, R244). -/
structure FmtDab where
  d : BitVec 6
  a : BitVec 6
  b : BitVec 6
deriving DecidableEq, Repr

/-- Format X (R249). -/
structure FmtX where
  a : BitVec 6
  b : BitVec 6
  c : BitVec 6
  s : BitVec 6
deriving DecidableEq, Repr

/-- Format X of CABORT (R252). -/
structure FmtCabort where
  s : BitVec 6
deriving DecidableEq, Repr

/-- Format MX (R131): c is ACC, x is TA, y is TB. -/
structure FmtMma where
  c : BitVec 2
  a : BitVec 6
  b : BitVec 6
  x : BitVec 3
  y : BitVec 3
  q : BitVec 1
  p : BitVec 2
deriving DecidableEq, Repr

/-- Format MX of MMAT, TA = TB = 0 (R260). -/
structure FmtMmat where
  c : BitVec 2
  a : BitVec 6
  b : BitVec 6
  q : BitVec 1
  p : BitVec 2
deriving DecidableEq, Repr

/-- Format MA of MZERO (R265). -/
structure FmtMzero where
  c : BitVec 2
  p : BitVec 2
deriving DecidableEq, Repr

/-- Format MA of MLD and MST (R265). -/
structure FmtMldst where
  c : BitVec 2
  x : BitVec 6
  p : BitVec 2
deriving DecidableEq, Repr

/-- Format MA of MRD and MWR (R265). -/
structure FmtMrw where
  c : BitVec 2
  x : BitVec 6
  y : BitVec 6
  p : BitVec 2
deriving DecidableEq, Repr

/-- Format MA of MFENCE, MWAIT and MSTAT (R265). -/
structure FmtMw where
  x : BitVec 6
deriving DecidableEq, Repr

/-- Format HL (R133). -/
structure FmtHlr where
  l : BitVec 24
deriving DecidableEq, Repr

/-- Format H of HRUN (R133). -/
structure FmtHrun where
  n : BitVec 3
deriving DecidableEq, Repr

/-- Format H of HIMM (R133). -/
structure FmtHimm where
  h : BitVec 1
  v : BitVec 16
deriving DecidableEq, Repr

/-- Format H of HMOD (R133): e RE, r RM, s SE, c SC, g CE, k CP. -/
structure FmtHmod where
  e : BitVec 1
  r : BitVec 2
  s : BitVec 1
  c : BitVec 3
  g : BitVec 1
  k : BitVec 2
deriving DecidableEq, Repr

/-- Format H of HSIG (R133). -/
structure FmtHsig where
  s : BitVec 16
deriving DecidableEq, Repr

/-- How a boot's verification of the firmware image ends (R325, R326): success, or the FAIL code of BOOTSTAT. -/
inductive Boot where
  | verified
  | noImage
  | badSignature
  | badKeyHash
  | badFormat
deriving DecidableEq, Repr

/-- A collective packet of a peer package (R250, R321): one rank's contribution to an instance. -/
structure CollPacket where
  peer : BitVec 16
  fset : BitVec 8
  slot : BitVec 6
  attempt : BitVec 16
  inst : Nat
  rank : BitVec 8
  data : List Byte
deriving DecidableEq, Repr

/-- A write by a peer package (R279): to packet slot `i` of a queue's ring, or to the queue's doorbell. -/
inductive PeerWrite where
  | slot (peer : BitVec 16) (q : Nat) (i : Nat) (bytes : List Byte)
  | doorbell (peer : BitVec 16) (q : Nat) (v : Word)
deriving DecidableEq, Repr

/-- A soft error at one of the sites of R312. `loc` is a memory location of the model, `name` a register name. -/
inductive SoftError where
  | corrected
  | data (loc : Nat)
  | cache (core pa : Nat)
  | tag (loc : Nat)
  | vector (g name lane : Nat)
  | scalar (g name : Nat)
  | pipe (g : Nat)
  | issueState (core : Nat)
  | dieControl (die : Nat)
deriving DecidableEq, Repr

/-- The steps of the machine, in the order of spec/opcode_table.json. -/
inductive Instr where
  /-- SADD (R158). -/
  | sadd (f : FmtS)
  /-- SSUB (R158). -/
  | ssub (f : FmtS)
  /-- SMUL (R158). -/
  | smul (f : FmtS)
  /-- SMULH_I (R158). -/
  | smulhI (f : FmtS)
  /-- SMULH_N (R158). -/
  | smulhN (f : FmtS)
  /-- SDIV_I (R158). -/
  | sdivI (f : FmtS)
  /-- SDIV_N (R158). -/
  | sdivN (f : FmtS)
  /-- SREM_I (R158). -/
  | sremI (f : FmtS)
  /-- SREM_N (R158). -/
  | sremN (f : FmtS)
  /-- SAND (R158). -/
  | sand (f : FmtS)
  /-- SOR (R158). -/
  | sor (f : FmtS)
  /-- SXOR (R158). -/
  | sxor (f : FmtS)
  /-- SSHL (R158). -/
  | sshl (f : FmtS)
  /-- SSHR_N (R158). -/
  | sshrN (f : FmtS)
  /-- SSHR_I (R158). -/
  | sshrI (f : FmtS)
  /-- SMIN_I (R158). -/
  | sminI (f : FmtS)
  /-- SMAX_I (R158). -/
  | smaxI (f : FmtS)
  /-- SMIN_N (R158). -/
  | sminN (f : FmtS)
  /-- SMAX_N (R158). -/
  | smaxN (f : FmtS)
  /-- SSEQ (R158). -/
  | sseq (f : FmtS)
  /-- SSNE (R158). -/
  | ssne (f : FmtS)
  /-- SSLT_I (R158). -/
  | ssltI (f : FmtS)
  /-- SSLT_N (R158). -/
  | ssltN (f : FmtS)
  /-- SSLE_I (R158). -/
  | ssleI (f : FmtS)
  /-- SSLE_N (R158). -/
  | ssleN (f : FmtS)
  /-- SMOV (R158). -/
  | smov (f : FmtS1)
  /-- SPOPC (R158). -/
  | spopc (f : FmtS1)
  /-- SCLZ (R158). -/
  | sclz (f : FmtS1)
  /-- SADDI (R159). -/
  | saddi (f : FmtSi)
  /-- SANDI (R159). -/
  | sandi (f : FmtSi)
  /-- SORI (R159). -/
  | sori (f : FmtSi)
  /-- SXORI (R159). -/
  | sxori (f : FmtSi)
  /-- SSHLI (R159). -/
  | sshli (f : FmtSi)
  /-- SSHRI_N (R159). -/
  | sshriN (f : FmtSi)
  /-- SSHRI_I (R159). -/
  | sshriI (f : FmtSi)
  /-- SSLTI_I (R159). -/
  | ssltiI (f : FmtSi)
  /-- SSLTI_N (R159). -/
  | ssltiN (f : FmtSi)
  /-- SMOVI (R159). -/
  | smovi (f : FmtSmovi)
  /-- SGET (R161). -/
  | sget (f : FmtSget)
  /-- SSET (R161). -/
  | sset (f : FmtSset)
  /-- VGET (R217). -/
  | vget (f : FmtVget)
  /-- VSET (R217). -/
  | vset (f : FmtVset)
  /-- BZ (R163). -/
  | bz (f : FmtBc)
  /-- BNZ (R163). -/
  | bnz (f : FmtBc)
  /-- BLTZ (R163). -/
  | bltz (f : FmtBc)
  /-- BGEZ (R163). -/
  | bgez (f : FmtBc)
  /-- BGTZ (R163). -/
  | bgtz (f : FmtBc)
  /-- BLEZ (R163). -/
  | blez (f : FmtBc)
  /-- JMP (R163). -/
  | jmp (f : FmtJ)
  /-- CALL (R163). -/
  | call (f : FmtJ)
  /-- NOP (R191). -/
  | nop
  /-- RET (R164). -/
  | ret
  /-- JMPI (R164). -/
  | jmpi (f : FmtA)
  /-- CALLI (R164). -/
  | calli (f : FmtA)
  /-- EXIT (R188). -/
  | exit
  /-- YIELD (R189). -/
  | yield
  /-- SNAP (R190). -/
  | snap
  /-- TRAP (R187). -/
  | trap (f : FmtTrap)
  /-- VELSE (R168). -/
  | velse
  /-- VEND (R170). -/
  | vend
  /-- PHEND (R38). -/
  | phend
  /-- XEND (R38). -/
  | xend
  /-- IDEMB (R181). -/
  | idemb
  /-- IDEME (R183). -/
  | ideme
  /-- RDENTER (R120). -/
  | rdenter
  /-- RDEXIT (R120). -/
  | rdexit
  /-- GPWAIT (R125). -/
  | gpwait
  /-- FENCE (R114). -/
  | fence (f : FmtFence)
  /-- DLAUNCH (R185). -/
  | dlaunch (f : FmtDlaunch)
  /-- VIF (R167). -/
  | vif (f : FmtVif)
  /-- VLOOP (R169). -/
  | vloop (f : FmtVloop)
  /-- VWHILE (R169). -/
  | vwhile (f : FmtVwhile)
  /-- GSPLIT (R19). -/
  | gsplit (f : FmtWd)
  /-- GFUSE (R20). -/
  | gfuse (f : FmtWd)
  /-- GCOMPACT (R21). -/
  | gcompact (f : FmtWd0)
  /-- BARB (R177). -/
  | barb (f : FmtBa)
  /-- BARN (R177). -/
  | barn (f : FmtBa)
  /-- BARC (R177). -/
  | barc (f : FmtBa)
  /-- BLSET (R179). -/
  | blset (f : FmtBl)
  /-- BLCLR (R179). -/
  | blclr (f : FmtBl)
  /-- VADD_F32 (R197). -/
  | vaddF32 (f : FmtV)
  /-- VSUB_F32 (R197). -/
  | vsubF32 (f : FmtV)
  /-- VMUL_F32 (R197). -/
  | vmulF32 (f : FmtV)
  /-- VFMA_F32 (R197). -/
  | vfmaF32 (f : FmtV)
  /-- VFMS_F32 (R197). -/
  | vfmsF32 (f : FmtV)
  /-- VMIN_F32 (R197). -/
  | vminF32 (f : FmtV)
  /-- VMAX_F32 (R197). -/
  | vmaxF32 (f : FmtV)
  /-- VDIV_F32 (R198). -/
  | vdivF32 (f : FmtV)
  /-- VABS_F32 (R197). -/
  | vabsF32 (f : FmtV1)
  /-- VNEG_F32 (R197). -/
  | vnegF32 (f : FmtV1)
  /-- VRCP_F32 (R199). -/
  | vrcpF32 (f : FmtV1)
  /-- VRSQ_F32 (R199). -/
  | vrsqF32 (f : FmtV1)
  /-- VSQRT_F32 (R198). -/
  | vsqrtF32 (f : FmtV1)
  /-- VEXP2_F32 (R199). -/
  | vexp2F32 (f : FmtV1)
  /-- VLOG2_F32 (R199). -/
  | vlog2F32 (f : FmtV1)
  /-- VTANH_F32 (R199). -/
  | vtanhF32 (f : FmtV1)
  /-- VADD_F16 (R197). -/
  | vaddF16 (f : FmtV)
  /-- VSUB_F16 (R197). -/
  | vsubF16 (f : FmtV)
  /-- VMUL_F16 (R197). -/
  | vmulF16 (f : FmtV)
  /-- VFMA_F16 (R197). -/
  | vfmaF16 (f : FmtV)
  /-- VFMS_F16 (R197). -/
  | vfmsF16 (f : FmtV)
  /-- VMIN_F16 (R197). -/
  | vminF16 (f : FmtV)
  /-- VMAX_F16 (R197). -/
  | vmaxF16 (f : FmtV)
  /-- VDIV_F16 (R198). -/
  | vdivF16 (f : FmtV)
  /-- VABS_F16 (R197). -/
  | vabsF16 (f : FmtV1)
  /-- VNEG_F16 (R197). -/
  | vnegF16 (f : FmtV1)
  /-- VRCP_F16 (R199). -/
  | vrcpF16 (f : FmtV1)
  /-- VRSQ_F16 (R199). -/
  | vrsqF16 (f : FmtV1)
  /-- VSQRT_F16 (R198). -/
  | vsqrtF16 (f : FmtV1)
  /-- VEXP2_F16 (R199). -/
  | vexp2F16 (f : FmtV1)
  /-- VLOG2_F16 (R199). -/
  | vlog2F16 (f : FmtV1)
  /-- VTANH_F16 (R199). -/
  | vtanhF16 (f : FmtV1)
  /-- VADD_BF16 (R197). -/
  | vaddBf16 (f : FmtV)
  /-- VSUB_BF16 (R197). -/
  | vsubBf16 (f : FmtV)
  /-- VMUL_BF16 (R197). -/
  | vmulBf16 (f : FmtV)
  /-- VFMA_BF16 (R197). -/
  | vfmaBf16 (f : FmtV)
  /-- VFMS_BF16 (R197). -/
  | vfmsBf16 (f : FmtV)
  /-- VMIN_BF16 (R197). -/
  | vminBf16 (f : FmtV)
  /-- VMAX_BF16 (R197). -/
  | vmaxBf16 (f : FmtV)
  /-- VDIV_BF16 (R198). -/
  | vdivBf16 (f : FmtV)
  /-- VABS_BF16 (R197). -/
  | vabsBf16 (f : FmtV1)
  /-- VNEG_BF16 (R197). -/
  | vnegBf16 (f : FmtV1)
  /-- VRCP_BF16 (R199). -/
  | vrcpBf16 (f : FmtV1)
  /-- VRSQ_BF16 (R199). -/
  | vrsqBf16 (f : FmtV1)
  /-- VSQRT_BF16 (R198). -/
  | vsqrtBf16 (f : FmtV1)
  /-- VEXP2_BF16 (R199). -/
  | vexp2Bf16 (f : FmtV1)
  /-- VLOG2_BF16 (R199). -/
  | vlog2Bf16 (f : FmtV1)
  /-- VTANH_BF16 (R199). -/
  | vtanhBf16 (f : FmtV1)
  /-- VADD_I32 (R200). -/
  | vaddI32 (f : FmtV)
  /-- VSUB_I32 (R200). -/
  | vsubI32 (f : FmtV)
  /-- VMUL_I32 (R200). -/
  | vmulI32 (f : FmtV)
  /-- VMAD_I32 (R200). -/
  | vmadI32 (f : FmtV)
  /-- VMIN_I32 (R200). -/
  | vminI32 (f : FmtV)
  /-- VMAX_I32 (R200). -/
  | vmaxI32 (f : FmtV)
  /-- VMULH_I32 (R200). -/
  | vmulhI32 (f : FmtV)
  /-- VADDS_I32 (R200). -/
  | vaddsI32 (f : FmtV)
  /-- VSUBS_I32 (R200). -/
  | vsubsI32 (f : FmtV)
  /-- VSHL_I32 (R200). -/
  | vshlI32 (f : FmtV)
  /-- VSHR_I32 (R200). -/
  | vshrI32 (f : FmtV)
  /-- VDIV_I32 (R200). -/
  | vdivI32 (f : FmtV)
  /-- VREM_I32 (R200). -/
  | vremI32 (f : FmtV)
  /-- VABS_I32 (R200). -/
  | vabsI32 (f : FmtV1)
  /-- VADD_N32 (R200). -/
  | vaddN32 (f : FmtV)
  /-- VSUB_N32 (R200). -/
  | vsubN32 (f : FmtV)
  /-- VMUL_N32 (R200). -/
  | vmulN32 (f : FmtV)
  /-- VMAD_N32 (R200). -/
  | vmadN32 (f : FmtV)
  /-- VMIN_N32 (R200). -/
  | vminN32 (f : FmtV)
  /-- VMAX_N32 (R200). -/
  | vmaxN32 (f : FmtV)
  /-- VMULH_N32 (R200). -/
  | vmulhN32 (f : FmtV)
  /-- VADDS_N32 (R200). -/
  | vaddsN32 (f : FmtV)
  /-- VSUBS_N32 (R200). -/
  | vsubsN32 (f : FmtV)
  /-- VSHL_N32 (R200). -/
  | vshlN32 (f : FmtV)
  /-- VSHR_N32 (R200). -/
  | vshrN32 (f : FmtV)
  /-- VDIV_N32 (R200). -/
  | vdivN32 (f : FmtV)
  /-- VREM_N32 (R200). -/
  | vremN32 (f : FmtV)
  /-- VADD_I64 (R201). -/
  | vaddI64 (f : FmtV)
  /-- VSUB_I64 (R201). -/
  | vsubI64 (f : FmtV)
  /-- VMIN_I64 (R201). -/
  | vminI64 (f : FmtV)
  /-- VMAX_I64 (R201). -/
  | vmaxI64 (f : FmtV)
  /-- VMIN_N64 (R201). -/
  | vminN64 (f : FmtV)
  /-- VMAX_N64 (R201). -/
  | vmaxN64 (f : FmtV)
  /-- VSHL_I64 (R201). -/
  | vshlI64 (f : FmtV)
  /-- VSHR_N64 (R201). -/
  | vshrN64 (f : FmtV)
  /-- VSHR_I64 (R201). -/
  | vshrI64 (f : FmtV)
  /-- VAND (R202). -/
  | vand (f : FmtV)
  /-- VOR (R202). -/
  | vor (f : FmtV)
  /-- VXOR (R202). -/
  | vxor (f : FmtV)
  /-- VANDN (R202). -/
  | vandn (f : FmtV)
  /-- VNOT (R202). -/
  | vnot (f : FmtV1)
  /-- VMOV (R202). -/
  | vmov (f : FmtV1)
  /-- VBS (R202). -/
  | vbs (f : FmtV1)
  /-- VIMM (R202). -/
  | vimm (f : FmtVimm)
  /-- VSEL (R202). -/
  | vsel (f : FmtV)
  /-- VPOPC (R202). -/
  | vpopc (f : FmtV1)
  /-- VCLZ (R202). -/
  | vclz (f : FmtV1)
  /-- VCEQ (R203). -/
  | vceq (f : FmtVm)
  /-- VCNE (R203). -/
  | vcne (f : FmtVm)
  /-- VCLT (R203). -/
  | vclt (f : FmtVm)
  /-- VCLE (R203). -/
  | vcle (f : FmtVm)
  /-- VCGT (R203). -/
  | vcgt (f : FmtVm)
  /-- VCGE (R203). -/
  | vcge (f : FmtVm)
  /-- VCUN (R203). -/
  | vcun (f : FmtVm)
  /-- VCOR (R203). -/
  | vcor (f : FmtVm)
  /-- VCVT (R205). -/
  | vcvt (f : FmtVc)
  /-- VCVTQ (R205). -/
  | vcvtq (f : FmtVc)
  /-- MAND (R204). -/
  | mand (f : FmtMk)
  /-- MOR (R204). -/
  | mor (f : FmtMk)
  /-- MXOR (R204). -/
  | mxor (f : FmtMk)
  /-- MANDN (R204). -/
  | mandn (f : FmtMk)
  /-- MNOT (R204). -/
  | mnot (f : FmtMk1)
  /-- MMOV (R204). -/
  | mmov (f : FmtMk1)
  /-- MLDS (R204). -/
  | mlds (f : FmtMlds)
  /-- MSTS (R204). -/
  | msts (f : FmtMx)
  /-- MPOPC (R204). -/
  | mpopc (f : FmtMx)
  /-- MFIRST (R204). -/
  | mfirst (f : FmtMx)
  /-- VBALLOT (R204). -/
  | vballot (f : FmtBallot)
  /-- VSHFL (R215). -/
  | vshfl (f : FmtV)
  /-- VSHFX (R215). -/
  | vshfx (f : FmtV)
  /-- VROT (R215). -/
  | vrot (f : FmtV)
  /-- VBCAST (R215). -/
  | vbcast (f : FmtV)
  /-- VSHUP (R215). -/
  | vshup (f : FmtV)
  /-- VSHDN (R215). -/
  | vshdn (f : FmtV)
  /-- VRSUM_F32 (R216). -/
  | vrsumF32 (f : FmtV1)
  /-- VRMAX_F32 (R216). -/
  | vrmaxF32 (f : FmtV1)
  /-- VRMIN_F32 (R216). -/
  | vrminF32 (f : FmtV1)
  /-- VRSUM_I32 (R216). -/
  | vrsumI32 (f : FmtV1)
  /-- VRMAX_I32 (R216). -/
  | vrmaxI32 (f : FmtV1)
  /-- VRMIN_I32 (R216). -/
  | vrminI32 (f : FmtV1)
  /-- VRMAX_N32 (R216). -/
  | vrmaxN32 (f : FmtV1)
  /-- VRMIN_N32 (R216). -/
  | vrminN32 (f : FmtV1)
  /-- VSSUM_F32 (R216). -/
  | vssumF32 (f : FmtV1)
  /-- VSSUM_I32 (R216). -/
  | vssumI32 (f : FmtV1)
  /-- VSMAX_F32 (R216). -/
  | vsmaxF32 (f : FmtV1)
  /-- VSMAX_I32 (R216). -/
  | vsmaxI32 (f : FmtV1)
  /-- VBSCALE (R209). -/
  | vbscale (f : FmtBscale)
  /-- VQUANT (R210). -/
  | vquant (f : FmtQuant)
  /-- VDEQ (R212). -/
  | vdeq (f : FmtQuant)
  /-- VLD (R221). -/
  | vld (f : FmtVld)
  /-- VST (R221). -/
  | vst (f : FmtVst)
  /-- SLD (R222). -/
  | sld (f : FmtSld)
  /-- SST (R222). -/
  | sst (f : FmtSst)
  /-- VATOM_ADD (R226). -/
  | vatomAdd (f : FmtAt)
  /-- VATOM_ADD_F32 (R225). -/
  | vatomAddF32 (f : FmtAt1)
  /-- VATOM_MIN_I (R226). -/
  | vatomMinI (f : FmtAt)
  /-- VATOM_MAX_I (R226). -/
  | vatomMaxI (f : FmtAt)
  /-- VATOM_MIN_N (R226). -/
  | vatomMinN (f : FmtAt)
  /-- VATOM_MAX_N (R226). -/
  | vatomMaxN (f : FmtAt)
  /-- VATOM_AND (R226). -/
  | vatomAnd (f : FmtAt)
  /-- VATOM_OR (R226). -/
  | vatomOr (f : FmtAt)
  /-- VATOM_XOR (R226). -/
  | vatomXor (f : FmtAt)
  /-- VATOM_XCHG (R226). -/
  | vatomXchg (f : FmtAt)
  /-- VATOM_CAS (R226). -/
  | vatomCas (f : FmtAt)
  /-- SATOM_ADD (R226). -/
  | satomAdd (f : FmtSat)
  /-- SATOM_ADD_F32 (R225). -/
  | satomAddF32 (f : FmtSat1)
  /-- SATOM_MIN_I (R226). -/
  | satomMinI (f : FmtSat)
  /-- SATOM_MAX_I (R226). -/
  | satomMaxI (f : FmtSat)
  /-- SATOM_MIN_N (R226). -/
  | satomMinN (f : FmtSat)
  /-- SATOM_MAX_N (R226). -/
  | satomMaxN (f : FmtSat)
  /-- SATOM_AND (R226). -/
  | satomAnd (f : FmtSat)
  /-- SATOM_OR (R226). -/
  | satomOr (f : FmtSat)
  /-- SATOM_XOR (R226). -/
  | satomXor (f : FmtSat)
  /-- SATOM_XCHG (R226). -/
  | satomXchg (f : FmtSat)
  /-- SATOM_CAS (R226). -/
  | satomCas (f : FmtSat)
  /-- BADD (R227). -/
  | badd (f : FmtAt1)
  /-- BADD_F32 (R227). -/
  | baddF32 (f : FmtAt1)
  /-- BMIN_I32 (R227). -/
  | bminI32 (f : FmtAt1)
  /-- BMAX_I32 (R227). -/
  | bmaxI32 (f : FmtAt1)
  /-- BMIN_N32 (R227). -/
  | bminN32 (f : FmtAt1)
  /-- BMAX_N32 (R227). -/
  | bmaxN32 (f : FmtAt1)
  /-- BINC (R228). -/
  | binc (f : FmtAt1)
  /-- BMAXP (R228). -/
  | bmaxp (f : FmtAt1)
  /-- BXCHG (R227). -/
  | bxchg (f : FmtAt)
  /-- BCAS (R227). -/
  | bcas (f : FmtAt)
  /-- BOR (R227). -/
  | bor (f : FmtAt1)
  /-- BAND (R227). -/
  | band (f : FmtAt1)
  /-- TAGLD (R229). -/
  | tagld (f : FmtDa)
  /-- TAGST (R229). -/
  | tagst (f : FmtAb)
  /-- SETE (R231). -/
  | sete (f : FmtA)
  /-- SETF (R231). -/
  | setf (f : FmtA)
  /-- QPUSH (R233). -/
  | qpush (f : FmtQpush)
  /-- QPOP (R233). -/
  | qpop (f : FmtQpop)
  /-- CPY (R236). -/
  | cpy (f : FmtCpy)
  /-- GATH (R237). -/
  | gath (f : FmtGath)
  /-- SCAT (R237). -/
  | scat (f : FmtGath)
  /-- PFD (R239). -/
  | pfd (f : FmtDab)
  /-- FWAIT (R241). -/
  | fwait (f : FmtDa)
  /-- FTEST (R241). -/
  | ftest (f : FmtDa)
  /-- FCANCEL (R241). -/
  | fcancel (f : FmtA)
  /-- FPASS (R241). -/
  | fpass (f : FmtDa)
  /-- PUB (R243). -/
  | pub (f : FmtAb)
  /-- RETIRE (R244). -/
  | retire (f : FmtDab)
  /-- POOLA (R248). -/
  | poola (f : FmtDa)
  /-- POOLF (R248). -/
  | poolf (f : FmtAb)
  /-- XPUT (R249). -/
  | xput (f : FmtX)
  /-- XGET (R249). -/
  | xget (f : FmtX)
  /-- COLL (R250). -/
  | coll (f : FmtX)
  /-- CABORT (R252). -/
  | cabort (f : FmtCabort)
  /-- MMA (R258). -/
  | mma (f : FmtMma)
  /-- MMAS (R259). -/
  | mmas (f : FmtMma)
  /-- MMAT (R260). -/
  | mmat (f : FmtMmat)
  /-- MMAX (R261). -/
  | mmax (f : FmtMma)
  /-- MZERO (R265). -/
  | mzero (f : FmtMzero)
  /-- MLD (R265). -/
  | mld (f : FmtMldst)
  /-- MST (R265). -/
  | mst (f : FmtMldst)
  /-- MRD (R265). -/
  | mrd (f : FmtMrw)
  /-- MWR (R265). -/
  | mwr (f : FmtMrw)
  /-- MFENCE (R267). -/
  | mfence (f : FmtMw)
  /-- MWAIT (R269). -/
  | mwait (f : FmtMw)
  /-- MSTAT (R271). -/
  | mstat (f : FmtMw)
  /-- HLR (R58). -/
  | hlr (f : FmtHlr)
  /-- HRUN (R32). -/
  | hrun (f : FmtHrun)
  /-- HIMM (R134). -/
  | himm (f : FmtHimm)
  /-- HMOD (R135). -/
  | hmod (f : FmtHmod)
  /-- HSIG (R137). -/
  | hsig (f : FmtHsig)
  /-- WEIGHT_RECOMPUTATION (R30). -/
  | weightRecomputation (core : Nat)
  /-- STARVATION_GUARD (R33). -/
  | starvationGuard (core : Nat)
  /-- WAVE_TOKEN (R39). -/
  | waveToken (core : Nat)
  /-- CORE_ARRIVAL (R39). -/
  | coreArrival (core : Nat)
  /-- BOUNDARY_COMPLETION (R39). -/
  | boundaryCompletion
  /-- RELEASE (R39). -/
  | release (core : Nat)
  /-- BOUNDARY_REQUEST (R41). -/
  | boundaryRequest (k : Nat)
  /-- STRAGGLER_EXPIRY (R42). -/
  | stragglerExpiry (core : Nat)
  /-- STRAGGLER_KILL (R42). -/
  | stragglerKill (core : Nat)
  /-- CLUSTER_DISPATCH (R286). -/
  | clusterDispatch (die : Nat)
  /-- COMPACTION_EXCHANGE (R62). -/
  | compactionExchange (g : Nat)
  /-- STARVATION_RESOLUTION (R64). -/
  | starvationResolution (core : Nat)
  /-- MEMBER_EVICTION (R64). -/
  | memberEviction (wg : Nat)
  /-- EVICTION_RESUME (R64). -/
  | evictionResume (wg : Nat)
  /-- LOAD_COMPLETION (R221). -/
  | loadCompletion (op : Nat)
  /-- ATOMIC_COMPLETION (R226). -/
  | atomicCompletion (op : Nat)
  /-- VARIABLE_LATENCY_RESULT (R196). -/
  | variableLatencyResult (op : Nat)
  /-- PAGE_TABLE_WALK (R89). -/
  | pageTableWalk (die k : Nat)
  /-- CXM_INVAL (R95). -/
  | cxmInval (ctx : Nat) (v : Dword)
  /-- INVALIDATION_COMPLETE (R94). -/
  | invalidationComplete (ctx : Nat)
  /-- CXM_RESUME (R97). -/
  | cxmResume (ctx : Nat) (v : Word)
  /-- ENGINE_ELEMENT (R238). -/
  | engineElement (op k : Nat)
  /-- ENGINE_COMPLETION (R234). -/
  | engineCompletion (op : Nat)
  /-- PFD_LINE_ISSUE (R240). -/
  | pfdLineIssue (die : Nat)
  /-- PFD_BUDGET_WINDOW (R240). -/
  | pfdBudgetWindow (die : Nat)
  /-- MIRROR_LINE_PASS (R109). -/
  | mirrorLinePass
  /-- MIRROR_SLOT_PASS (R109). -/
  | mirrorSlotPass
  /-- GRACE_PERIOD_START (R121). -/
  | gracePeriodStart
  /-- PARITY_FLIP (R121). -/
  | parityFlip (core : Nat)
  /-- GRACE_PERIOD_END (R121). -/
  | gracePeriodEnd
  /-- XFER_COMPLETION (R249). -/
  | xferCompletion (op : Nat)
  /-- COLLECTIVE_COMPLETION (R250). -/
  | collectiveCompletion (k : Nat)
  /-- COLLECTIVE_INGRESS (R321). -/
  | collectiveIngress (pkt : CollPacket)
  /-- MATRIX_OPERATION_COMPLETION (R262). -/
  | matrixOperationCompletion (op : Nat)
  /-- SELF_TEST (R272). -/
  | selfTest (core quad : Nat) (pass1 pass2 : Bool)
  /-- DLAUNCH_ANSWER (R185). -/
  | dlaunchAnswer (op : Nat)
  /-- WORKGROUP_END (R188). -/
  | workgroupEnd (wg : Nat)
  /-- ASYNC_TRAP_DELIVERY (R302). -/
  | asyncTrapDelivery (g : Nat)
  /-- SOFT_ERROR (R312). -/
  | softError (e : SoftError)
  /-- DIE_LOST (R320). -/
  | dieLost (die : Nat)
  /-- FIRMWARE_ROUND (R283). -/
  | firmwareRound
  /-- GRID_COMPLETION (R287). -/
  | gridCompletion (ctx k : Nat)
  /-- DOORBELL (R276). -/
  | doorbell (q : Nat) (v : Word)
  /-- QUEUE_ENABLE (R275). -/
  | queueEnable (q : Nat) (v : Word)
  /-- QUEUE_DISABLE (R275). -/
  | queueDisable (q : Nat) (v : Word)
  /-- CLR (R277). -/
  | clr (q : Nat)
  /-- PEER_WRITE (R279). -/
  | peerWrite (w : PeerWrite)
  /-- CONTEXT_CREATE (R295). -/
  | contextCreate (ctx : Nat) (v : Word)
  /-- CONTEXT_FREE (R295). -/
  | contextFree (ctx : Nat) (v : Word)
  /-- PREEMPTION_REQUEST (R297). -/
  | preemptionRequest (ctx : Nat) (v : Dword)
  /-- DRAIN_PERIOD (R297). -/
  | drainPeriod (ctx : Nat)
  /-- POOL_CFG (R247). -/
  | poolCfg (die ctx pool : Nat) (v : Dword)
  /-- MXCTL_FENCE (R271). -/
  | mxctlFence (core : Nat) (v : BitVec 4)
  /-- RETEST (R271). -/
  | retest (core : Nat) (v : BitVec 4)
  /-- RESET (R325). -/
  | reset (img : Boot)
  /-- DIE_AUTHENTICATION (R325). -/
  | dieAuthentication (die : Nat) (ok : Bool)
  /-- SPDM_REQUEST (R324). -/
  | spdmRequest
  /-- D3HOT (R335). -/
  | d3hot
  /-- D3COLD (R335). -/
  | d3cold
  /-- D0_RETURN (R335). -/
  | d0Return (img : Boot)
  /-- THROTTLE (R333). -/
  | throttle (die steps : Nat)
  /-- TRIG (R332). -/
  | trig
  /-- SNAPSHOT_LATCH (R332). -/
  | snapshotLatch (block : Nat)
  /-- RBSEL (R330). -/
  | rbsel (core : Nat) (v : Dword)
  /-- REGISTER_WRITE (R324). -/
  | registerWrite (off : Nat) (wide : Bool) (v : Dword)
  /-- HOST_WRITE (R110). -/
  | hostWrite (pa : Nat) (bytes : List Byte)
  /-- STORE_ACKNOWLEDGED (R102). -/
  | storeAcknowledged (op : Nat)
deriving DecidableEq, Repr

end Sys2Proof
end

