-- ==== Sys2Proof/Decode.lean ====
section
/-! DEFINITION. Decoding and encoding (R129 to R146): from any word to an instruction or a named error, and back. The
encoder and the decoder are written from the layouts of R131 and the fixed bits of each row of the opcode table. A word
whose reserved or unused field is not zero is refused; values of coded fields and register codes that R130, R138, R139 or
R146 forbid decode, and the machine traps ILLEGAL_OP on them (Machine/Operands.lean). -/

namespace Sys2Proof

/-- Why a word is no instruction (R146, first three cases). -/
inductive DecodeError where
  /-- The major is one that R140 leaves undefined. -/
  | undefinedMajor
  /-- The function code is reserved for its major. -/
  | reservedFunction
  /-- A reserved field, or a field that the function does not use, is not zero. -/
  | reservedField
  /-- The bytes are not one whole word. -/
  | wrongLength
deriving DecidableEq, Repr

/-- Bits [lo + n - 1 : lo] of a word. -/
def fieldOf (w n lo : Nat) : BitVec n := BitVec.ofNat n (w / 2 ^ lo)

/-- A function code that no row of the major carries is reserved (R146). -/
def orReserved (o : Option Instr) : Except DecodeError Instr :=
  match o with
  | some i => .ok i
  | none => .error .reservedFunction

/-- The fields of FmtS in their places of the word (R131). -/
def FmtS.pack (f : FmtS) : Nat :=
  f.d.toNat * 1048576 + f.a.toNat * 16384 + f.b.toNat * 256 + f.l.toNat * 4 + f.s.toNat * 2

/-- The fields of FmtS read from a word (R131). -/
def FmtS.unpack (w : Nat) : FmtS :=
  ⟨fieldOf w 6 20, fieldOf w 6 14, fieldOf w 6 8, fieldOf w 1 2, fieldOf w 1 1⟩

/-- The fields of FmtS1 in their places of the word (R131). -/
def FmtS1.pack (f : FmtS1) : Nat :=
  f.d.toNat * 1048576 + f.a.toNat * 16384 + f.l.toNat * 4 + f.s.toNat * 2

/-- The fields of FmtS1 read from a word (R131). -/
def FmtS1.unpack (w : Nat) : FmtS1 :=
  ⟨fieldOf w 6 20, fieldOf w 6 14, fieldOf w 1 2, fieldOf w 1 1⟩

/-- The fields of FmtSi in their places of the word (R131). -/
def FmtSi.pack (f : FmtSi) : Nat :=
  f.d.toNat * 1048576 + f.a.toNat * 16384 + f.i.toNat

/-- The fields of FmtSi read from a word (R131). -/
def FmtSi.unpack (w : Nat) : FmtSi :=
  ⟨fieldOf w 6 20, fieldOf w 6 14, fieldOf w 10 0⟩

/-- The fields of FmtSmovi in their places of the word (R131). -/
def FmtSmovi.pack (f : FmtSmovi) : Nat :=
  f.d.toNat * 1048576 + f.i.toNat

/-- The fields of FmtSmovi read from a word (R131). -/
def FmtSmovi.unpack (w : Nat) : FmtSmovi :=
  ⟨fieldOf w 6 20, fieldOf w 10 0⟩

/-- The fields of FmtSget in their places of the word (R131). -/
def FmtSget.pack (f : FmtSget) : Nat :=
  f.d.toNat * 1048576 + f.r.toNat * 4

/-- The fields of FmtSget read from a word (R131). -/
def FmtSget.unpack (w : Nat) : FmtSget :=
  ⟨fieldOf w 6 20, fieldOf w 10 2⟩

/-- The fields of FmtSset in their places of the word (R131). -/
def FmtSset.pack (f : FmtSset) : Nat :=
  f.a.toNat * 16384 + f.r.toNat * 4

/-- The fields of FmtSset read from a word (R131). -/
def FmtSset.unpack (w : Nat) : FmtSset :=
  ⟨fieldOf w 6 14, fieldOf w 10 2⟩

/-- The fields of FmtVget in their places of the word (R131). -/
def FmtVget.pack (f : FmtVget) : Nat :=
  f.d.toNat * 1048576 + f.r.toNat * 4 + f.p.toNat

/-- The fields of FmtVget read from a word (R131). -/
def FmtVget.unpack (w : Nat) : FmtVget :=
  ⟨fieldOf w 6 20, fieldOf w 10 2, fieldOf w 2 0⟩

/-- The fields of FmtVset in their places of the word (R131). -/
def FmtVset.pack (f : FmtVset) : Nat :=
  f.a.toNat * 16384 + f.r.toNat * 4 + f.p.toNat

/-- The fields of FmtVset read from a word (R131). -/
def FmtVset.unpack (w : Nat) : FmtVset :=
  ⟨fieldOf w 6 14, fieldOf w 10 2, fieldOf w 2 0⟩

/-- The fields of FmtBc in their places of the word (R131). -/
def FmtBc.pack (f : FmtBc) : Nat :=
  f.a.toNat * 1048576 + f.o.toNat

/-- The fields of FmtBc read from a word (R131). -/
def FmtBc.unpack (w : Nat) : FmtBc :=
  ⟨fieldOf w 6 20, fieldOf w 17 0⟩

/-- The fields of FmtJ in their places of the word (R131). -/
def FmtJ.pack (f : FmtJ) : Nat :=
  f.o.toNat

/-- The fields of FmtJ read from a word (R131). -/
def FmtJ.unpack (w : Nat) : FmtJ :=
  ⟨fieldOf w 26 0⟩

/-- The fields of FmtA in their places of the word (R131). -/
def FmtA.pack (f : FmtA) : Nat :=
  f.a.toNat * 16384

/-- The fields of FmtA read from a word (R131). -/
def FmtA.unpack (w : Nat) : FmtA :=
  ⟨fieldOf w 6 14⟩

/-- The fields of FmtTrap in their places of the word (R131). -/
def FmtTrap.pack (f : FmtTrap) : Nat :=
  f.i.toNat

/-- The fields of FmtTrap read from a word (R131). -/
def FmtTrap.unpack (w : Nat) : FmtTrap :=
  ⟨fieldOf w 8 0⟩

/-- The fields of FmtFence in their places of the word (R131). -/
def FmtFence.pack (f : FmtFence) : Nat :=
  f.c.toNat

/-- The fields of FmtFence read from a word (R131). -/
def FmtFence.unpack (w : Nat) : FmtFence :=
  ⟨fieldOf w 3 0⟩

/-- The fields of FmtDlaunch in their places of the word (R131). -/
def FmtDlaunch.pack (f : FmtDlaunch) : Nat :=
  f.a.toNat * 16384 + f.d.toNat * 256

/-- The fields of FmtDlaunch read from a word (R131). -/
def FmtDlaunch.unpack (w : Nat) : FmtDlaunch :=
  ⟨fieldOf w 6 14, fieldOf w 6 8⟩

/-- The fields of FmtVif in their places of the word (R131). -/
def FmtVif.pack (f : FmtVif) : Nat :=
  f.m.toNat * 8388608 + f.n.toNat * 4194304 + f.e.toNat * 2048 + f.o.toNat

/-- The fields of FmtVif read from a word (R131). -/
def FmtVif.unpack (w : Nat) : FmtVif :=
  ⟨fieldOf w 3 23, fieldOf w 1 22, fieldOf w 11 11, fieldOf w 11 0⟩

/-- The fields of FmtVloop in their places of the word (R131). -/
def FmtVloop.pack (f : FmtVloop) : Nat :=
  f.o.toNat

/-- The fields of FmtVloop read from a word (R131). -/
def FmtVloop.unpack (w : Nat) : FmtVloop :=
  ⟨fieldOf w 11 0⟩

/-- The fields of FmtVwhile in their places of the word (R131). -/
def FmtVwhile.pack (f : FmtVwhile) : Nat :=
  f.m.toNat * 8388608 + f.n.toNat * 4194304 + f.o.toNat

/-- The fields of FmtVwhile read from a word (R131). -/
def FmtVwhile.unpack (w : Nat) : FmtVwhile :=
  ⟨fieldOf w 3 23, fieldOf w 1 22, fieldOf w 11 0⟩

/-- The fields of FmtWd in their places of the word (R131). -/
def FmtWd.pack (f : FmtWd) : Nat :=
  f.d.toNat * 1048576 + f.w.toNat * 32768

/-- The fields of FmtWd read from a word (R131). -/
def FmtWd.unpack (w : Nat) : FmtWd :=
  ⟨fieldOf w 6 20, fieldOf w 3 15⟩

/-- The fields of FmtWd0 in their places of the word (R131). -/
def FmtWd0.pack (f : FmtWd0) : Nat :=
  f.d.toNat * 1048576

/-- The fields of FmtWd0 read from a word (R131). -/
def FmtWd0.unpack (w : Nat) : FmtWd0 :=
  ⟨fieldOf w 6 20⟩

/-- The fields of FmtBa in their places of the word (R131). -/
def FmtBa.pack (f : FmtBa) : Nat :=
  f.a.toNat * 1048576 + f.b.toNat * 16384

/-- The fields of FmtBa read from a word (R131). -/
def FmtBa.unpack (w : Nat) : FmtBa :=
  ⟨fieldOf w 6 20, fieldOf w 6 14⟩

/-- The fields of FmtBl in their places of the word (R131). -/
def FmtBl.pack (f : FmtBl) : Nat :=
  f.b.toNat * 16384

/-- The fields of FmtBl read from a word (R131). -/
def FmtBl.unpack (w : Nat) : FmtBl :=
  ⟨fieldOf w 6 14⟩

/-- The fields of FmtV in their places of the word (R131). -/
def FmtV.pack (f : FmtV) : Nat :=
  f.d.toNat * 1048576 + f.a.toNat * 16384 + f.b.toNat * 256 + f.q.toNat * 8 + f.s.toNat * 4 + f.p.toNat

/-- The fields of FmtV read from a word (R131). -/
def FmtV.unpack (w : Nat) : FmtV :=
  ⟨fieldOf w 6 20, fieldOf w 6 14, fieldOf w 6 8, fieldOf w 1 3, fieldOf w 1 2, fieldOf w 2 0⟩

/-- The fields of FmtV1 in their places of the word (R131). -/
def FmtV1.pack (f : FmtV1) : Nat :=
  f.d.toNat * 1048576 + f.a.toNat * 16384 + f.q.toNat * 8 + f.s.toNat * 4 + f.p.toNat

/-- The fields of FmtV1 read from a word (R131). -/
def FmtV1.unpack (w : Nat) : FmtV1 :=
  ⟨fieldOf w 6 20, fieldOf w 6 14, fieldOf w 1 3, fieldOf w 1 2, fieldOf w 2 0⟩

/-- The fields of FmtVimm in their places of the word (R131). -/
def FmtVimm.pack (f : FmtVimm) : Nat :=
  f.d.toNat * 1048576 + f.q.toNat * 8 + f.s.toNat * 4 + f.p.toNat

/-- The fields of FmtVimm read from a word (R131). -/
def FmtVimm.unpack (w : Nat) : FmtVimm :=
  ⟨fieldOf w 6 20, fieldOf w 1 3, fieldOf w 1 2, fieldOf w 2 0⟩

/-- The fields of FmtVm in their places of the word (R131). -/
def FmtVm.pack (f : FmtVm) : Nat :=
  f.d.toNat * 8388608 + f.a.toNat * 16384 + f.b.toNat * 256 + f.t.toNat * 16 + f.q.toNat * 8 + f.p.toNat

/-- The fields of FmtVm read from a word (R131). -/
def FmtVm.unpack (w : Nat) : FmtVm :=
  ⟨fieldOf w 3 23, fieldOf w 6 14, fieldOf w 6 8, fieldOf w 4 4, fieldOf w 1 3, fieldOf w 2 0⟩

/-- The fields of FmtVc in their places of the word (R131). -/
def FmtVc.pack (f : FmtVc) : Nat :=
  f.d.toNat * 1048576 + f.a.toNat * 16384 + f.s.toNat * 1024 + f.t.toNat * 64 + f.e.toNat * 8 + f.w.toNat * 4 + f.p.toNat

/-- The fields of FmtVc read from a word (R131). -/
def FmtVc.unpack (w : Nat) : FmtVc :=
  ⟨fieldOf w 6 20, fieldOf w 6 14, fieldOf w 4 10, fieldOf w 4 6, fieldOf w 3 3, fieldOf w 1 2, fieldOf w 2 0⟩

/-- The fields of FmtMk in their places of the word (R131). -/
def FmtMk.pack (f : FmtMk) : Nat :=
  f.d.toNat * 8388608 + f.a.toNat * 1048576 + f.b.toNat * 131072

/-- The fields of FmtMk read from a word (R131). -/
def FmtMk.unpack (w : Nat) : FmtMk :=
  ⟨fieldOf w 3 23, fieldOf w 3 20, fieldOf w 3 17⟩

/-- The fields of FmtMk1 in their places of the word (R131). -/
def FmtMk1.pack (f : FmtMk1) : Nat :=
  f.d.toNat * 8388608 + f.a.toNat * 1048576

/-- The fields of FmtMk1 read from a word (R131). -/
def FmtMk1.unpack (w : Nat) : FmtMk1 :=
  ⟨fieldOf w 3 23, fieldOf w 3 20⟩

/-- The fields of FmtMlds in their places of the word (R131). -/
def FmtMlds.pack (f : FmtMlds) : Nat :=
  f.d.toNat * 8388608 + f.x.toNat * 128

/-- The fields of FmtMlds read from a word (R131). -/
def FmtMlds.unpack (w : Nat) : FmtMlds :=
  ⟨fieldOf w 3 23, fieldOf w 6 7⟩

/-- The fields of FmtMx in their places of the word (R131). -/
def FmtMx.pack (f : FmtMx) : Nat :=
  f.a.toNat * 1048576 + f.x.toNat * 128

/-- The fields of FmtMx read from a word (R131). -/
def FmtMx.unpack (w : Nat) : FmtMx :=
  ⟨fieldOf w 3 20, fieldOf w 6 7⟩

/-- The fields of FmtBallot in their places of the word (R131). -/
def FmtBallot.pack (f : FmtBallot) : Nat :=
  f.d.toNat * 8388608 + f.x.toNat * 128 + f.p.toNat

/-- The fields of FmtBallot read from a word (R131). -/
def FmtBallot.unpack (w : Nat) : FmtBallot :=
  ⟨fieldOf w 3 23, fieldOf w 6 7, fieldOf w 2 0⟩

/-- The fields of FmtBscale in their places of the word (R131). -/
def FmtBscale.pack (f : FmtBscale) : Nat :=
  f.d.toNat * 1048576 + f.a.toNat * 16384 + f.f.toNat * 16 + f.q.toNat * 8 + f.s.toNat * 4 + f.p.toNat

/-- The fields of FmtBscale read from a word (R131). -/
def FmtBscale.unpack (w : Nat) : FmtBscale :=
  ⟨fieldOf w 6 20, fieldOf w 6 14, fieldOf w 2 4, fieldOf w 1 3, fieldOf w 1 2, fieldOf w 2 0⟩

/-- The fields of FmtQuant in their places of the word (R131). -/
def FmtQuant.pack (f : FmtQuant) : Nat :=
  f.d.toNat * 1048576 + f.a.toNat * 16384 + f.b.toNat * 256 + f.f.toNat * 16 + f.q.toNat * 8 + f.s.toNat * 4 + f.p.toNat

/-- The fields of FmtQuant read from a word (R131). -/
def FmtQuant.unpack (w : Nat) : FmtQuant :=
  ⟨fieldOf w 6 20, fieldOf w 6 14, fieldOf w 6 8, fieldOf w 2 4, fieldOf w 1 3, fieldOf w 1 2, fieldOf w 2 0⟩

/-- The fields of FmtVld in their places of the word (R131). -/
def FmtVld.pack (f : FmtVld) : Nat :=
  f.d.toNat * 1048576 + f.a.toNat * 16384 + f.i.toNat * 256 + f.z.toNat * 64 + f.x.toNat * 32 + f.r.toNat * 16 + f.t.toNat * 8 + f.p.toNat

/-- The fields of FmtVld read from a word (R131). -/
def FmtVld.unpack (w : Nat) : FmtVld :=
  ⟨fieldOf w 6 20, fieldOf w 6 14, fieldOf w 6 8, fieldOf w 2 6, fieldOf w 1 5, fieldOf w 1 4, fieldOf w 1 3, fieldOf w 2 0⟩

/-- The fields of FmtVst in their places of the word (R131). -/
def FmtVst.pack (f : FmtVst) : Nat :=
  f.d.toNat * 1048576 + f.a.toNat * 16384 + f.i.toNat * 256 + f.z.toNat * 64 + f.r.toNat * 16 + f.t.toNat * 8 + f.p.toNat

/-- The fields of FmtVst read from a word (R131). -/
def FmtVst.unpack (w : Nat) : FmtVst :=
  ⟨fieldOf w 6 20, fieldOf w 6 14, fieldOf w 6 8, fieldOf w 2 6, fieldOf w 1 4, fieldOf w 1 3, fieldOf w 2 0⟩

/-- The fields of FmtSld in their places of the word (R131). -/
def FmtSld.pack (f : FmtSld) : Nat :=
  f.d.toNat * 1048576 + f.a.toNat * 16384 + f.z.toNat * 4096 + f.x.toNat * 2048 + f.r.toNat * 1024 + f.o.toNat

/-- The fields of FmtSld read from a word (R131). -/
def FmtSld.unpack (w : Nat) : FmtSld :=
  ⟨fieldOf w 6 20, fieldOf w 6 14, fieldOf w 2 12, fieldOf w 1 11, fieldOf w 1 10, fieldOf w 10 0⟩

/-- The fields of FmtSst in their places of the word (R131). -/
def FmtSst.pack (f : FmtSst) : Nat :=
  f.d.toNat * 1048576 + f.a.toNat * 16384 + f.z.toNat * 4096 + f.r.toNat * 1024 + f.o.toNat

/-- The fields of FmtSst read from a word (R131). -/
def FmtSst.unpack (w : Nat) : FmtSst :=
  ⟨fieldOf w 6 20, fieldOf w 6 14, fieldOf w 2 12, fieldOf w 1 10, fieldOf w 10 0⟩

/-- The fields of FmtAt in their places of the word (R131). -/
def FmtAt.pack (f : FmtAt) : Nat :=
  f.d.toNat * 1048576 + f.a.toNat * 16384 + f.b.toNat * 256 + f.l.toNat * 8 + f.q.toNat * 4 + f.p.toNat

/-- The fields of FmtAt read from a word (R131). -/
def FmtAt.unpack (w : Nat) : FmtAt :=
  ⟨fieldOf w 6 20, fieldOf w 6 14, fieldOf w 6 8, fieldOf w 1 3, fieldOf w 1 2, fieldOf w 2 0⟩

/-- The fields of FmtAt1 in their places of the word (R131). -/
def FmtAt1.pack (f : FmtAt1) : Nat :=
  f.d.toNat * 1048576 + f.a.toNat * 16384 + f.b.toNat * 256 + f.q.toNat * 4 + f.p.toNat

/-- The fields of FmtAt1 read from a word (R131). -/
def FmtAt1.unpack (w : Nat) : FmtAt1 :=
  ⟨fieldOf w 6 20, fieldOf w 6 14, fieldOf w 6 8, fieldOf w 1 2, fieldOf w 2 0⟩

/-- The fields of FmtSat in their places of the word (R131). -/
def FmtSat.pack (f : FmtSat) : Nat :=
  f.d.toNat * 1048576 + f.a.toNat * 16384 + f.b.toNat * 256 + f.l.toNat * 8 + f.q.toNat * 4

/-- The fields of FmtSat read from a word (R131). -/
def FmtSat.unpack (w : Nat) : FmtSat :=
  ⟨fieldOf w 6 20, fieldOf w 6 14, fieldOf w 6 8, fieldOf w 1 3, fieldOf w 1 2⟩

/-- The fields of FmtSat1 in their places of the word (R131). -/
def FmtSat1.pack (f : FmtSat1) : Nat :=
  f.d.toNat * 1048576 + f.a.toNat * 16384 + f.b.toNat * 256 + f.q.toNat * 4

/-- The fields of FmtSat1 read from a word (R131). -/
def FmtSat1.unpack (w : Nat) : FmtSat1 :=
  ⟨fieldOf w 6 20, fieldOf w 6 14, fieldOf w 6 8, fieldOf w 1 2⟩

/-- The fields of FmtDa in their places of the word (R131). -/
def FmtDa.pack (f : FmtDa) : Nat :=
  f.d.toNat * 1048576 + f.a.toNat * 16384

/-- The fields of FmtDa read from a word (R131). -/
def FmtDa.unpack (w : Nat) : FmtDa :=
  ⟨fieldOf w 6 20, fieldOf w 6 14⟩

/-- The fields of FmtAb in their places of the word (R131). -/
def FmtAb.pack (f : FmtAb) : Nat :=
  f.a.toNat * 16384 + f.b.toNat * 256

/-- The fields of FmtAb read from a word (R131). -/
def FmtAb.unpack (w : Nat) : FmtAb :=
  ⟨fieldOf w 6 14, fieldOf w 6 8⟩

/-- The fields of FmtQpush in their places of the word (R131). -/
def FmtQpush.pack (f : FmtQpush) : Nat :=
  f.a.toNat * 16384 + f.b.toNat * 256 + f.p.toNat

/-- The fields of FmtQpush read from a word (R131). -/
def FmtQpush.unpack (w : Nat) : FmtQpush :=
  ⟨fieldOf w 6 14, fieldOf w 6 8, fieldOf w 2 0⟩

/-- The fields of FmtQpop in their places of the word (R131). -/
def FmtQpop.pack (f : FmtQpop) : Nat :=
  f.d.toNat * 1048576 + f.a.toNat * 16384 + f.p.toNat

/-- The fields of FmtQpop read from a word (R131). -/
def FmtQpop.unpack (w : Nat) : FmtQpop :=
  ⟨fieldOf w 6 20, fieldOf w 6 14, fieldOf w 2 0⟩

/-- The fields of FmtCpy in their places of the word (R131). -/
def FmtCpy.pack (f : FmtCpy) : Nat :=
  f.d.toNat * 1048576 + f.a.toNat * 16384 + f.b.toNat * 256 + f.z.toNat * 4 + f.p.toNat

/-- The fields of FmtCpy read from a word (R131). -/
def FmtCpy.unpack (w : Nat) : FmtCpy :=
  ⟨fieldOf w 6 20, fieldOf w 6 14, fieldOf w 6 8, fieldOf w 2 2, fieldOf w 2 0⟩

/-- The fields of FmtGath in their places of the word (R131). -/
def FmtGath.pack (f : FmtGath) : Nat :=
  f.d.toNat * 1048576 + f.a.toNat * 16384 + f.b.toNat * 256 + f.p.toNat

/-- The fields of FmtGath read from a word (R131). -/
def FmtGath.unpack (w : Nat) : FmtGath :=
  ⟨fieldOf w 6 20, fieldOf w 6 14, fieldOf w 6 8, fieldOf w 2 0⟩

/-- The fields of FmtDab in their places of the word (R131). -/
def FmtDab.pack (f : FmtDab) : Nat :=
  f.d.toNat * 1048576 + f.a.toNat * 16384 + f.b.toNat * 256

/-- The fields of FmtDab read from a word (R131). -/
def FmtDab.unpack (w : Nat) : FmtDab :=
  ⟨fieldOf w 6 20, fieldOf w 6 14, fieldOf w 6 8⟩

/-- The fields of FmtX in their places of the word (R131). -/
def FmtX.pack (f : FmtX) : Nat :=
  f.a.toNat * 1048576 + f.b.toNat * 16384 + f.c.toNat * 256 + f.s.toNat * 4

/-- The fields of FmtX read from a word (R131). -/
def FmtX.unpack (w : Nat) : FmtX :=
  ⟨fieldOf w 6 20, fieldOf w 6 14, fieldOf w 6 8, fieldOf w 6 2⟩

/-- The fields of FmtCabort in their places of the word (R131). -/
def FmtCabort.pack (f : FmtCabort) : Nat :=
  f.s.toNat * 4

/-- The fields of FmtCabort read from a word (R131). -/
def FmtCabort.unpack (w : Nat) : FmtCabort :=
  ⟨fieldOf w 6 2⟩

/-- The fields of FmtMma in their places of the word (R131). -/
def FmtMma.pack (f : FmtMma) : Nat :=
  f.c.toNat * 16777216 + f.a.toNat * 262144 + f.b.toNat * 4096 + f.x.toNat * 512 + f.y.toNat * 64 + f.q.toNat * 16 + f.p.toNat

/-- The fields of FmtMma read from a word (R131). -/
def FmtMma.unpack (w : Nat) : FmtMma :=
  ⟨fieldOf w 2 24, fieldOf w 6 18, fieldOf w 6 12, fieldOf w 3 9, fieldOf w 3 6, fieldOf w 1 4, fieldOf w 2 0⟩

/-- The fields of FmtMmat in their places of the word (R131). -/
def FmtMmat.pack (f : FmtMmat) : Nat :=
  f.c.toNat * 16777216 + f.a.toNat * 262144 + f.b.toNat * 4096 + f.q.toNat * 16 + f.p.toNat

/-- The fields of FmtMmat read from a word (R131). -/
def FmtMmat.unpack (w : Nat) : FmtMmat :=
  ⟨fieldOf w 2 24, fieldOf w 6 18, fieldOf w 6 12, fieldOf w 1 4, fieldOf w 2 0⟩

/-- The fields of FmtMzero in their places of the word (R131). -/
def FmtMzero.pack (f : FmtMzero) : Nat :=
  f.c.toNat * 1048576 + f.p.toNat

/-- The fields of FmtMzero read from a word (R131). -/
def FmtMzero.unpack (w : Nat) : FmtMzero :=
  ⟨fieldOf w 2 20, fieldOf w 2 0⟩

/-- The fields of FmtMldst in their places of the word (R131). -/
def FmtMldst.pack (f : FmtMldst) : Nat :=
  f.c.toNat * 1048576 + f.x.toNat * 16384 + f.p.toNat

/-- The fields of FmtMldst read from a word (R131). -/
def FmtMldst.unpack (w : Nat) : FmtMldst :=
  ⟨fieldOf w 2 20, fieldOf w 6 14, fieldOf w 2 0⟩

/-- The fields of FmtMrw in their places of the word (R131). -/
def FmtMrw.pack (f : FmtMrw) : Nat :=
  f.c.toNat * 1048576 + f.x.toNat * 16384 + f.y.toNat * 256 + f.p.toNat

/-- The fields of FmtMrw read from a word (R131). -/
def FmtMrw.unpack (w : Nat) : FmtMrw :=
  ⟨fieldOf w 2 20, fieldOf w 6 14, fieldOf w 6 8, fieldOf w 2 0⟩

/-- The fields of FmtMw in their places of the word (R131). -/
def FmtMw.pack (f : FmtMw) : Nat :=
  f.x.toNat * 16384

/-- The fields of FmtMw read from a word (R131). -/
def FmtMw.unpack (w : Nat) : FmtMw :=
  ⟨fieldOf w 6 14⟩

/-- The fields of FmtHlr in their places of the word (R131). -/
def FmtHlr.pack (f : FmtHlr) : Nat :=
  f.l.toNat

/-- The fields of FmtHlr read from a word (R131). -/
def FmtHlr.unpack (w : Nat) : FmtHlr :=
  ⟨fieldOf w 24 0⟩

/-- The fields of FmtHrun in their places of the word (R131). -/
def FmtHrun.pack (f : FmtHrun) : Nat :=
  f.n.toNat

/-- The fields of FmtHrun read from a word (R131). -/
def FmtHrun.unpack (w : Nat) : FmtHrun :=
  ⟨fieldOf w 3 0⟩

/-- The fields of FmtHimm in their places of the word (R131). -/
def FmtHimm.pack (f : FmtHimm) : Nat :=
  f.h.toNat * 4194304 + f.v.toNat

/-- The fields of FmtHimm read from a word (R131). -/
def FmtHimm.unpack (w : Nat) : FmtHimm :=
  ⟨fieldOf w 1 22, fieldOf w 16 0⟩

/-- The fields of FmtHmod in their places of the word (R131). -/
def FmtHmod.pack (f : FmtHmod) : Nat :=
  f.e.toNat * 4194304 + f.r.toNat * 1048576 + f.s.toNat * 524288 + f.c.toNat * 65536 + f.g.toNat * 32768 + f.k.toNat * 8192

/-- The fields of FmtHmod read from a word (R131). -/
def FmtHmod.unpack (w : Nat) : FmtHmod :=
  ⟨fieldOf w 1 22, fieldOf w 2 20, fieldOf w 1 19, fieldOf w 3 16, fieldOf w 1 15, fieldOf w 2 13⟩

/-- The fields of FmtHsig in their places of the word (R131). -/
def FmtHsig.pack (f : FmtHsig) : Nat :=
  f.s.toNat

/-- The fields of FmtHsig read from a word (R131). -/
def FmtHsig.unpack (w : Nat) : FmtHsig :=
  ⟨fieldOf w 16 0⟩

/-- The functions of major 0x01 (SALU), told apart by bits [7:3]. -/
def decodeSalu (w : Nat) : Option Instr :=
  match w / 8 % 32 with
  | 0 => some (.sadd (.unpack w))
  | 1 => some (.ssub (.unpack w))
  | 2 => some (.smul (.unpack w))
  | 3 => some (.smulhI (.unpack w))
  | 4 => some (.smulhN (.unpack w))
  | 5 => some (.sdivI (.unpack w))
  | 6 => some (.sdivN (.unpack w))
  | 7 => some (.sremI (.unpack w))
  | 8 => some (.sremN (.unpack w))
  | 9 => some (.sand (.unpack w))
  | 10 => some (.sor (.unpack w))
  | 11 => some (.sxor (.unpack w))
  | 12 => some (.sshl (.unpack w))
  | 13 => some (.sshrN (.unpack w))
  | 14 => some (.sshrI (.unpack w))
  | 15 => some (.sminI (.unpack w))
  | 16 => some (.smaxI (.unpack w))
  | 17 => some (.sminN (.unpack w))
  | 18 => some (.smaxN (.unpack w))
  | 19 => some (.sseq (.unpack w))
  | 20 => some (.ssne (.unpack w))
  | 21 => some (.ssltI (.unpack w))
  | 22 => some (.ssltN (.unpack w))
  | 23 => some (.ssleI (.unpack w))
  | 24 => some (.ssleN (.unpack w))
  | 25 => some (.smov (.unpack w))
  | 26 => some (.spopc (.unpack w))
  | 27 => some (.sclz (.unpack w))
  | _ => none

/-- The functions of major 0x02 (SALUI), told apart by bits [13:10]. -/
def decodeSalui (w : Nat) : Option Instr :=
  match w / 1024 % 16 with
  | 0 => some (.saddi (.unpack w))
  | 1 => some (.sandi (.unpack w))
  | 2 => some (.sori (.unpack w))
  | 3 => some (.sxori (.unpack w))
  | 4 => some (.sshli (.unpack w))
  | 5 => some (.sshriN (.unpack w))
  | 6 => some (.sshriI (.unpack w))
  | 7 => some (.ssltiI (.unpack w))
  | 8 => some (.ssltiN (.unpack w))
  | 9 => some (.smovi (.unpack w))
  | _ => none

/-- The functions of major 0x03 (SSPEC), told apart by bits [13:12]. -/
def decodeSspec (w : Nat) : Option Instr :=
  match w / 4096 % 4 with
  | 0 => some (.sget (.unpack w))
  | 1 => some (.sset (.unpack w))
  | 2 => some (.vget (.unpack w))
  | 3 => some (.vset (.unpack w))
  | _ => none

/-- The functions of major 0x04 (BRC), told apart by bits [19:17]. -/
def decodeBrc (w : Nat) : Option Instr :=
  match w / 131072 % 8 with
  | 0 => some (.bz (.unpack w))
  | 1 => some (.bnz (.unpack w))
  | 2 => some (.bltz (.unpack w))
  | 3 => some (.bgez (.unpack w))
  | 4 => some (.bgtz (.unpack w))
  | 5 => some (.blez (.unpack w))
  | _ => none

/-- The functions of major 0x07 (CTL), told apart by bits [25:20]. -/
def decodeCtl (w : Nat) : Option Instr :=
  match w / 1048576 % 64 with
  | 0 => some (.nop)
  | 1 => some (.ret)
  | 2 => some (.jmpi (.unpack w))
  | 3 => some (.calli (.unpack w))
  | 4 => some (.exit)
  | 5 => some (.yield)
  | 6 => some (.snap)
  | 7 => some (.trap (.unpack w))
  | 8 => some (.velse)
  | 9 => some (.vend)
  | 10 => some (.phend)
  | 11 => some (.xend)
  | 12 => some (.idemb)
  | 13 => some (.ideme)
  | 14 => some (.rdenter)
  | 15 => some (.rdexit)
  | 16 => some (.gpwait)
  | 17 => some (.fence (.unpack w))
  | 18 => some (.dlaunch (.unpack w))
  | _ => none

/-- The functions of major 0x0B (WIDTH), told apart by bits [19:18]. -/
def decodeWidth (w : Nat) : Option Instr :=
  match w / 262144 % 4 with
  | 0 => some (.gsplit (.unpack w))
  | 1 => some (.gfuse (.unpack w))
  | 2 => some (.gcompact (.unpack w))
  | _ => none

/-- The functions of major 0x0C (BAR), told apart by bits [13:11]. -/
def decodeBar (w : Nat) : Option Instr :=
  match w / 2048 % 8 with
  | 0 => some (.barb (.unpack w))
  | 2 => some (.barn (.unpack w))
  | 4 => some (.barc (.unpack w))
  | 7 => some (.blset (.unpack w))
  | 6 => some (.blclr (.unpack w))
  | _ => none

/-- The functions of major 0x10 (VF32), told apart by bits [7:4]. -/
def decodeVf32 (w : Nat) : Option Instr :=
  match w / 16 % 16 with
  | 0 => some (.vaddF32 (.unpack w))
  | 1 => some (.vsubF32 (.unpack w))
  | 2 => some (.vmulF32 (.unpack w))
  | 3 => some (.vfmaF32 (.unpack w))
  | 4 => some (.vfmsF32 (.unpack w))
  | 5 => some (.vminF32 (.unpack w))
  | 6 => some (.vmaxF32 (.unpack w))
  | 7 => some (.vdivF32 (.unpack w))
  | 8 => some (.vabsF32 (.unpack w))
  | 9 => some (.vnegF32 (.unpack w))
  | 10 => some (.vrcpF32 (.unpack w))
  | 11 => some (.vrsqF32 (.unpack w))
  | 12 => some (.vsqrtF32 (.unpack w))
  | 13 => some (.vexp2F32 (.unpack w))
  | 14 => some (.vlog2F32 (.unpack w))
  | 15 => some (.vtanhF32 (.unpack w))
  | _ => none

/-- The functions of major 0x11 (VF16), told apart by bits [7:4]. -/
def decodeVf16 (w : Nat) : Option Instr :=
  match w / 16 % 16 with
  | 0 => some (.vaddF16 (.unpack w))
  | 1 => some (.vsubF16 (.unpack w))
  | 2 => some (.vmulF16 (.unpack w))
  | 3 => some (.vfmaF16 (.unpack w))
  | 4 => some (.vfmsF16 (.unpack w))
  | 5 => some (.vminF16 (.unpack w))
  | 6 => some (.vmaxF16 (.unpack w))
  | 7 => some (.vdivF16 (.unpack w))
  | 8 => some (.vabsF16 (.unpack w))
  | 9 => some (.vnegF16 (.unpack w))
  | 10 => some (.vrcpF16 (.unpack w))
  | 11 => some (.vrsqF16 (.unpack w))
  | 12 => some (.vsqrtF16 (.unpack w))
  | 13 => some (.vexp2F16 (.unpack w))
  | 14 => some (.vlog2F16 (.unpack w))
  | 15 => some (.vtanhF16 (.unpack w))
  | _ => none

/-- The functions of major 0x12 (VBF16), told apart by bits [7:4]. -/
def decodeVbf16 (w : Nat) : Option Instr :=
  match w / 16 % 16 with
  | 0 => some (.vaddBf16 (.unpack w))
  | 1 => some (.vsubBf16 (.unpack w))
  | 2 => some (.vmulBf16 (.unpack w))
  | 3 => some (.vfmaBf16 (.unpack w))
  | 4 => some (.vfmsBf16 (.unpack w))
  | 5 => some (.vminBf16 (.unpack w))
  | 6 => some (.vmaxBf16 (.unpack w))
  | 7 => some (.vdivBf16 (.unpack w))
  | 8 => some (.vabsBf16 (.unpack w))
  | 9 => some (.vnegBf16 (.unpack w))
  | 10 => some (.vrcpBf16 (.unpack w))
  | 11 => some (.vrsqBf16 (.unpack w))
  | 12 => some (.vsqrtBf16 (.unpack w))
  | 13 => some (.vexp2Bf16 (.unpack w))
  | 14 => some (.vlog2Bf16 (.unpack w))
  | 15 => some (.vtanhBf16 (.unpack w))
  | _ => none

/-- The functions of major 0x13 (VI32), told apart by bits [7:4]. -/
def decodeVi32 (w : Nat) : Option Instr :=
  match w / 16 % 16 with
  | 0 => some (.vaddI32 (.unpack w))
  | 1 => some (.vsubI32 (.unpack w))
  | 2 => some (.vmulI32 (.unpack w))
  | 3 => some (.vmadI32 (.unpack w))
  | 4 => some (.vminI32 (.unpack w))
  | 5 => some (.vmaxI32 (.unpack w))
  | 6 => some (.vmulhI32 (.unpack w))
  | 7 => some (.vaddsI32 (.unpack w))
  | 8 => some (.vsubsI32 (.unpack w))
  | 9 => some (.vshlI32 (.unpack w))
  | 10 => some (.vshrI32 (.unpack w))
  | 11 => some (.vdivI32 (.unpack w))
  | 12 => some (.vremI32 (.unpack w))
  | 13 => some (.vabsI32 (.unpack w))
  | _ => none

/-- The functions of major 0x14 (VN32), told apart by bits [7:4]. -/
def decodeVn32 (w : Nat) : Option Instr :=
  match w / 16 % 16 with
  | 0 => some (.vaddN32 (.unpack w))
  | 1 => some (.vsubN32 (.unpack w))
  | 2 => some (.vmulN32 (.unpack w))
  | 3 => some (.vmadN32 (.unpack w))
  | 4 => some (.vminN32 (.unpack w))
  | 5 => some (.vmaxN32 (.unpack w))
  | 6 => some (.vmulhN32 (.unpack w))
  | 7 => some (.vaddsN32 (.unpack w))
  | 8 => some (.vsubsN32 (.unpack w))
  | 9 => some (.vshlN32 (.unpack w))
  | 10 => some (.vshrN32 (.unpack w))
  | 11 => some (.vdivN32 (.unpack w))
  | 12 => some (.vremN32 (.unpack w))
  | _ => none

/-- The functions of major 0x15 (VI64), told apart by bits [7:4]. -/
def decodeVi64 (w : Nat) : Option Instr :=
  match w / 16 % 16 with
  | 0 => some (.vaddI64 (.unpack w))
  | 1 => some (.vsubI64 (.unpack w))
  | 2 => some (.vminI64 (.unpack w))
  | 3 => some (.vmaxI64 (.unpack w))
  | 4 => some (.vminN64 (.unpack w))
  | 5 => some (.vmaxN64 (.unpack w))
  | 6 => some (.vshlI64 (.unpack w))
  | 7 => some (.vshrN64 (.unpack w))
  | 8 => some (.vshrI64 (.unpack w))
  | _ => none

/-- The functions of major 0x16 (VLOG), told apart by bits [7:4]. -/
def decodeVlog (w : Nat) : Option Instr :=
  match w / 16 % 16 with
  | 0 => some (.vand (.unpack w))
  | 1 => some (.vor (.unpack w))
  | 2 => some (.vxor (.unpack w))
  | 3 => some (.vandn (.unpack w))
  | 4 => some (.vnot (.unpack w))
  | 5 => some (.vmov (.unpack w))
  | 6 => some (.vbs (.unpack w))
  | 7 => some (.vimm (.unpack w))
  | 8 => some (.vsel (.unpack w))
  | 9 => some (.vpopc (.unpack w))
  | 10 => some (.vclz (.unpack w))
  | _ => none

/-- The functions of major 0x17 (VCMP), told apart by bits [22:20]. -/
def decodeVcmp (w : Nat) : Option Instr :=
  match w / 1048576 % 8 with
  | 0 => some (.vceq (.unpack w))
  | 1 => some (.vcne (.unpack w))
  | 2 => some (.vclt (.unpack w))
  | 3 => some (.vcle (.unpack w))
  | 4 => some (.vcgt (.unpack w))
  | 5 => some (.vcge (.unpack w))
  | 6 => some (.vcun (.unpack w))
  | 7 => some (.vcor (.unpack w))
  | _ => none

/-- The functions of major 0x1A (VMSK), told apart by bits [16:13]. -/
def decodeVmsk (w : Nat) : Option Instr :=
  match w / 8192 % 16 with
  | 0 => some (.mand (.unpack w))
  | 1 => some (.mor (.unpack w))
  | 2 => some (.mxor (.unpack w))
  | 3 => some (.mandn (.unpack w))
  | 4 => some (.mnot (.unpack w))
  | 5 => some (.mmov (.unpack w))
  | 6 => some (.mlds (.unpack w))
  | 7 => some (.msts (.unpack w))
  | 8 => some (.mpopc (.unpack w))
  | 9 => some (.mfirst (.unpack w))
  | 10 => some (.vballot (.unpack w))
  | _ => none

/-- The functions of major 0x1B (VX), told apart by bits [7:4]. -/
def decodeVx (w : Nat) : Option Instr :=
  match w / 16 % 16 with
  | 0 => some (.vshfl (.unpack w))
  | 1 => some (.vshfx (.unpack w))
  | 2 => some (.vrot (.unpack w))
  | 3 => some (.vbcast (.unpack w))
  | 4 => some (.vshup (.unpack w))
  | 5 => some (.vshdn (.unpack w))
  | _ => none

/-- The functions of major 0x1C (VRED), told apart by bits [7:4]. -/
def decodeVred (w : Nat) : Option Instr :=
  match w / 16 % 16 with
  | 0 => some (.vrsumF32 (.unpack w))
  | 1 => some (.vrmaxF32 (.unpack w))
  | 2 => some (.vrminF32 (.unpack w))
  | 3 => some (.vrsumI32 (.unpack w))
  | 4 => some (.vrmaxI32 (.unpack w))
  | 5 => some (.vrminI32 (.unpack w))
  | 6 => some (.vrmaxN32 (.unpack w))
  | 7 => some (.vrminN32 (.unpack w))
  | 8 => some (.vssumF32 (.unpack w))
  | 9 => some (.vssumI32 (.unpack w))
  | 10 => some (.vsmaxF32 (.unpack w))
  | 11 => some (.vsmaxI32 (.unpack w))
  | _ => none

/-- The functions of major 0x1D (VBLK), told apart by bits [7:6]. -/
def decodeVblk (w : Nat) : Option Instr :=
  match w / 64 % 4 with
  | 0 => some (.vbscale (.unpack w))
  | 1 => some (.vquant (.unpack w))
  | 2 => some (.vdeq (.unpack w))
  | _ => none

/-- The functions of major 0x24 (VATOM), told apart by bits [7:4]. -/
def decodeVatom (w : Nat) : Option Instr :=
  match w / 16 % 16 with
  | 0 => some (.vatomAdd (.unpack w))
  | 1 => some (.vatomAddF32 (.unpack w))
  | 2 => some (.vatomMinI (.unpack w))
  | 3 => some (.vatomMaxI (.unpack w))
  | 4 => some (.vatomMinN (.unpack w))
  | 5 => some (.vatomMaxN (.unpack w))
  | 6 => some (.vatomAnd (.unpack w))
  | 7 => some (.vatomOr (.unpack w))
  | 8 => some (.vatomXor (.unpack w))
  | 9 => some (.vatomXchg (.unpack w))
  | 10 => some (.vatomCas (.unpack w))
  | _ => none

/-- The functions of major 0x25 (SATOM), told apart by bits [7:4]. -/
def decodeSatom (w : Nat) : Option Instr :=
  match w / 16 % 16 with
  | 0 => some (.satomAdd (.unpack w))
  | 1 => some (.satomAddF32 (.unpack w))
  | 2 => some (.satomMinI (.unpack w))
  | 3 => some (.satomMaxI (.unpack w))
  | 4 => some (.satomMinN (.unpack w))
  | 5 => some (.satomMaxN (.unpack w))
  | 6 => some (.satomAnd (.unpack w))
  | 7 => some (.satomOr (.unpack w))
  | 8 => some (.satomXor (.unpack w))
  | 9 => some (.satomXchg (.unpack w))
  | 10 => some (.satomCas (.unpack w))
  | _ => none

/-- The functions of major 0x26 (BANK), told apart by bits [7:4]. -/
noncomputable def decodeBank (w : Nat) : Option Instr :=
  match w / 16 % 16 with
  | 0 => some (.badd (.unpack w))
  | 1 => some (.baddF32 (.unpack w))
  | 2 => some (.bminI32 (.unpack w))
  | 3 => some (.bmaxI32 (.unpack w))
  | 4 => some (.bminN32 (.unpack w))
  | 5 => some (.bmaxN32 (.unpack w))
  | 6 => some (.binc (.unpack w))
  | 7 => some (.bmaxp (.unpack w))
  | 8 => some (.bxchg (.unpack w))
  | 9 => some (.bcas (.unpack w))
  | 10 => some (.bor (.unpack w))
  | 11 => some (.band (.unpack w))
  | _ => none

/-- The functions of major 0x27 (SPM), told apart by bits [7:3]. -/
noncomputable def decodeSpm (w : Nat) : Option Instr :=
  match w / 8 % 32 with
  | 0 => some (.tagld (.unpack w))
  | 1 => some (.tagst (.unpack w))
  | 2 => some (.sete (.unpack w))
  | 3 => some (.setf (.unpack w))
  | 4 => some (.qpush (.unpack w))
  | 5 => some (.qpop (.unpack w))
  | _ => none

/-- The functions of major 0x28 (ENG), told apart by bits [7:4]. -/
noncomputable def decodeEng (w : Nat) : Option Instr :=
  match w / 16 % 16 with
  | 0 => some (.cpy (.unpack w))
  | 1 => some (.gath (.unpack w))
  | 2 => some (.scat (.unpack w))
  | 3 => some (.pfd (.unpack w))
  | 4 => some (.fwait (.unpack w))
  | 5 => some (.ftest (.unpack w))
  | 6 => some (.fcancel (.unpack w))
  | 7 => some (.fpass (.unpack w))
  | _ => none

/-- The functions of major 0x29 (RCU), told apart by bits [7:3]. -/
noncomputable def decodeRcu (w : Nat) : Option Instr :=
  match w / 8 % 32 with
  | 0 => some (.pub (.unpack w))
  | 1 => some (.retire (.unpack w))
  | 2 => some (.poola (.unpack w))
  | 3 => some (.poolf (.unpack w))
  | _ => none

/-- The functions of major 0x2A (XFR), told apart by bits [1:0]. -/
noncomputable def decodeXfr (w : Nat) : Option Instr :=
  match w / 1 % 4 with
  | 0 => some (.xput (.unpack w))
  | 1 => some (.xget (.unpack w))
  | 2 => some (.coll (.unpack w))
  | 3 => some (.cabort (.unpack w))
  | _ => none

/-- The functions of major 0x34 (MACC), told apart by bits [25:22]. -/
noncomputable def decodeMacc (w : Nat) : Option Instr :=
  match w / 4194304 % 16 with
  | 0 => some (.mzero (.unpack w))
  | 1 => some (.mld (.unpack w))
  | 2 => some (.mst (.unpack w))
  | 3 => some (.mrd (.unpack w))
  | 4 => some (.mwr (.unpack w))
  | 5 => some (.mfence (.unpack w))
  | 6 => some (.mwait (.unpack w))
  | 7 => some (.mstat (.unpack w))
  | _ => none

/-- The functions of major 0x3F (HINT), told apart by bits [25:23]. -/
noncomputable def decodeHint (w : Nat) : Option Instr :=
  match w / 8388608 % 8 with
  | 0 => some (.hrun (.unpack w))
  | 1 => some (.himm (.unpack w))
  | 2 => some (.hmod (.unpack w))
  | 3 => some (.hsig (.unpack w))
  | _ => none

/-- The instruction that the major (R140) and the function field (R141 to R145) of a word name, before its fixed
fields are tested. -/
noncomputable def decodeRow (w : Nat) : Except DecodeError Instr :=
  match w / 67108864 with
  | 1 => orReserved (decodeSalu w)
  | 2 => orReserved (decodeSalui w)
  | 3 => orReserved (decodeSspec w)
  | 4 => orReserved (decodeBrc w)
  | 5 => .ok (.jmp (.unpack w))
  | 6 => .ok (.call (.unpack w))
  | 7 => orReserved (decodeCtl w)
  | 8 => .ok (.vif (.unpack w))
  | 9 => .ok (.vloop (.unpack w))
  | 10 => .ok (.vwhile (.unpack w))
  | 11 => orReserved (decodeWidth w)
  | 12 => orReserved (decodeBar w)
  | 16 => orReserved (decodeVf32 w)
  | 17 => orReserved (decodeVf16 w)
  | 18 => orReserved (decodeVbf16 w)
  | 19 => orReserved (decodeVi32 w)
  | 20 => orReserved (decodeVn32 w)
  | 21 => orReserved (decodeVi64 w)
  | 22 => orReserved (decodeVlog w)
  | 23 => orReserved (decodeVcmp w)
  | 24 => .ok (.vcvt (.unpack w))
  | 25 => .ok (.vcvtq (.unpack w))
  | 26 => orReserved (decodeVmsk w)
  | 27 => orReserved (decodeVx w)
  | 28 => orReserved (decodeVred w)
  | 29 => orReserved (decodeVblk w)
  | 32 => .ok (.vld (.unpack w))
  | 33 => .ok (.vst (.unpack w))
  | 34 => .ok (.sld (.unpack w))
  | 35 => .ok (.sst (.unpack w))
  | 36 => orReserved (decodeVatom w)
  | 37 => orReserved (decodeSatom w)
  | 38 => orReserved (decodeBank w)
  | 39 => orReserved (decodeSpm w)
  | 40 => orReserved (decodeEng w)
  | 41 => orReserved (decodeRcu w)
  | 42 => orReserved (decodeXfr w)
  | 48 => .ok (.mma (.unpack w))
  | 49 => .ok (.mmas (.unpack w))
  | 50 => .ok (.mmat (.unpack w))
  | 51 => .ok (.mmax (.unpack w))
  | 52 => orReserved (decodeMacc w)
  | 62 => .ok (.hlr (.unpack w))
  | 63 => orReserved (decodeHint w)
  | _ => .error .undefinedMajor

/-- The word of an encoded instruction: the fixed bits of its row and its fields (R131, R140 to R145). An event has
no word, and 0 stands for it; 0 is an undefined word (R140). -/
def Instr.encodeNat (i : Instr) : Nat :=
  match i with
  | .sadd f => 0x04000000 + f.pack
  | .ssub f => 0x04000008 + f.pack
  | .smul f => 0x04000010 + f.pack
  | .smulhI f => 0x04000018 + f.pack
  | .smulhN f => 0x04000020 + f.pack
  | .sdivI f => 0x04000028 + f.pack
  | .sdivN f => 0x04000030 + f.pack
  | .sremI f => 0x04000038 + f.pack
  | .sremN f => 0x04000040 + f.pack
  | .sand f => 0x04000048 + f.pack
  | .sor f => 0x04000050 + f.pack
  | .sxor f => 0x04000058 + f.pack
  | .sshl f => 0x04000060 + f.pack
  | .sshrN f => 0x04000068 + f.pack
  | .sshrI f => 0x04000070 + f.pack
  | .sminI f => 0x04000078 + f.pack
  | .smaxI f => 0x04000080 + f.pack
  | .sminN f => 0x04000088 + f.pack
  | .smaxN f => 0x04000090 + f.pack
  | .sseq f => 0x04000098 + f.pack
  | .ssne f => 0x040000a0 + f.pack
  | .ssltI f => 0x040000a8 + f.pack
  | .ssltN f => 0x040000b0 + f.pack
  | .ssleI f => 0x040000b8 + f.pack
  | .ssleN f => 0x040000c0 + f.pack
  | .smov f => 0x040000c8 + f.pack
  | .spopc f => 0x040000d0 + f.pack
  | .sclz f => 0x040000d8 + f.pack
  | .saddi f => 0x08000000 + f.pack
  | .sandi f => 0x08000400 + f.pack
  | .sori f => 0x08000800 + f.pack
  | .sxori f => 0x08000c00 + f.pack
  | .sshli f => 0x08001000 + f.pack
  | .sshriN f => 0x08001400 + f.pack
  | .sshriI f => 0x08001800 + f.pack
  | .ssltiI f => 0x08001c00 + f.pack
  | .ssltiN f => 0x08002000 + f.pack
  | .smovi f => 0x08002400 + f.pack
  | .sget f => 0x0c000000 + f.pack
  | .sset f => 0x0c001000 + f.pack
  | .vget f => 0x0c002000 + f.pack
  | .vset f => 0x0c003000 + f.pack
  | .bz f => 0x10000000 + f.pack
  | .bnz f => 0x10020000 + f.pack
  | .bltz f => 0x10040000 + f.pack
  | .bgez f => 0x10060000 + f.pack
  | .bgtz f => 0x10080000 + f.pack
  | .blez f => 0x100a0000 + f.pack
  | .jmp f => 0x14000000 + f.pack
  | .call f => 0x18000000 + f.pack
  | .nop => 0x1c000000
  | .ret => 0x1c100000
  | .jmpi f => 0x1c200000 + f.pack
  | .calli f => 0x1c300000 + f.pack
  | .exit => 0x1c400000
  | .yield => 0x1c500000
  | .snap => 0x1c600000
  | .trap f => 0x1c700000 + f.pack
  | .velse => 0x1c800000
  | .vend => 0x1c900000
  | .phend => 0x1ca00000
  | .xend => 0x1cb00000
  | .idemb => 0x1cc00000
  | .ideme => 0x1cd00000
  | .rdenter => 0x1ce00000
  | .rdexit => 0x1cf00000
  | .gpwait => 0x1d000000
  | .fence f => 0x1d100000 + f.pack
  | .dlaunch f => 0x1d200000 + f.pack
  | .vif f => 0x20000000 + f.pack
  | .vloop f => 0x24000000 + f.pack
  | .vwhile f => 0x28000000 + f.pack
  | .gsplit f => 0x2c000000 + f.pack
  | .gfuse f => 0x2c040000 + f.pack
  | .gcompact f => 0x2c080000 + f.pack
  | .barb f => 0x30000000 + f.pack
  | .barn f => 0x30001000 + f.pack
  | .barc f => 0x30002000 + f.pack
  | .blset f => 0x30003800 + f.pack
  | .blclr f => 0x30003000 + f.pack
  | .vaddF32 f => 0x40000000 + f.pack
  | .vsubF32 f => 0x40000010 + f.pack
  | .vmulF32 f => 0x40000020 + f.pack
  | .vfmaF32 f => 0x40000030 + f.pack
  | .vfmsF32 f => 0x40000040 + f.pack
  | .vminF32 f => 0x40000050 + f.pack
  | .vmaxF32 f => 0x40000060 + f.pack
  | .vdivF32 f => 0x40000070 + f.pack
  | .vabsF32 f => 0x40000080 + f.pack
  | .vnegF32 f => 0x40000090 + f.pack
  | .vrcpF32 f => 0x400000a0 + f.pack
  | .vrsqF32 f => 0x400000b0 + f.pack
  | .vsqrtF32 f => 0x400000c0 + f.pack
  | .vexp2F32 f => 0x400000d0 + f.pack
  | .vlog2F32 f => 0x400000e0 + f.pack
  | .vtanhF32 f => 0x400000f0 + f.pack
  | .vaddF16 f => 0x44000000 + f.pack
  | .vsubF16 f => 0x44000010 + f.pack
  | .vmulF16 f => 0x44000020 + f.pack
  | .vfmaF16 f => 0x44000030 + f.pack
  | .vfmsF16 f => 0x44000040 + f.pack
  | .vminF16 f => 0x44000050 + f.pack
  | .vmaxF16 f => 0x44000060 + f.pack
  | .vdivF16 f => 0x44000070 + f.pack
  | .vabsF16 f => 0x44000080 + f.pack
  | .vnegF16 f => 0x44000090 + f.pack
  | .vrcpF16 f => 0x440000a0 + f.pack
  | .vrsqF16 f => 0x440000b0 + f.pack
  | .vsqrtF16 f => 0x440000c0 + f.pack
  | .vexp2F16 f => 0x440000d0 + f.pack
  | .vlog2F16 f => 0x440000e0 + f.pack
  | .vtanhF16 f => 0x440000f0 + f.pack
  | .vaddBf16 f => 0x48000000 + f.pack
  | .vsubBf16 f => 0x48000010 + f.pack
  | .vmulBf16 f => 0x48000020 + f.pack
  | .vfmaBf16 f => 0x48000030 + f.pack
  | .vfmsBf16 f => 0x48000040 + f.pack
  | .vminBf16 f => 0x48000050 + f.pack
  | .vmaxBf16 f => 0x48000060 + f.pack
  | .vdivBf16 f => 0x48000070 + f.pack
  | .vabsBf16 f => 0x48000080 + f.pack
  | .vnegBf16 f => 0x48000090 + f.pack
  | .vrcpBf16 f => 0x480000a0 + f.pack
  | .vrsqBf16 f => 0x480000b0 + f.pack
  | .vsqrtBf16 f => 0x480000c0 + f.pack
  | .vexp2Bf16 f => 0x480000d0 + f.pack
  | .vlog2Bf16 f => 0x480000e0 + f.pack
  | .vtanhBf16 f => 0x480000f0 + f.pack
  | .vaddI32 f => 0x4c000000 + f.pack
  | .vsubI32 f => 0x4c000010 + f.pack
  | .vmulI32 f => 0x4c000020 + f.pack
  | .vmadI32 f => 0x4c000030 + f.pack
  | .vminI32 f => 0x4c000040 + f.pack
  | .vmaxI32 f => 0x4c000050 + f.pack
  | .vmulhI32 f => 0x4c000060 + f.pack
  | .vaddsI32 f => 0x4c000070 + f.pack
  | .vsubsI32 f => 0x4c000080 + f.pack
  | .vshlI32 f => 0x4c000090 + f.pack
  | .vshrI32 f => 0x4c0000a0 + f.pack
  | .vdivI32 f => 0x4c0000b0 + f.pack
  | .vremI32 f => 0x4c0000c0 + f.pack
  | .vabsI32 f => 0x4c0000d0 + f.pack
  | .vaddN32 f => 0x50000000 + f.pack
  | .vsubN32 f => 0x50000010 + f.pack
  | .vmulN32 f => 0x50000020 + f.pack
  | .vmadN32 f => 0x50000030 + f.pack
  | .vminN32 f => 0x50000040 + f.pack
  | .vmaxN32 f => 0x50000050 + f.pack
  | .vmulhN32 f => 0x50000060 + f.pack
  | .vaddsN32 f => 0x50000070 + f.pack
  | .vsubsN32 f => 0x50000080 + f.pack
  | .vshlN32 f => 0x50000090 + f.pack
  | .vshrN32 f => 0x500000a0 + f.pack
  | .vdivN32 f => 0x500000b0 + f.pack
  | .vremN32 f => 0x500000c0 + f.pack
  | .vaddI64 f => 0x54000000 + f.pack
  | .vsubI64 f => 0x54000010 + f.pack
  | .vminI64 f => 0x54000020 + f.pack
  | .vmaxI64 f => 0x54000030 + f.pack
  | .vminN64 f => 0x54000040 + f.pack
  | .vmaxN64 f => 0x54000050 + f.pack
  | .vshlI64 f => 0x54000060 + f.pack
  | .vshrN64 f => 0x54000070 + f.pack
  | .vshrI64 f => 0x54000080 + f.pack
  | .vand f => 0x58000000 + f.pack
  | .vor f => 0x58000010 + f.pack
  | .vxor f => 0x58000020 + f.pack
  | .vandn f => 0x58000030 + f.pack
  | .vnot f => 0x58000040 + f.pack
  | .vmov f => 0x58000050 + f.pack
  | .vbs f => 0x58000060 + f.pack
  | .vimm f => 0x58000070 + f.pack
  | .vsel f => 0x58000080 + f.pack
  | .vpopc f => 0x58000090 + f.pack
  | .vclz f => 0x580000a0 + f.pack
  | .vceq f => 0x5c000000 + f.pack
  | .vcne f => 0x5c100000 + f.pack
  | .vclt f => 0x5c200000 + f.pack
  | .vcle f => 0x5c300000 + f.pack
  | .vcgt f => 0x5c400000 + f.pack
  | .vcge f => 0x5c500000 + f.pack
  | .vcun f => 0x5c600000 + f.pack
  | .vcor f => 0x5c700000 + f.pack
  | .vcvt f => 0x60000000 + f.pack
  | .vcvtq f => 0x64000000 + f.pack
  | .mand f => 0x68000000 + f.pack
  | .mor f => 0x68002000 + f.pack
  | .mxor f => 0x68004000 + f.pack
  | .mandn f => 0x68006000 + f.pack
  | .mnot f => 0x68008000 + f.pack
  | .mmov f => 0x6800a000 + f.pack
  | .mlds f => 0x6800c000 + f.pack
  | .msts f => 0x6800e000 + f.pack
  | .mpopc f => 0x68010000 + f.pack
  | .mfirst f => 0x68012000 + f.pack
  | .vballot f => 0x68014000 + f.pack
  | .vshfl f => 0x6c000000 + f.pack
  | .vshfx f => 0x6c000010 + f.pack
  | .vrot f => 0x6c000020 + f.pack
  | .vbcast f => 0x6c000030 + f.pack
  | .vshup f => 0x6c000040 + f.pack
  | .vshdn f => 0x6c000050 + f.pack
  | .vrsumF32 f => 0x70000000 + f.pack
  | .vrmaxF32 f => 0x70000010 + f.pack
  | .vrminF32 f => 0x70000020 + f.pack
  | .vrsumI32 f => 0x70000030 + f.pack
  | .vrmaxI32 f => 0x70000040 + f.pack
  | .vrminI32 f => 0x70000050 + f.pack
  | .vrmaxN32 f => 0x70000060 + f.pack
  | .vrminN32 f => 0x70000070 + f.pack
  | .vssumF32 f => 0x70000080 + f.pack
  | .vssumI32 f => 0x70000090 + f.pack
  | .vsmaxF32 f => 0x700000a0 + f.pack
  | .vsmaxI32 f => 0x700000b0 + f.pack
  | .vbscale f => 0x74000000 + f.pack
  | .vquant f => 0x74000040 + f.pack
  | .vdeq f => 0x74000080 + f.pack
  | .vld f => 0x80000000 + f.pack
  | .vst f => 0x84000000 + f.pack
  | .sld f => 0x88000000 + f.pack
  | .sst f => 0x8c000000 + f.pack
  | .vatomAdd f => 0x90000000 + f.pack
  | .vatomAddF32 f => 0x90000010 + f.pack
  | .vatomMinI f => 0x90000020 + f.pack
  | .vatomMaxI f => 0x90000030 + f.pack
  | .vatomMinN f => 0x90000040 + f.pack
  | .vatomMaxN f => 0x90000050 + f.pack
  | .vatomAnd f => 0x90000060 + f.pack
  | .vatomOr f => 0x90000070 + f.pack
  | .vatomXor f => 0x90000080 + f.pack
  | .vatomXchg f => 0x90000090 + f.pack
  | .vatomCas f => 0x900000a0 + f.pack
  | .satomAdd f => 0x94000000 + f.pack
  | .satomAddF32 f => 0x94000010 + f.pack
  | .satomMinI f => 0x94000020 + f.pack
  | .satomMaxI f => 0x94000030 + f.pack
  | .satomMinN f => 0x94000040 + f.pack
  | .satomMaxN f => 0x94000050 + f.pack
  | .satomAnd f => 0x94000060 + f.pack
  | .satomOr f => 0x94000070 + f.pack
  | .satomXor f => 0x94000080 + f.pack
  | .satomXchg f => 0x94000090 + f.pack
  | .satomCas f => 0x940000a0 + f.pack
  | .badd f => 0x98000000 + f.pack
  | .baddF32 f => 0x98000010 + f.pack
  | .bminI32 f => 0x98000020 + f.pack
  | .bmaxI32 f => 0x98000030 + f.pack
  | .bminN32 f => 0x98000040 + f.pack
  | .bmaxN32 f => 0x98000050 + f.pack
  | .binc f => 0x98000060 + f.pack
  | .bmaxp f => 0x98000078 + f.pack
  | .bxchg f => 0x98000080 + f.pack
  | .bcas f => 0x98000090 + f.pack
  | .bor f => 0x980000a0 + f.pack
  | .band f => 0x980000b0 + f.pack
  | .tagld f => 0x9c000000 + f.pack
  | .tagst f => 0x9c000008 + f.pack
  | .sete f => 0x9c000010 + f.pack
  | .setf f => 0x9c000018 + f.pack
  | .qpush f => 0x9c000020 + f.pack
  | .qpop f => 0x9c000028 + f.pack
  | .cpy f => 0xa0000000 + f.pack
  | .gath f => 0xa0000010 + f.pack
  | .scat f => 0xa0000020 + f.pack
  | .pfd f => 0xa0000030 + f.pack
  | .fwait f => 0xa0000040 + f.pack
  | .ftest f => 0xa0000050 + f.pack
  | .fcancel f => 0xa0000060 + f.pack
  | .fpass f => 0xa0000070 + f.pack
  | .pub f => 0xa4000000 + f.pack
  | .retire f => 0xa4000008 + f.pack
  | .poola f => 0xa4000010 + f.pack
  | .poolf f => 0xa4000018 + f.pack
  | .xput f => 0xa8000000 + f.pack
  | .xget f => 0xa8000001 + f.pack
  | .coll f => 0xa8000002 + f.pack
  | .cabort f => 0xa8000003 + f.pack
  | .mma f => 0xc0000000 + f.pack
  | .mmas f => 0xc4000000 + f.pack
  | .mmat f => 0xc8000000 + f.pack
  | .mmax f => 0xcc000000 + f.pack
  | .mzero f => 0xd0000000 + f.pack
  | .mld f => 0xd0400000 + f.pack
  | .mst f => 0xd0800000 + f.pack
  | .mrd f => 0xd0c00000 + f.pack
  | .mwr f => 0xd1000000 + f.pack
  | .mfence f => 0xd1400000 + f.pack
  | .mwait f => 0xd1800000 + f.pack
  | .mstat f => 0xd1c00000 + f.pack
  | .hlr f => 0xf8000000 + f.pack
  | .hrun f => 0xfc000000 + f.pack
  | .himm f => 0xfc800000 + f.pack
  | .hmod f => 0xfd000000 + f.pack
  | .hsig f => 0xfd800000 + f.pack
  | .weightRecomputation _ => 0
  | .starvationGuard _ => 0
  | .waveToken _ => 0
  | .coreArrival _ => 0
  | .boundaryCompletion => 0
  | .release _ => 0
  | .boundaryRequest _ => 0
  | .stragglerExpiry _ => 0
  | .stragglerKill _ => 0
  | .clusterDispatch _ => 0
  | .compactionExchange _ => 0
  | .starvationResolution _ => 0
  | .memberEviction _ => 0
  | .evictionResume _ => 0
  | .loadCompletion _ => 0
  | .atomicCompletion _ => 0
  | .variableLatencyResult _ => 0
  | .pageTableWalk _ _ => 0
  | .cxmInval _ _ => 0
  | .invalidationComplete _ => 0
  | .cxmResume _ _ => 0
  | .engineElement _ _ => 0
  | .engineCompletion _ => 0
  | .pfdLineIssue _ => 0
  | .pfdBudgetWindow _ => 0
  | .mirrorLinePass => 0
  | .mirrorSlotPass => 0
  | .gracePeriodStart => 0
  | .parityFlip _ => 0
  | .gracePeriodEnd => 0
  | .xferCompletion _ => 0
  | .collectiveCompletion _ => 0
  | .collectiveIngress _ => 0
  | .matrixOperationCompletion _ => 0
  | .selfTest _ _ _ _ => 0
  | .dlaunchAnswer _ => 0
  | .workgroupEnd _ => 0
  | .asyncTrapDelivery _ => 0
  | .softError _ => 0
  | .dieLost _ => 0
  | .firmwareRound => 0
  | .gridCompletion _ _ => 0
  | .doorbell _ _ => 0
  | .queueEnable _ _ => 0
  | .queueDisable _ _ => 0
  | .clr _ => 0
  | .peerWrite _ => 0
  | .contextCreate _ _ => 0
  | .contextFree _ _ => 0
  | .preemptionRequest _ _ => 0
  | .drainPeriod _ => 0
  | .poolCfg _ _ _ _ => 0
  | .mxctlFence _ _ => 0
  | .retest _ _ => 0
  | .reset _ => 0
  | .dieAuthentication _ _ => 0
  | .spdmRequest => 0
  | .d3hot => 0
  | .d3cold => 0
  | .d0Return _ => 0
  | .throttle _ _ => 0
  | .trig => 0
  | .snapshotLatch _ => 0
  | .rbsel _ _ => 0
  | .registerWrite _ _ _ => 0
  | .hostWrite _ _ => 0
  | .storeAcknowledged _ => 0

/-- The instruction that a 32-bit word encodes (R129 to R146). The word is accepted only when the instruction's own
encoding is the word, so every reserved and every unused field is zero. -/
noncomputable def decodeWord (w : Word) : Except DecodeError Instr :=
  match decodeRow w.toNat with
  | .ok i => if i.encodeNat = w.toNat then .ok i else .error .reservedField
  | .error e => .error e

/-- Whether the row has an encoding; the others are events of the package or of the host. -/
def Instr.hasWord (i : Instr) : Bool := i.encodeNat != 0

/-- The words of an instruction: one for a row with an encoding, none for an event. -/
def encode (i : Instr) : List Word :=
  if i.hasWord then [BitVec.ofNat 32 i.encodeNat] else []

/-- The four bytes of a word, lowest address first (R3). -/
def wordBytes (w : Nat) : List Byte :=
  [BitVec.ofNat 8 w, BitVec.ofNat 8 (w / 256), BitVec.ofNat 8 (w / 65536), BitVec.ofNat 8 (w / 16777216)]

/-- Decoding of the bytes at the program counter: four bytes, little-endian (R3, R129). Total on any bytes. -/
noncomputable def decodeBytes (bs : List Byte) : Except DecodeError Instr :=
  match bs with
  | [a, b, c, d] => decodeWord (BitVec.ofNat 32 (a.toNat + 256 * b.toNat + 65536 * c.toNat + 16777216 * d.toNat))
  | _ => .error .wrongLength

/-- The instruction the decoder reads from an instruction whose bits, numbered as the opcode table numbers them, are `w`.
An instruction is one word, so the bits above bit 31 stand for no word of it. -/
noncomputable def decodeTableWord (nbits w : Nat) : Option Instr :=
  match decodeBytes (wordBytes (w % 2 ^ nbits)) with
  | .ok i => some i
  | .error _ => none

end Sys2Proof
end

