-- ==== Sys2Proof/Machine/Fmap.lean ====
section
/-! DEFINITION. Finite maps from numbers, as lists of pairs in rising order of key: the one representation of every
sparse collection of the state. A collection with a default value lists no key that holds it (`put`), so equal
collections are equal lists. -/

namespace Sys2Proof

/-- A finite map from numbers: pairs of a key and a value, keys rising. -/
abbrev Fmap (α : Type) := List (Nat × α)

/-- The value at key `k`, if listed. -/
def Fmap.find {α : Type} (m : Fmap α) (k : Nat) : Option α :=
  match m with
  | [] => none
  | (k', v) :: t => if k' = k then some v else Fmap.find t k

/-- The value at key `k`, or `d` when the key is not listed. -/
def Fmap.get {α : Type} (d : α) (m : Fmap α) (k : Nat) : α := (Fmap.find m k).getD d

/-- The map with `v` at key `k`. -/
def Fmap.insert {α : Type} (m : Fmap α) (k : Nat) (v : α) : Fmap α :=
  match m with
  | [] => [(k, v)]
  | (k', v') :: t => if k < k' then (k, v) :: (k', v') :: t else if k = k' then (k, v) :: t else (k', v') :: Fmap.insert t k v

/-- The map without key `k`. -/
def Fmap.erase {α : Type} (m : Fmap α) (k : Nat) : Fmap α := m.filter (fun p => p.1 != k)

/-- The map with `v` at key `k`, where a key that is not listed holds `d`. -/
def Fmap.put {α : Type} [DecidableEq α] (d : α) (m : Fmap α) (k : Nat) (v : α) : Fmap α :=
  if v = d then Fmap.erase m k else Fmap.insert m k v

/-- The map with the value at `k` changed by `f`, where `k` is listed; otherwise the map itself. -/
def Fmap.adjust {α : Type} (m : Fmap α) (k : Nat) (f : α → α) : Fmap α :=
  match m with
  | [] => []
  | (k', v) :: t => if k' = k then (k', f v) :: t else (k', v) :: Fmap.adjust t k f

/-- Every value changed by `f`. -/
def Fmap.mapVals {α β : Type} (f : Nat → α → β) (m : Fmap α) : Fmap β := m.map (fun p => (p.1, f p.1 p.2))

/-- The keys, in order. -/
def Fmap.keys {α : Type} (m : Fmap α) : List Nat := m.map (·.1)

/-- The values, in order of key. -/
def Fmap.vals {α : Type} (m : Fmap α) : List α := m.map (·.2)

/-- The pairs that meet `p`. -/
def Fmap.select {α : Type} (m : Fmap α) (p : Nat → α → Bool) : Fmap α := m.filter (fun x => p x.1 x.2)

/-- Every key is greater than `b` and the keys rise. -/
def Fmap.risingFrom {α : Type} (b : Nat) (m : Fmap α) : Bool :=
  match m with
  | [] => true
  | (k, _) :: t => b < k + 1 && Fmap.risingFrom (k + 1) t

/-- The canonical form: keys strictly rising and no value equal to what an unlisted key holds. -/
def Fmap.wf {α : Type} [DecidableEq α] (d : α) (m : Fmap α) : Bool :=
  Fmap.risingFrom 0 m && m.all (fun p => p.2 != d)

end Sys2Proof
end

