-- ==== Sys2Proof/Machine/State.lean ====
section
/-! DEFINITION. The state of the VZ-40 package: every piece of state that the spec gives the machine, as plain data, and
the state right after reset. Collections of a fixed number of like things (cores, contexts, queues, nodes) are finite maps
whose unlisted members hold the reset value; collections of things that come and go (groups, operations in flight) list
those that exist. -/

namespace Sys2Proof.Machine

/-! ### Reasons to stop -/

/-- Why a step stops with a fault. -/
inductive Fault where
  /-- Raised by HOST_WRITE at a physical address that R86 says is not memory (device registers, the reserved kind, or an
  offset at or beyond the size of its kind). Safe: the model goes no further than the spec. -/
  | noSuchMemory
deriving DecidableEq, Repr

/-- Why a step is refused. -/
inductive Refusal where
  /-- Raised by an arm of `exec` for an instruction that has no meaning yet. Safe. -/
  | notModelled (mnemonic : String)
deriving DecidableEq, Repr

/-! ### Traps and widths of access -/

/-- The traps of R302. -/
inductive Trap where
  | illegalOp | phaseIllegal | latchStale | returnStack | maskStack | widthState | idemRegion | readerSection
  | misaligned | scratchRange | peerExited | barrierLine | barrierMembership | barrierOrphan | rootSlot | bankTarget
  | queue | engineOperand | rcuOperand | xferBound | matrixOperand | matrixFenced | race | silentError | user
  | straggler | dieLost
deriving DecidableEq, Repr

/-- The causes of a translation fault (R92). -/
inductive Cause where
  | noncanon | notmapped | malformed | permission
deriving DecidableEq, Repr

/-! ### A group -/

/-- A slice held by a quarter of a vector name or of a tile column: its number in the core's pool, its eight lanes (R54),
the lanes whose element holds an uncorrectable error (R312), and the last load of its group when it was written, which is the
last that its values can depend on (R113). -/
structure Slice where
  id : Nat
  val : List Word
  bad : Byte
  dep : Nat
deriving DecidableEq, Repr

/-- A scalar entry: its number in the core's pool, its value, the engine operation that the name is bound to (R234), whether it
holds an uncorrectable error (R312), and the last load of its group when it was written (R113). -/
structure Entry where
  id : Nat
  val : Word
  fut : Option Nat
  bad : Bool
  dep : Nat
deriving DecidableEq, Repr

/-- A latch of a chain: whether it is valid, the operation whose result it awaits, and its lanes; a scalar latch has one
(R65). -/
structure Latch where
  valid : Bool
  wait : Option Nat
  val : List Word
deriving DecidableEq, Repr

/-- An entry of the mask stack (R15, R166). -/
structure MaskEntry where
  resume : Dword
  mask : Mask
  recon : Dword
deriving DecidableEq, Repr

/-- The entry state of an idempotent region and its pinned mappings (R59, R181). -/
structure Region where
  restart : Dword
  regionEnd : Dword
  msDepth : Nat
  rsDepth : Nat
  m : Fmap Mask
  flags : Fmap (BitVec 6)
  rdDepth : Nat
  rdPar : Bool
  sig : Word
  v : Fmap Slice
  s : Fmap Entry
deriving DecidableEq, Repr

/-- What a waiting group waits for (R29). -/
inductive WaitKind where
  /-- A barrier word at memory location `loc`, to whose count the group added `lanes` (R177); `cluster` for BARC. -/
  | barrier (loc lanes : Nat) (block cluster : Bool)
  /-- A GFUSE into width `target` (R20). -/
  | fuse (target : Nat) (d : BitVec 6)
  /-- A GCOMPACT (R21). -/
  | compact (d : BitVec 6)
  | phend
  | xend
  /-- GPWAIT, issued while the root had completed `p` boundaries (R125). -/
  | gpwait (p : Nat)
  /-- QPUSH at the queue line at location `loc`, in its order of arrival, with the values to push (R233). -/
  | qpush (loc : Nat) (turn : Nat) (vals : List Word)
  /-- QPOP at the queue line at location `loc`: the lanes to fill (R233). -/
  | qpop (loc : Nat) (turn : Nat) (d : BitVec 6) (mask : Mask)
deriving DecidableEq, Repr

/-- A wait of a group: what for, and the instruction that waits, whose effects on the signature, the program counter and
the registers read for the last time (file, 0 scalar or 1 vector, and number) come at the end of the wait (R58, R174,
R178, R317). -/
structure Wait where
  kind : WaitKind
  word : Nat
  exec : Mask
  frees : List (Nat × Nat)
deriving DecidableEq, Repr

/-- Why the group at its last attempt could not issue (R29). -/
inductive Stall where
  /-- The register pool has no room for `nv` slices and `ns` entries (R62). -/
  | pool (nv ns : Nat)
  /-- A scratchpad line is empty (R104). -/
  | line
  /-- A future or another result is not there yet (R57, R235). -/
  | result
  /-- A page-table walk is under way, or the miss queue is full (R93). -/
  | walk
  /-- A limit on operations in flight is reached (R104, R234, R267). -/
  | limit
  /-- Earlier stores are not acknowledged yet (R102). -/
  | order
deriving DecidableEq, Repr

/-- The hints of the open bundle (R134): its first word's address, the HIMM words and the HMOD word reached so far. -/
structure Bundle where
  start : Dword
  himmHi : Option (BitVec 16)
  himm : Option Word
  hmod : Option FmtHmod
deriving DecidableEq, Repr

/-- A closed batch of matrix operations (R268). -/
structure Batch where
  n : Word
  status : Word
  done : Bool
deriving DecidableEq, Repr

/-- What a compacting holder holds (R21): the level, the parked partner, and the moved lanes as pairs of a lane of the
partner and the holder's lane it went to. -/
structure Compaction where
  level : Nat
  partner : Nat
  moves : List (Nat × Nat)
deriving DecidableEq, Repr

/-- Whether a group still runs. -/
inductive GStatus where
  | live | exited | terminated
deriving DecidableEq, Repr

/-- A group (R8, R45). Vector names and tile columns share one map: name n of quarter q is key 16 n + q, with vN as name
N and column c of tile a as name 64 + 32 a + c. `lastLoad` is the number of its last load (R113), and
`past` holds, by byte of DRAM, the number of its last load under BYPASS (R112). -/
structure Group where
  wg : Nat
  base : Nat
  width : Nat
  stage : Nat
  status : GStatus
  pc : Dword
  v : Fmap Slice
  s : Fmap Entry
  m : Fmap Mask
  flags : Fmap (BitVec 6)
  vk : List Latch
  sk : List Latch
  mstk : List MaskEntry
  rstk : List Dword
  rdDepth : Nat
  rdPar : Bool
  region : Option Region
  rollbacks : Nat
  sig : Word
  hlr : List (BitVec 3)
  hrun : Nat
  bundle : Option Bundle
  handler : Bool
  pendTraps : List Trap
  nb : Word
  wm : Word
  batchOpen : Bool
  openStatus : Word
  batches : List Batch
  interval : Nat
  holder : Option Compaction
  parked : Option Nat
  wait : Option Wait
  stall : Option Stall
  poolHold : Option (Nat × Nat)
  rollbackDue : Bool
  issued : Bool
  readySince : Nat
  lastLoad : Nat
  past : Fmap Nat
deriving DecidableEq, Repr

/-! ### Kernels, workgroups and launch records -/

/-- An entry of the exchange-slot table as read at launch (R154). -/
structure XSlot where
  kind : Nat
  type : Nat
  op : Nat
  max : Nat
deriving DecidableEq, Repr

/-- A kernel as read at launch: the descriptor's fields and the two tables (R153, R284). -/
structure Kernel where
  mode : Nat
  entry : Dword
  lanes : Nat
  cluster : Nat
  vfloor : Nat
  vpeak : Nat
  sfloor : Nat
  speak : Nat
  scratch : Nat
  child : Nat
  stages : List (Nat × Nat)
  slots : List XSlot
  regions : List (Dword × Dword)
deriving DecidableEq, Repr

/-- The states of a workgroup after its dispatch (R301). -/
inductive WgState where
  | resident | evicting | evicted | saved | ended | terminated
deriving DecidableEq, Repr

/-- A workgroup (R8, R9, R60, R286). Registers are counted for the whole workgroup: `resV` slices and `resS` entries are
its reservation, `peakV` and `peakS` its peaks; `slots` are the core's group slots that its lanes occupy, 32 lanes each (R10). -/
structure Wg where
  ctx : Nat
  record : Nat
  linear : Nat
  idx : Nat
  idy : Nat
  idz : Nat
  gx : Nat
  gy : Nat
  gz : Nat
  core : Nat
  rank : Nat
  members : List Nat
  lanes : Nat
  kern : Kernel
  line0 : Nat
  lines : Nat
  resV : Nat
  resS : Nat
  peakV : Nat
  peakS : Nat
  state : WgState
  order : Nat
  excessV : Nat
  excessS : Nat
  slots : List Nat
deriving DecidableEq, Repr

/-- The STATE of a launch record (R285). -/
inductive RecState where
  | free | dispatching | stopped | drainingOut
deriving DecidableEq, Repr

/-- A launch record (R285) with the placement its grid keeps (R286). -/
structure LRec where
  desc : Dword
  gx : Nat
  gy : Nat
  gz : Nat
  next : List Nat
  ended : Nat
  state : RecState
  node : Option Nat
  childLeft : Nat
  queue : Nat
  sig : Bool
  siga : Dword
  args : Dword
  cpb : Nat
  place : Dword
  rmen : Bool
  rankmap : BitVec 8
  kern : Kernel
  order : Nat
deriving DecidableEq, Repr

/-! ### Translation -/

/-- A translation held by a TLB (R93): the context, the first 64 KiB page, the number of such pages as a power of two,
and the leaf. -/
structure TlbEntry where
  ctx : Nat
  vpn : Nat
  log2 : Nat
  pte : Dword
deriving DecidableEq, Repr

/-- A request of a die's miss queue (R93): the address, and the group that waits for the walk. -/
structure WalkReq where
  ctx : Nat
  va : Dword
  g : Nat
  acc : Nat
deriving DecidableEq, Repr

/-! ### Operations in flight -/

/-- The kinds of result that come later (R57): loads, atomics, variable-latency results, DLAUNCH's status, and the status of a
GFUSE or GCOMPACT that waits (R173). -/
inductive PendKind where
  | load | atomic | slow | dlaunch | status
deriving DecidableEq, Repr

/-- A result in flight: the slices and entries, by number in the core's pool, that it will be written to. The value is the
one already held by the names; no reader sees it before the completion. -/
structure Pend where
  kind : PendKind
  g : Nat
  wg : Nat
  core : Nat
  slices : List Nat
  entries : List Nat
deriving DecidableEq, Repr

/-- A store that memory has not acknowledged (R102). -/
structure StoreOp where
  g : Nat
  wg : Nat
  core : Nat
  peer : Option Nat
deriving DecidableEq, Repr

/-- The kinds of engine operation and transfer (R234, R249). -/
inductive EngKind where
  | cpy | gath | scat | pfd | xput | xget
deriving DecidableEq, Repr

/-- A run of elements: element first + k, for k below count, copies `unit` bytes from src + unit k to dst + unit k. -/
structure Run where
  lane : Nat
  first : Nat
  count : Nat
  unit : Nat
  dst : Dword
  src : Dword
deriving DecidableEq, Repr

/-- What an operation last copied to a destination: by which lane, and from where (R230, R236). -/
structure Copied where
  lane : Nat
  src : Nat
deriving DecidableEq, Repr

/-- An engine operation or X-class transfer in flight (R234 to R242, R249): the elements performed, the destination lines
whose count it holds with the elements each still awaits (R104), what it last copied to each destination (R236), and for
PFD the deadline and the lines in flight (R240). -/
structure EngOp where
  kind : EngKind
  g : Nat
  wg : Nat
  handle : Nat
  runs : List Run
  performed : List Nat
  lines : Fmap Nat
  wrote : Fmap Copied
  parkSeq : Option Nat
  cancelled : Bool
  deadline : Nat
  issued : List Nat
deriving DecidableEq, Repr

/-- The side of a contribution that lies on this package (R250): the group, its workgroup, the addresses of its source and
its destination, the participants at its issue and its slot. -/
structure Local where
  g : Nat
  wg : Nat
  src : Dword
  dst : Dword
  npart : Nat
  slot : XSlot
deriving DecidableEq, Repr

/-- A contribution to a collective (R250), in order of arrival: the fabric set that its COLL was issued under, its bytes once
its packets have been sent, and, for a live group of this package, where it comes from and goes to. -/
structure Contribution where
  id : Nat
  ctx : Nat
  fset : Nat
  slot : Nat
  attempt : BitVec 16
  inst : Nat
  rank : Nat
  count : Nat
  data : Option (List Byte)
  here : Option Local
deriving DecidableEq, Repr

/-- The matrix instructions that join a batch (R267). -/
inductive MOpKind where
  | mma | mmas | mmat | mmax | mzero | mld | mst | mrd | mwr
deriving DecidableEq, Repr

/-- A scratchpad operand of a matrix operation (R257, R265): the workgroup whose scratchpad it is, the location and the
window address of its base, and its layout. -/
structure MDesc where
  wg : Nat
  loc : Nat
  va : Dword
  rowp : Nat
  tilep : Nat
  rot : Nat
deriving DecidableEq, Repr

/-- A matrix operation that has issued and not completed (R262, R265), MRD included: what it does, its tile, its execute mask,
the rows read from registers at issue, by lane and by column (R270), its scratchpad operands, the row boundary of MMAX, the
column and values of MRD and MWR, the slices that MRD will fill by quarter, the batch that it joined, and whether a last-read
bit frees its tile (R266), it issued inside the open region (R182), and the last healthy quadrant of its core was fenced after
its issue (R271). -/
structure MOp where
  kind : MOpKind
  g : Nat
  wg : Nat
  acc : Nat
  exec : Mask
  quiet : Bool
  rm : BitVec 2
  ta : Nat
  tb : Nat
  rowsA : List (List Byte)
  rowsB : List (List Byte)
  descA : MDesc
  descB : MDesc
  descC : MDesc
  bound : Nat
  col : Nat
  vals : List Word
  fills : List (Nat × Nat)
  batch : Option Word
  frees : Bool
  inRegion : Bool
  noEngine : Bool
deriving DecidableEq, Repr

/-! ### Dies, cores and contexts -/

/-- An entry of a retire queue (R124, R244); `freed` is how often its block had been freed when it was queued (R245). -/
structure Retire where
  ctx : Nat
  ptr : Dword
  size : Word
  kind : Nat
  arg : Nat
  p : Nat
  freed : Nat
deriving DecidableEq, Repr

/-- A block pool (R247): its registers; the freed blocks of the free stack, the top first, below which lie the blocks from
`next` to COUNT - 1 that were never allocated; and for each block how often it was freed. -/
structure Pool where
  base : Dword
  cfg : Dword
  stack : List Nat
  next : Nat
  freed : Fmap Nat
deriving DecidableEq, Repr

/-- A die. `ck` is ck.local (R34); `joinPending` marks a die that was authenticated and joins at a release, and
`leftOut` one that was left out of service (R326, R327). -/
structure Die where
  ck : Dword
  sav0 : Nat
  sav1 : Nat
  retireQ : List Retire
  pools : Fmap Pool
  tlb : List TlbEntry
  walkQ : List WalkReq
  pfdUsed : Fmap Nat
  pfdWindow : Nat
  throt : Nat
  alive : Bool
  lost : Bool
  authDone : Bool
  joinPending : Bool
  leftOut : Bool
deriving DecidableEq, Repr

/-- A line held by an L1 data cache (R101): whether a STREAM load filled it, its bytes, which of its 8-byte units are poisoned
(R312), and when it was filled, in the numbers that loads take (R113). -/
structure CacheLine where
  stream : Bool
  data : List Byte
  bad : BitVec 16
  filled : Nat
deriving DecidableEq, Repr

/-- What a quadrant has performed since its last passing self-test (R272): a group, one of its batches, and whether a test has
run since. -/
structure QuadUse where
  g : Nat
  batch : Word
  tested : Bool
deriving DecidableEq, Repr

/-- A candidate since the candidates stayed the same (R30): the slots that it took, and the most and the least that they exceeded its
weighted share after any slot, times the sum of the weights. -/
structure Share where
  slots : Nat
  most : Int
  least : Int
deriving DecidableEq, Repr

/-- A core (R8, R39 to R42, R119, R271). -/
structure Core where
  ph : Dword
  token : Bool
  arrived : Bool
  relPending : Bool
  limit : Word
  timer : Option Nat
  expiries : Nat
  parity : Bool
  flipPending : Bool
  cnt0 : Nat
  cnt1 : Nat
  l1 : Fmap CacheLine
  tlb : List TlbEntry
  fails : BitVec 8
  lastFail : BitVec 4
  fenced : BitVec 4
  firstTest : BitVec 4
  testPending : BitVec 4
  rbsel : Dword
  rbSet : Bool
  weights : Fmap Nat
  issues : Fmap Share
  cands : List Nat
  guard : List Nat
  slots : Nat
  quadUse : Fmap (List QuadUse)
deriving DecidableEq, Repr

/-- The states of a context (R296). -/
inductive CtxState where
  | free | active | requested | draining | saved | killed
deriving DecidableEq, Repr

/-- A context (R95, R240, R246, R250, R295, R304, R309). Registers whose fields no rule computes with are held whole. -/
structure Ctx where
  state : CtxState
  phased : Bool
  dies : BitVec 4
  touch : BitVec 4
  period : Word
  bound : BitVec 8
  drain : Nat
  save : Fmap Dword
  spill : Fmap Dword
  root : Dword
  mirror : Word
  race : BitVec 2
  inval : List Dword
  note : Dword
  noteHead : Nat
  noteTail : Nat
  noteLost : Nat
  pfd : Word
  coll : Word
  att : Fmap (BitVec 16)
  collCount : Fmap Nat
  fq : Dword
  fqHead : Nat
  fqTail : Nat
  fqLost : Nat
  trap : Dword
  seq : Nat
  recs : Fmap LRec
  dlq : List (List Byte)
  drainTimer : Nat
deriving DecidableEq, Repr

/-- The states of a host queue (R277). -/
inductive QState where
  | disabled | active | held | fault
deriving DecidableEq, Repr

/-- A host queue (R275). -/
structure HQueue where
  base : Dword
  en : Bool
  peer : Bool
  ctx : Nat
  log2n : Nat
  widx : Word
  ridx : Word
  fcode : BitVec 8
  state : QState
deriving DecidableEq, Repr

/-- The states of a graph node (R290). -/
inductive NState where
  | idle | waiting | launched | done
deriving DecidableEq, Repr

/-- A graph node (R289). -/
structure Node where
  pkt : List Byte
  pred : Nat
  init : Nat
  state : NState
  valid : Bool
  ctx : Nat
  nsucc : Nat
  succ : BitVec 128
deriving DecidableEq, Repr

/-- A GRAPH packet in progress (R293). -/
structure Graph where
  ctx : Nat
  queue : Nat
  first : Nat
  count : Nat
  sig : Bool
  siga : Dword
deriving DecidableEq, Repr

/-! ### Memory -/

/-- The state of a scratchpad line beside its bytes (R104, R105, R232). -/
structure Line where
  full : Bool
  count : Nat
  barrier : Bool
  queue : Bool
deriving DecidableEq, Repr

/-- The shadow record of a 32-byte sector (R127). `scope` is a code of R139. -/
structure Shadow where
  g : Nat
  interval : Nat
  scope : Nat
  atomic : Bool
deriving DecidableEq, Repr

/-- What a die has written of a mirror line in a superstep (R107), and where the line lies in its context. -/
structure Dirty where
  mask : BitVec 64
  tag : Bool
  ctx : Nat
  va : Dword
deriving DecidableEq, Repr

/-! ### The package -/

/-- The wave under way (R39). -/
inductive Wave where
  | computeEnd | exchangeEnd
deriving DecidableEq, Repr

/-- A request to the geyser (R40, R41): an empty boundary, or the pre-emption of a context. -/
inductive Req where
  | boundary
  | preempt (ctx : Nat)
deriving DecidableEq, Repr

/-- The power states (R335). -/
inductive Power where
  | d0 | d3hot | d3cold
deriving DecidableEq, Repr

/-- The stages of the boot (R325). -/
inductive BootStage where
  | rom | verify | die0 | joining | full | failed
deriving DecidableEq, Repr

/-- The state of the package that belongs to no die, core or context: the geyser's root (R34, R39 to R41), the
grace-period detector (R119, R121, R126), the mirror engine's marks (R109), the firmware core (R283), boot, snapshots
and power (R319, R325, R332, R333, R335), the measured firmware image and what the DOE mailbox last answered (R324), and the contexts whose workgroups end at the completion of a superstep not before
the one given (R320). `ticks` is the model's own count of clk, from which a slower die's clock is
taken (log 6). -/
structure Root where
  ph : Dword
  wave : Option Wave
  tokenSent : Bool
  incoming : List Req
  now : List Req
  later : List Req
  g : Dword
  gpPhase : Nat
  acks : List Nat
  gpBegan : Nat
  linesDone : Bool
  slotsDone : Bool
  lastQueue : Nat
  vectors : List Nat
  stage : BootStage
  fail : BitVec 8
  snapSeq : BitVec 16
  snapPerm : Dword
  snapPend : List Nat
  limit : BitVec 12
  power : Power
  image : BitVec 384
  doe : Option (BitVec 384 × BitVec 384)
  doomed : List (Nat × Dword)
  ticks : Nat
deriving DecidableEq, Repr

/-- What the step does next: let a group issue, let an event happen, let a line leave an L1 cache (R101), or let one clk
pass. -/
inductive Choice where
  | issue (g : Nat)
  | event (i : Instr)
  | dropLine (core line : Nat)
  | clk
deriving DecidableEq, Repr

/-- The state of the package. `agenda`, `cur`, `nextId` and `free` are the model's own: what the step does next, the
group that issues, the number of the next operation, and the counter that free values are drawn with. Bytes of memory
stand at locations: a physical address (R86), 2^52 + 2^20 core + offset for a scratchpad, 2^53 + 2^15 die + 8 slot for a
die's copy of a root slot, 2^54 + 2^20 k + offset for the scratchpad of workgroup k in its save area. -/
structure State where
  agenda : List Choice
  cur : Nat
  nextId : Nat
  free : Nat
  root : Root
  dies : Fmap Die
  cores : Fmap Core
  ctxs : Fmap Ctx
  queues : Fmap HQueue
  acl : Fmap Dword
  nodes : Fmap Node
  graphs : List Graph
  wgs : Fmap Wg
  groups : Fmap Group
  pend : Fmap Pend
  stores : Fmap StoreOp
  engs : Fmap EngOp
  done : Fmap Word
  colls : List Contribution
  mops : Fmap MOp
  mem : List Host.Cell
  tags : Fmap (BitVec 16)
  poison : Fmap Bool
  tagPoison : Fmap Bool
  shadow : Fmap Shadow
  lines : Fmap Line
  dirty : Fmap Dirty
  dirtyNext : Fmap Dirty
  dirtySlots : Fmap (Nat × Dword)
  dirtySlotsNext : Fmap (Nat × Dword)
  snaps : Fmap Word
  snapSeqs : Fmap Word
deriving DecidableEq, Repr

/-! ### Reset -/

/-- A group at its launch but for its place, PC and launch registers (R45, R51, R153, R267, R317). -/
def Group.fresh : Group :=
  { wg := 0, base := 0, width := 32, stage := 0, status := .live, pc := 0, v := [], s := [], m := [], flags := []
    vk := List.replicate 4 ⟨false, none, []⟩, sk := List.replicate 4 ⟨false, none, []⟩, mstk := [], rstk := []
    rdDepth := 0, rdPar := false, region := none, rollbacks := 0, sig := 0, hlr := [], hrun := 0, bundle := none
    handler := false, pendTraps := [], nb := 1, wm := 0, batchOpen := false, openStatus := 0, batches := [], interval := 0, holder := none
    parked := none, wait := none, stall := none, poolHold := none, rollbackDue := false, issued := false, readySince := 0, lastLoad := 0
    past := [] }

/-- An empty kernel. -/
def Kernel.empty : Kernel :=
  { mode := 0, entry := 0, lanes := 0, cluster := 1, vfloor := 0, vpeak := 0, sfloor := 0, speak := 0, scratch := 0
    child := 0, stages := [], slots := [], regions := [] }

/-- A workgroup that does not exist. -/
def Wg.none : Wg :=
  { ctx := 0, record := 0, linear := 0, idx := 0, idy := 0, idz := 0, gx := 0, gy := 0, gz := 0, core := 0, rank := 0
    members := [], lanes := 0, kern := Kernel.empty, line0 := 0, lines := 0, resV := 0, resS := 0, peakV := 0
    peakS := 0, state := .ended, order := 0, excessV := 0, excessS := 0, slots := [] }

/-- A die at reset (R34, R126, R245, R247, R325). -/
def Die.reset : Die :=
  { ck := 0, sav0 := 0, sav1 := 0, retireQ := [], pools := [], tlb := [], walkQ := [], pfdUsed := [], pfdWindow := 0
    throt := 0, alive := false, lost := false, authDone := false, joinPending := false, leftOut := false }

/-- A core at reset (R34, R42, R126, R271, R272, R330). -/
def Core.reset : Core :=
  { ph := 0, token := false, arrived := false, relPending := false, limit := 0, timer := none, expiries := 0
    parity := false, flipPending := false, cnt0 := 0, cnt1 := 0, l1 := [], tlb := [], fails := 0, lastFail := 0
    fenced := 0, firstTest := 15, testPending := 0, rbsel := 0, rbSet := false, weights := [], issues := [], cands := [], guard := [], slots := 0
    quadUse := [] }

/-- A context at reset (R95, R240, R246, R250, R295, R304, R309). -/
def Ctx.reset : Ctx :=
  { state := .free, phased := false, dies := 0, touch := 0, period := 0, bound := 0, drain := 0, save := [], spill := []
    root := 0, mirror := 0, race := 0, inval := [], note := 0, noteHead := 0, noteTail := 0, noteLost := 0, pfd := 0
    coll := 0, att := [], collCount := [], fq := 0, fqHead := 0, fqTail := 0, fqLost := 0, trap := 0, seq := 0
    recs := [], dlq := [], drainTimer := 0 }

/-- A host queue at reset (R275, R277). -/
def HQueue.reset : HQueue :=
  { base := 0, en := false, peer := false, ctx := 0, log2n := 0, widx := 0, ridx := 0, fcode := 0, state := .disabled }

/-- A graph node at reset (R289, R290). -/
def Node.reset : Node :=
  { pkt := List.replicate 64 0, pred := 0, init := 0, state := .idle, valid := false, ctx := 0, nsucc := 0, succ := 0 }

/-- A pool before it is configured (R247). -/
def Pool.reset : Pool := { base := 0, cfg := 0, stack := [], next := 0, freed := [] }

/-- A scratchpad line at dispatch (R103): full, with no pending count, and ordinary. -/
def Line.reset : Line := { full := true, count := 0, barrier := false, queue := false }

/-- The package at reset (R34, R119, R126, R319, R325, R332, R333). The first round of the firmware core starts at queue 0
(DESIGN CHOICE, log 4). -/
def Root.reset : Root :=
  { ph := 0, wave := none, tokenSent := false, incoming := [], now := [], later := [], g := 0, gpPhase := 0, acks := []
    gpBegan := 0, linesDone := false, slotsDone := false, lastQueue := 1087, vectors := [], stage := .rom, fail := 0
    snapSeq := 0, snapPerm := 0, snapPend := [], limit := 2400, power := .d0, image := 0, doe := none, doomed := [], ticks := 0 }

/-- The machine right after reset: every collection at its reset values, no group, no memory byte listed. -/
def State.reset : State :=
  { agenda := [], cur := 0, nextId := 0, free := 0, root := Root.reset, dies := [], cores := [], ctxs := [], queues := []
    acl := [], nodes := [], graphs := [], wgs := [], groups := [], pend := [], stores := [], engs := [], done := []
    colls := [], mops := [], mem := [], tags := [], poison := [], tagPoison := [], shadow := [], lines := [], dirty := []
    dirtyNext := [], dirtySlots := [], dirtySlotsNext := [], snaps := [], snapSeqs := [] }

end Sys2Proof.Machine
end

