-- ==== Sys2Proof/Machine/Regs.lean ====
section
/-! DEFINITION. Access to the parts of the state and to the registers of a group: names, renaming and the pools
(R45 to R62), latches (R65, R66), masks and flags. Every read or write of a register goes through this file. -/

namespace Sys2Proof.Machine

/-! ### Parts of the state -/

/-- Core `c`; a core that is not listed is as at reset. -/
def State.core (s : State) (c : Nat) : Core := Fmap.get Core.reset s.cores c

/-- The state with core `c` as `v`. -/
def State.setCore (s : State) (c : Nat) (v : Core) : State := { s with cores := Fmap.insert s.cores c v }

/-- Die `d`. -/
def State.die (s : State) (d : Nat) : Die := Fmap.get Die.reset s.dies d

/-- The state with die `d` as `v`. -/
def State.setDie (s : State) (d : Nat) (v : Die) : State := { s with dies := Fmap.insert s.dies d v }

/-- A draw of a free value: the counter goes on (log 6). -/
def State.drawn (s : State) : State := { s with free := s.free + 1 }

/-- Context `k`. -/
def State.ctx (s : State) (k : Nat) : Ctx := Fmap.get Ctx.reset s.ctxs k

/-- The state with context `k` as `v`. -/
def State.setCtx (s : State) (k : Nat) (v : Ctx) : State := { s with ctxs := Fmap.insert s.ctxs k v }

/-- Host queue `q`. -/
def State.hq (s : State) (q : Nat) : HQueue := Fmap.get HQueue.reset s.queues q

/-- The state with host queue `q` as `v`. -/
def State.setHq (s : State) (q : Nat) (v : HQueue) : State := { s with queues := Fmap.insert s.queues q v }

/-- Graph node `n`. -/
def State.node (s : State) (n : Nat) : Node := Fmap.get Node.reset s.nodes n

/-- The state with graph node `n` as `v`. -/
def State.setNode (s : State) (n : Nat) (v : Node) : State := { s with nodes := Fmap.insert s.nodes n v }

/-- Workgroup `k`. -/
def State.wg (s : State) (k : Nat) : Wg := Fmap.get Wg.none s.wgs k

/-- The state with workgroup `k` as `v`. -/
def State.setWg (s : State) (k : Nat) (v : Wg) : State := { s with wgs := Fmap.insert s.wgs k v }

/-- Group `g`. -/
def State.group (s : State) (g : Nat) : Group := Fmap.get Group.fresh s.groups g

/-- The state with group `g` as `v`. -/
def State.setGroup (s : State) (g : Nat) (v : Group) : State := { s with groups := Fmap.insert s.groups g v }

/-- The state with group `g` changed by `f`. -/
def State.modGroup (s : State) (g : Nat) (f : Group → Group) : State := s.setGroup g (f (s.group g))

/-- Every group of workgroup `k` changed by `f`. -/
def State.modGroupsOf (s : State) (k : Nat) (f : Group → Group) : State :=
  { s with groups := Fmap.mapVals (fun _ x => if x.wg = k then f x else x) s.groups }

/-- The groups that meet `p`, with their numbers, in the order of the numbers. -/
def State.groupsWhere (s : State) (p : Group → Bool) : Fmap Group := Fmap.select s.groups (fun _ g => p g)

/-- The workgroup of group `g`. -/
def State.wgOf (s : State) (g : Nat) : Wg := s.wg (s.group g).wg

/-- The core on which group `g` runs (R11). -/
def State.coreOf (s : State) (g : Nat) : Nat := (s.wgOf g).core

/-- The die of a core (R53). -/
def dieOfCore (c : Nat) : Nat := c / 12

/-- The die on which group `g` runs. -/
def State.dieOf (s : State) (g : Nat) : Nat := dieOfCore (s.coreOf g)

/-- The context of group `g`. -/
def State.ctxOf (s : State) (g : Nat) : Nat := (s.wgOf g).ctx

/-- The cores of the package. -/
def allCores : List Nat := List.range 48

/-- Whether a core is in an exchange superstep, by the phase count it holds (R34). -/
def Core.exchange (c : Core) : Bool := c.ph.getLsbD 0

/-- A number without repeats in a list, in the order of the last occurrences. -/
def distinct (l : List Nat) : List Nat :=
  match l with
  | [] => []
  | x :: t => if t.contains x then distinct t else x :: distinct t

/-! ### Masks -/

/-- All lanes of a group of width `w`. -/
def fullMask (w : Nat) : Mask := BitVec.ofNat 128 (2 ^ w - 1)

/-- Mask register `k` (R48): m0 reads as all ones across the group's lanes. -/
def Group.mask (g : Group) (k : Nat) : Mask :=
  if k = 0 then fullMask g.width else Fmap.get 0 g.m k

/-- The group with mask register `k` as `v`; m0 keeps reading as all ones (R48). -/
def Group.setMask (g : Group) (k : Nat) (v : Mask) : Group :=
  { g with m := Fmap.insert g.m k (v &&& fullMask g.width) }

/-- The current mask (R15): the mask of the top entry, or all ones at depth 0. -/
def Group.curMask (g : Group) : Mask :=
  match g.mstk with
  | [] => fullMask g.width
  | e :: _ => e.mask

/-- The execute mask under predicate `p` (R16). -/
def Group.execMask (g : Group) (p : Nat) : Mask := g.curMask &&& g.mask p

/-- The lanes of a mask, in ln.id order. -/
def lanesOf (m : Mask) : List Nat := (List.range 128).filter (fun i => m.getLsbD i)

/-- The mask whose lanes are listed. -/
def maskOf (l : List Nat) : Mask := l.foldl (fun m i => m ||| BitVec.ofNat 128 (2 ^ i)) 0

/-- The mask of the lanes below `w` that meet `p`. -/
def maskWhere (w : Nat) (p : Nat → Bool) : Mask := maskOf ((List.range w).filter p)

/-- How many lanes a mask selects. -/
def countOf (m : Mask) : Nat := (lanesOf m).length

/-- The quarters of a group of width `w` in which a mask selects a lane (R54). -/
def hitQuarters (w : Nat) (m : Mask) : List Nat :=
  (List.range (w / 8)).filter (fun q => (List.range 8).any (fun l => m.getLsbD (8 * q + l)))

/-! ### Vector names and tiles -/

/-- The key of quarter `q` of name `n` in a group's vector map. -/
def vkey (n q : Nat) : Nat := 16 * n + q

/-- The name of column `c` of tile `a` in a group's vector map (R54, R56). -/
def tileName (a c : Nat) : Nat := 64 + 32 * a + c

/-- Lane `l` of vector name `n`: zero where unallocated (R46). -/
def Group.readV (g : Group) (n l : Nat) : Word :=
  match Fmap.find g.v (vkey n (l / 8)) with
  | some sl => sl.val.getD (l % 8) 0
  | none => 0

/-- A vector source field: codes 60 to 63 are the latches (R67). -/
def Group.srcV (g : Group) (code l : Nat) : Word :=
  if code < 60 then g.readV code l else ((g.vk.getD (code - 60) ⟨false, none, []⟩).val).getD l 0

/-- Lane `l` of a vector pair (R47). -/
def Group.readV2 (g : Group) (n l : Nat) : Dword := pairOf (g.readV n l) (g.readV (n + 1) l)

/-- A quarter rewritten: executing lanes take `f`, the others keep the old value (R55). -/
def Group.quarterVal (g : Group) (n : Nat) (m : Mask) (f : Nat → Word) (q : Nat) : List Word :=
  (List.range 8).map (fun l => if m.getLsbD (8 * q + l) then f (8 * q + l) else g.readV n (8 * q + l))

/-- The elements of a quarter that keep an uncorrectable error when executing lanes are rewritten (R312). -/
def Group.quarterBad (g : Group) (n : Nat) (m : Mask) (q : Nat) : Byte :=
  match Fmap.find g.v (vkey n q) with
  | some sl => sl.bad &&& ~~~ (m.extractLsb' (8 * q) 8)
  | none => 0

/-- Vector name `n` written under mask `m` with `f`: each quarter that holds an executing lane takes a new slice, numbered
from `ids` (R55). -/
def Group.writeV (g : Group) (n : Nat) (m : Mask) (f : Nat → Word) (ids : List Nat) : Group :=
  let put := fun (v : Fmap Slice) (p : Nat × Nat) => Fmap.insert v (vkey n p.1) ⟨p.2, g.quarterVal n m f p.1, g.quarterBad n m p.1, g.lastLoad⟩
  { g with v := ((hitQuarters g.width m).zip ids).foldl put g.v }

/-- The numbers of the slices that name `n` holds in the quarters of mask `m`. -/
def Group.idsV (g : Group) (n : Nat) (m : Mask) : List Nat :=
  (hitQuarters g.width m).filterMap (fun q => (Fmap.find g.v (vkey n q)).map (·.id))

/-- The group with vector name `n` unallocated (R58). -/
def Group.freeV (g : Group) (n : Nat) : Group := { g with v := Fmap.select g.v (fun k _ => k / 16 != n) }

/-- Element of row `l`, column `c` of tile `a` (R45). -/
def Group.readAcc (g : Group) (a l c : Nat) : Word := g.readV (tileName a c) l

/-- Whether a lane of a vector name holds an uncorrectable error (R312). -/
def Group.badV (g : Group) (n l : Nat) : Bool :=
  match Fmap.find g.v (vkey n (l / 8)) with
  | some sl => sl.bad.getLsbD (l % 8)
  | none => false

/-! ### Scalar names -/

/-- Scalar name `n`: zero where unallocated (R46). -/
def Group.readS (g : Group) (n : Nat) : Word :=
  match Fmap.find g.s n with
  | some e => e.val
  | none => 0

/-- Whether a scalar name holds an uncorrectable error (R312). -/
def Group.badS (g : Group) (n : Nat) : Bool :=
  match Fmap.find g.s n with
  | some e => e.bad
  | none => false

/-- A scalar source field: codes 60 to 63 are the latches (R67). -/
def Group.srcS (g : Group) (code : Nat) : Word :=
  if code < 60 then g.readS code else ((g.sk.getD (code - 60) ⟨false, none, []⟩).val).getD 0 0

/-- A scalar pair (R47). -/
def Group.readS2 (g : Group) (n : Nat) : Dword := pairOf (g.readS n) (g.readS (n + 1))

/-- Scalar name `n` written with `x` in entry `id`, bound to operation `fut` if one is given (R55, R234). -/
def Group.writeS (g : Group) (n : Nat) (x : Word) (id : Nat) (fut : Option Nat) : Group :=
  { g with s := Fmap.insert g.s n ⟨id, x, fut, false, g.lastLoad⟩ }

/-- The group with scalar name `n` unallocated (R58). -/
def Group.freeS (g : Group) (n : Nat) : Group := { g with s := Fmap.erase g.s n }

/-- The last load of the group that the value of a register can depend on (R113): the last one before the register was written;
for a latch, the last one of all (DESIGN CHOICE, log 102). -/
def Group.depS (g : Group) (code : Nat) : Nat := if code < 60 then (Fmap.find g.s code).elim 0 (·.dep) else g.lastLoad
def Group.depV (g : Group) (code : Nat) : Nat :=
  if code < 60 then ((List.range 16).map (fun q => (Fmap.find g.v (vkey code q)).elim 0 (·.dep))).foldl max 0 else g.lastLoad

/-- The operation that scalar name `n` is bound to. -/
def Group.futOf (g : Group) (n : Nat) : Option Nat := (Fmap.find g.s n).bind (·.fut)

/-! ### The pools -/

/-- The numbers of the slices that names or pins of a group hold (R59, R60). -/
def Group.sliceIds (g : Group) : List Nat :=
  g.v.map (·.2.id) ++ (match g.region with | some r => r.v.map (·.2.id) | none => [])

/-- The numbers of the entries that names or pins of a group hold. -/
def Group.entryIds (g : Group) : List Nat :=
  g.s.map (·.2.id) ++ (match g.region with | some r => r.s.map (·.2.id) | none => [])

/-- The slices that workgroup `k` holds: by names, pins, and results in flight, each counted once (R60). -/
def State.slicesOf (s : State) (k : Nat) : List Nat :=
  distinct ((s.groups.flatMap (fun p => if p.2.wg = k then p.2.sliceIds else [])) ++
    (s.pend.flatMap (fun p => if p.2.wg = k then p.2.slices else [])))

/-- The entries that workgroup `k` holds, each counted once (R60). -/
def State.entriesOf (s : State) (k : Nat) : List Nat :=
  distinct ((s.groups.flatMap (fun p => if p.2.wg = k then p.2.entryIds else [])) ++
    (s.pend.flatMap (fun p => if p.2.wg = k then p.2.entries else [])))

/-- Whether a workgroup's registers stand on its core: it is resident, or being evicted. -/
def WgState.onCore (t : WgState) : Bool := t = .resident || t = .evicting

/-- The workgroups whose registers stand on core `c`. -/
def State.wgsOn (s : State) (c : Nat) : Fmap Wg :=
  Fmap.select s.wgs (fun _ w => w.core = c && w.state.onCore)

/-- Slices and entries of a core's pools (R60). -/
def poolSlices : Nat := 131072
def poolEntries : Nat := 65536

/-- The workgroups on core `c` that have ended: what their writes in flight and their tiles hold is freed once these have landed
(R188). -/
def State.endedOn (s : State) (c : Nat) : Fmap Wg := Fmap.select s.wgs (fun _ w => w.core = c && w.state = .ended)

/-- co.vfree (R60): the pool less the reservations, the slices held beyond them, and what ended workgroups still hold. -/
def State.vfree (s : State) (c : Nat) : Nat :=
  poolSlices - (((s.wgsOn c).map (fun p => max p.2.resV (s.slicesOf p.1).length)).sum +
    ((s.endedOn c).map (fun p => (s.slicesOf p.1).length)).sum)

/-- co.sfree (R60). -/
def State.sfree (s : State) (c : Nat) : Nat :=
  poolEntries - (((s.wgsOn c).map (fun p => max p.2.resS (s.entriesOf p.1).length)).sum +
    ((s.endedOn c).map (fun p => (s.entriesOf p.1).length)).sum)

/-- Whether `n` more registers fit: at most the peak, and what goes beyond the reservation comes from the shared pool
(R60, R62). -/
def fits (held n res peak free : Nat) : Bool :=
  n = 0 || (held + n ≤ peak && max (held + n) res - max held res ≤ free)

/-- Whether workgroup `k` can allocate `nv` slices and `ns` entries at once (R62). -/
def State.room (s : State) (k nv ns : Nat) : Bool :=
  let w := s.wg k
  fits (s.slicesOf k).length nv w.resV w.peakV (s.vfree w.core) &&
    fits (s.entriesOf k).length ns w.resS w.peakS (s.sfree w.core)

/-- The slice numbers in use on core `c`. -/
def State.usedSlices (s : State) (c : Nat) : List Nat :=
  (s.groups.flatMap (fun p => if (s.wg p.2.wg).core = c then p.2.sliceIds else [])) ++
    (s.pend.flatMap (fun p => if p.2.core = c then p.2.slices else []))

/-- The entry numbers in use on core `c`. -/
def State.usedEntries (s : State) (c : Nat) : List Nat :=
  (s.groups.flatMap (fun p => if (s.wg p.2.wg).core = c then p.2.entryIds else [])) ++
    (s.pend.flatMap (fun p => if p.2.core = c then p.2.entries else []))

/-- The `n` lowest numbers that are not in use (log 12). -/
def freshIds (used : List Nat) (n : Nat) : List Nat :=
  ((List.range (used.length + n)).filter (fun i => !used.contains i)).take n

/-! ### Writes with allocation -/

/-- Group `g` writes vector name `n` under mask `m` (R55). -/
def State.putV (s : State) (g n : Nat) (m : Mask) (f : Nat → Word) : State :=
  let x := s.group g
  s.setGroup g (x.writeV n m f (freshIds (s.usedSlices (s.coreOf g)) (hitQuarters x.width m).length))

/-- Group `g` writes the pair `n`, `n + 1` under mask `m` (R47). -/
def State.putV2 (s : State) (g n : Nat) (m : Mask) (f : Nat → Dword) : State :=
  (s.putV g n m (fun l => loOf (f l))).putV g (n + 1) m (fun l => hiOf (f l))

/-- Group `g` writes scalar name `n` (R55). -/
def State.putS (s : State) (g n : Nat) (x : Word) : State :=
  s.modGroup g (fun y => y.writeS n x ((freshIds (s.usedEntries (s.coreOf g)) 1).getD 0 0) none)

/-- Group `g` writes the scalar pair `n`, `n + 1` (R47). -/
def State.putS2 (s : State) (g n : Nat) (x : Dword) : State := (s.putS g n (loOf x)).putS g (n + 1) (hiOf x)

/-- Group `g` writes scalar name `n` with a future's handle word and binds it (R234). -/
def State.putFuture (s : State) (g n : Nat) (x : Word) (op : Nat) : State :=
  s.modGroup g (fun y => y.writeS n x ((freshIds (s.usedEntries (s.coreOf g)) 1).getD 0 0) (some op))

/-- What groups whose lanes come together have read past the cache: of each byte the later number (R112). -/
def joinPast (a b : Fmap Nat) : Fmap Nat :=
  (Fmap.keys b).foldl (fun m k => Fmap.insert m k (max (Fmap.get 0 a k) (Fmap.get 0 b k))) a

/-- What the groups of workgroup `k` have read past the cache. -/
def State.pastOf (s : State) (k : Nat) : Fmap Nat := (s.groupsWhere (fun x => x.wg = k)).foldl (fun m p => joinPast m p.2.past) []

/-- An acquire of group `g` at workgroup scope (R114, R116): what the groups of its workgroup have read past the cache, none of its
later loads returns an older write of. That they released it before, and that the acquire read what they released, is not
asked (DESIGN CHOICE, log 7). -/
def State.learn (s : State) (g : Nat) : State := s.modGroup g (fun x => { x with past := s.pastOf x.wg })

/-- Workgroup `k` resumed on its core: a release and an acquire by its groups at workgroup scope (R118). -/
def State.resynced (s : State) (k : Nat) : State := s.modGroupsOf k (fun x => { x with past := s.pastOf k })

/-- A new operation in flight. -/
def State.addPend (s : State) (p : Pend) : State :=
  { s with pend := Fmap.insert s.pend s.nextId p, nextId := s.nextId + 1 }

/-! ### Latches -/

/-- A latch that is not valid. -/
def noLatch : Latch := ⟨false, none, []⟩

/-- A chain shifted, with `v` as the new first latch (R65). -/
def shiftChain (c : List Latch) (v : Latch) : List Latch :=
  [v, c.getD 0 noLatch, c.getD 1 noLatch, c.getD 2 noLatch]

/-- Every latch of the group invalid (R66). -/
def Group.dropLatches (g : Group) : Group :=
  { g with vk := g.vk.map (fun l => { l with valid := false }), sk := g.sk.map (fun l => { l with valid := false }) }

/-- The scalar chain shifted by `x` (R65). -/
def Group.shiftS (g : Group) (x : Word) (wait : Option Nat) : Group :=
  { g with sk := shiftChain g.sk ⟨true, wait, [x]⟩ }

/-- The vector chain shifted by the destination's new value: `f` in executing lanes, the old value of name `n` elsewhere
(R65). -/
def Group.shiftV (g : Group) (n : Nat) (m : Mask) (f : Nat → Word) (wait : Option Nat) : Group :=
  let val := (List.range g.width).map (fun l => if m.getLsbD l then f l else g.readV n l)
  { g with vk := shiftChain g.vk ⟨true, wait, val⟩ }

/-! ### Flags -/

/-- ln.flags of lane `l` (R51). -/
def Group.flag (g : Group) (l : Nat) : BitVec 6 := Fmap.get 0 g.flags l

/-- The group with flags `f` ORed into the executing lanes (R80). -/
def Group.orFlags (g : Group) (m : Mask) (f : Nat → BitVec 6) : Group :=
  { g with flags := (lanesOf m).foldl (fun fl l => Fmap.put 0 fl l (Fmap.get 0 fl l ||| f l)) g.flags }

/-- gp.flags (R49): the OR over the group's lanes. -/
def Group.allFlags (g : Group) : BitVec 6 := (List.range g.width).foldl (fun a l => a ||| g.flag l) 0

end Sys2Proof.Machine
end

