-- ==== Sys2Proof/Machine/Mem.lean ====
section
/-! DEFINITION. Memory: locations and bytes (R3, R85, R86), page-table walks and TLBs (R89 to R94), scratchpad windows
(R103 to R106), and the one operation through which every write of bytes goes. -/

namespace Sys2Proof.Machine

/-! ### Locations and bytes -/

/-- The location of byte `off` of core `c`'s scratchpad. -/
def spadLoc (c off : Nat) : Nat := 4503599627370496 + c * 1048576 + off

/-- The location of die `d`'s copy of package root slot `j` (R108). -/
def slotLoc (d j : Nat) : Nat := 9007199254740992 + d * 32768 + 8 * j

/-- The physical address of byte `off` of kind `k` on die `d` (R86); it is its own location. -/
def physAddr (d k off : Nat) : Nat := d * 1125899906842624 + k * 281474976710656 + off

/-- The DIE field of a physical address (R86). -/
def paDie (pa : Nat) : Nat := pa / 1125899906842624 % 4

/-- The KIND field of a physical address (R86): 0 DRAM, 1 SRAM tier, 2 device registers, 3 reserved. -/
def paKind (pa : Nat) : Nat := pa / 281474976710656 % 4

/-- The OFFSET field of a physical address (R86). -/
def paOffset (pa : Nat) : Nat := pa % 281474976710656

/-- The size of a kind of memory in bytes (R86). -/
def kindSize (k : Nat) : Nat :=
  match k with
  | 0 => 154618822656
  | 1 => 268435456
  | _ => 0

/-- Whether a physical address is memory (R86). -/
def isMemory (pa : Nat) : Bool := pa < 4503599627370496 && paOffset pa < kindSize (paKind pa)

/-- What an unlisted location reads as: 0. For a scratchpad that is R103; for DRAM, the tier and root slots it is a DESIGN
CHOICE (log 3). -/
def unlisted : Byte := 0

/-- One byte of memory. -/
def State.byteAt (s : State) (loc : Nat) : Byte := Fmap.get unlisted s.mem loc

/-- Consecutive bytes, lowest location first. -/
def State.bytesAt (s : State) (loc n : Nat) : List Byte := (List.range n).map (fun i => s.byteAt (loc + i))

/-- The number that bytes encode, little-endian (R3). -/
def leNat (bs : List Byte) : Nat :=
  match bs with
  | [] => 0
  | b :: t => b.toNat + 256 * leNat t

/-- The `n` bytes of a number, little-endian (R3). -/
def leBytes (n x : Nat) : List Byte :=
  match n with
  | 0 => []
  | k + 1 => BitVec.ofNat 8 x :: leBytes k (x / 256)

/-- A number read from `n` bytes of memory. -/
def State.natAt (s : State) (loc n : Nat) : Nat := leNat (s.bytesAt loc n)

/-- The cells that `bs` at `loc` writes. -/
def cellsOf (loc : Nat) (bs : List Byte) : List Host.Cell :=
  match bs with
  | [] => []
  | b :: t => (loc, b) :: cellsOf (loc + 1) t

/-- Memory with cells written in order, so that a later cell at one location remains (R88). The form stays canonical. -/
def writeCells (m : List Host.Cell) (ws : List Host.Cell) : List Host.Cell :=
  match ws with
  | [] => m
  | w :: t => writeCells (Fmap.put unlisted m w.1 w.2) t

/-- The canonical form of memory: locations strictly rising and no entry equal to what an unlisted location reads as. -/
def memWf (m : List Host.Cell) : Bool := Fmap.wf unlisted m

/-- The 8-byte units that cells write whole (R312). -/
def wholeUnits (ws : List Host.Cell) : List Nat :=
  (distinct (ws.map (fun w => w.1 / 8))).filter (fun u => (List.range 8).all (fun i => ws.any (fun w => w.1 = 8 * u + i)))

/-- Cells written by one store: the bytes change, and poison of units written whole is cleared (R312). -/
def State.storeCells (s : State) (ws : List Host.Cell) : State :=
  { s with mem := writeCells s.mem ws
           poison := if s.poison.isEmpty then [] else (wholeUnits ws).foldl Fmap.erase s.poison }

/-- The block tag of the 64-byte block that holds `loc` (R72). -/
def State.tagAt (s : State) (loc : Nat) : BitVec 16 := Fmap.get 0x7F00 s.tags (loc / 64)

/-- The state with the tag of `loc`'s block as `t`. -/
def State.setTag (s : State) (loc : Nat) (t : BitVec 16) : State :=
  { s with tags := Fmap.put 0x7F00 s.tags (loc / 64) t, tagPoison := Fmap.erase s.tagPoison (loc / 64) }

/-- Whether any of `n` bytes at `loc` is poisoned (R312). -/
def State.poisoned (s : State) (loc n : Nat) : Bool :=
  (List.range n).any (fun i => Fmap.get false s.poison ((loc + i) / 8))

/-- The state of the scratchpad line that holds `loc` (R104). -/
def State.lineAt (s : State) (loc : Nat) : Line := Fmap.get Line.reset s.lines (loc / 128)

/-- The state with `loc`'s line as `l`. -/
def State.setLine (s : State) (loc : Nat) (l : Line) : State := { s with lines := Fmap.put Line.reset s.lines (loc / 128) l }

/-! ### Virtual regions -/

/-- What a virtual address names before any translation (R85). -/
inductive VRegion where
  | noncanon
  | translated
  | rootSlot (j : Nat)
  | mirrorData
  | own (off : Nat)
  | peer (rank off : Nat)
  | reserved
deriving DecidableEq, Repr

/-- The region of a virtual address (R85). -/
def regionOf (va : Dword) : VRegion :=
  let a := va.toNat
  if a ≥ 0x1000000000000000 then .noncanon
  else if a < 0x0E00000000000000 then .translated
  else if a < 0x0E00000000008000 then .rootSlot ((a - 0x0E00000000000000) / 8)
  else if 0x0E00000000010000 ≤ a && a < 0x0E00001000000000 then .mirrorData
  else if 0x0F00000000000000 ≤ a && a < 0x0F00000000100000 then .own (a - 0x0F00000000000000)
  else if 0x0F00000000400000 ≤ a && a < 0x0F00000000800000 then
    .peer ((a - 0x0F00000000400000) / 1048576) (a % 1048576)
  else .reserved

/-- A root slot's package number, when the context's range holds it (R92, R95). -/
def packageSlot (mirror : Word) (j : Nat) : Option Nat :=
  let base := (mirror.extractLsb' 16 12).toNat
  let cnt := (mirror.extractLsb' 0 13).toNat
  if j < cnt && base + j < 4096 then some (base + j) else none

/-! ### Page tables -/

/-- The fields of a page-table entry (R91). -/
def pteV (p : Dword) : Bool := p.getLsbD 0
def pteLeaf (p : Dword) : Bool := p.getLsbD 1
def pteW (p : Dword) : Bool := p.getLsbD 2
def pteX (p : Dword) : Bool := p.getLsbD 3
def pteMir (p : Dword) : Bool := p.getLsbD 4
def pteRes (p : Dword) : Bool := p.getLsbD 5
def pteCp (p : Dword) : Nat := (p.extractLsb' 6 2).toNat
def pteAddr (p : Dword) : Nat := p.toNat / 256 % 17592186044416 * 256

/-- A level of the walk (R89): the lowest address bit that indexes its table, the bits of the index, whether a leaf or a
table entry may stand there, and the size in bytes of the table that a table entry of the level points to. -/
structure Level where
  low : Nat
  bits : Nat
  leafOk : Bool
  tableOk : Bool
  nextSize : Nat
deriving DecidableEq, Repr

/-- The five levels of R89. -/
def walkLevels : List Level :=
  [⟨48, 12, false, true, 4096⟩, ⟨39, 9, false, true, 4096⟩, ⟨30, 9, true, true, 4096⟩, ⟨21, 9, true, true, 256⟩,
   ⟨16, 5, true, false, 0⟩]

/-- Whether an entry met at level `l` is malformed (R91); `mir` when the address lies in the mirror data region. -/
def pteMalformed (p : Dword) (l : Level) (mir : Bool) : Bool :=
  p.toNat / 4503599627370496 != 0 || pteCp p = 3 ||
  (if pteLeaf p then
    !l.leafOk || pteAddr p % 2 ^ l.low != 0 || paKind (pteAddr p) ≥ 2 ||
    paOffset (pteAddr p) + 2 ^ l.low > kindSize (paKind (pteAddr p)) || pteMir p != mir
   else !l.tableOk || pteAddr p % l.nextSize != 0 || pteMir p)

/-- The result of a walk: the leaf with the low address bit of its level, or the first cause met (R92), with RES of the
entry that is not valid (R97). -/
inductive Walked where
  | leaf (p : Dword) (low : Nat)
  | fault (c : Cause) (res : Bool)
deriving DecidableEq, Repr

/-- The walk from a table through the levels left (R89, R92). Where a table does not lie in the DRAM of a die, the entry is read
from the bytes at its address all the same, and an unlisted byte reads 0, so that the entry is not valid (DESIGN CHOICE,
log 75). -/
def State.walkFrom (s : State) (va : Nat) (mir : Bool) (table : Nat) (ls : List Level) : Walked :=
  match ls with
  | [] => .fault .malformed false
  | l :: rest =>
    let p := BitVec.ofNat 64 (s.natAt (table + 8 * (va / 2 ^ l.low % 2 ^ l.bits)) 8)
    if !pteV p then .fault .notmapped (pteRes p)
    else if pteMalformed p l mir then .fault .malformed false
    else if pteLeaf p then .leaf p l.low
    else s.walkFrom va mir (pteAddr p) rest

/-- The walk of an address of context `k` from CXM_ROOT (R89, R92, R95). -/
def State.walk (s : State) (k : Nat) (va : Dword) : Walked :=
  let root := (s.ctx k).root
  if !root.getLsbD 0 then .fault .notmapped false
  else s.walkFrom va.toNat (regionOf va = .mirrorData) (root.toNat / 32768 % 137438953472 * 32768) walkLevels

/-- Whether a TLB entry translates an address of context `k` (R93). -/
def TlbEntry.covers (e : TlbEntry) (k : Nat) (va : Dword) : Bool :=
  e.ctx = k && e.vpn ≤ va.toNat / 65536 && va.toNat / 65536 < e.vpn + 2 ^ e.log2

/-- The leaf that the TLBs of core `c` and its die hold for an address, the core's first (R93). -/
def State.tlbHit (s : State) (c k : Nat) (va : Dword) : Option TlbEntry :=
  ((s.core c).tlb.find? (fun e => e.covers k va)).or ((s.die (dieOfCore c)).tlb.find? (fun e => e.covers k va))

/-- The TLB entry that a walked leaf fills (R93). -/
def tlbEntryOf (k : Nat) (va : Dword) (p : Dword) (low : Nat) : TlbEntry :=
  ⟨k, va.toNat / 2 ^ low * 2 ^ (low - 16), low - 16, p⟩

/-- The physical address that a leaf gives (R86, R91): the page's address with the offset of the virtual address, and on a
mirror page the accessing die's number in DIE. -/
def leafAddr (p : Dword) (log2 : Nat) (va : Dword) (die : Nat) : Nat :=
  let pa := pteAddr p + va.toNat % 2 ^ (log2 + 16)
  if pteMir p then physAddr die (paKind pa) (paOffset pa) else pa

/-- The kinds of access a translation is asked for (R92, R310). -/
inductive Acc where
  | load | store | fetch | engineRead | engineWrite
deriving DecidableEq, Repr

/-- Whether a leaf permits an access (R91, R92). -/
def permits (p : Dword) (a : Acc) : Bool :=
  match a with
  | .load => true
  | .engineRead => true
  | .store => pteW p
  | .engineWrite => pteW p
  | .fetch => pteX p

/-- The code of ACC in a fault record (R310). -/
def Acc.code (a : Acc) : Nat :=
  match a with
  | .load => 0
  | .store => 1
  | .fetch => 2
  | .engineRead => 3
  | .engineWrite => 3

/-- Where an address leads. -/
inductive Target where
  /-- A byte of DRAM or the tier: its location, the leaf's CP, whether the page is a mirror page and RES. -/
  | memory (pa : Nat) (cp : Nat) (mir : Bool) (res : Bool)
  /-- A byte of a scratchpad: its location and the workgroup that owns it. -/
  | spad (loc : Nat) (wg : Nat)
  /-- A root slot: its package number. -/
  | slot (j : Nat)
  /-- Beyond the allocation, or a rank of clu.size or more (R103). -/
  | range
  /-- A member workgroup that has exited (R106). -/
  | exited
  /-- A translation fault; `res` when the page that was found has RES = 1 (R97). -/
  | fault (c : Cause) (res : Bool)
  /-- No TLB holds the translation (R93). -/
  | miss
deriving DecidableEq, Repr

/-- Whether a workgroup has exited (R106): its last group has executed EXIT, or it has been terminated. -/
def State.hasExited (s : State) (k : Nat) : Bool :=
  (s.wg k).state = .ended || (s.wg k).state = .terminated ||
    !(s.groups.any (fun p => p.2.wg = k && p.2.status = .live))

/-- A byte at an offset into the scratchpad of workgroup `k`, within its allocation (R103). -/
def State.spadTarget (s : State) (k off : Nat) : Target :=
  if off < 128 * (s.wg k).lines then .spad (spadLoc (s.wg k).core (128 * (s.wg k).line0 + off)) k else .range

/-- Where a translated address leads by a leaf. -/
def leafTarget (p : Dword) (log2 : Nat) (va : Dword) (die : Nat) (a : Acc) : Target :=
  if permits p a then .memory (leafAddr p log2 va die) (pteCp p) (pteMir p) (pteRes p) else .fault .permission (pteRes p)

/-- Where an address of workgroup `k` leads for an access (R85, R92, R103, R106). An engine access is translated by the TLBs
or by a walk of its own; any other access that no TLB translates is a miss. An address of a member that has exited is that also
beyond the member's allocation (DESIGN CHOICE, log 118). -/
def State.target (s : State) (k : Nat) (va : Dword) (a : Acc) : Target :=
  let w := s.wg k
  match regionOf va with
  | .noncanon => .fault .noncanon false
  | .reserved => .fault .notmapped false
  | .rootSlot j =>
    if a = .fetch then .fault .notmapped false
    else match packageSlot (s.ctx w.ctx).mirror j with
      | some p => .slot p
      | none => .fault .notmapped false
  | .own off => if a = .fetch then .fault .notmapped false else s.spadTarget k off
  | .peer rank off =>
    if a = .fetch then .fault .notmapped false
    else match w.members[rank]? with
      | none => .range
      | some p => if s.hasExited p then .exited else s.spadTarget p off
  | _ =>
    match s.tlbHit w.core w.ctx va with
    | some e => leafTarget e.pte e.log2 va (dieOfCore w.core) a
    | none =>
      if a = .engineRead || a = .engineWrite then
        match s.walk w.ctx va with
        | .leaf p low => leafTarget p (low - 16) va (dieOfCore w.core) a
        | .fault c res => .fault c res
      else .miss

/-- Where an address of context `k` leads for an access by the package itself (firmware, rings, words of packets), made
from die `d`: root slots and scratchpads are not reached. -/
def State.ctxTarget (s : State) (k d : Nat) (va : Dword) (a : Acc) : Target :=
  match regionOf va with
  | .noncanon => .fault .noncanon false
  | .translated | .mirrorData =>
    match s.walk k va with
    | .leaf p low => leafTarget p (low - 16) va d a
    | .fault c res => .fault c res
  | _ => .fault .notmapped false

/-- The location of a target that has bytes. -/
def Target.loc? (t : Target) : Option Nat :=
  match t with
  | .memory pa _ _ _ => some pa
  | .spad l _ => some l
  | _ => none

/-- Reads `n` bytes at a virtual address of context `k` from die `d`, each page translated; none where one does not
translate or lies on a lost die. -/
def State.ctxRead (s : State) (k d : Nat) (va : Dword) (n : Nat) : Option (List Byte) :=
  (List.range n).mapM (fun i =>
    match s.ctxTarget k d (va + BitVec.ofNat 64 i) .load with
    | .memory pa _ _ _ => if (s.die (paDie pa)).lost then none else some (s.byteAt pa)
    | _ => none)

/-- Writes bytes at a virtual address of context `k` from die `d`; none where one byte does not translate, may not be
written or lies on a lost die. -/
def State.ctxWrite (s : State) (k d : Nat) (va : Dword) (bs : List Byte) : Option State :=
  match (List.range bs.length).mapM (fun i =>
    match s.ctxTarget k d (va + BitVec.ofNat 64 i) .store with
    | .memory pa _ _ _ => if (s.die (paDie pa)).lost then none else some (pa, bs.getD i 0)
    | _ => none) with
  | some ws => some (s.storeCells ws)
  | none => none

/-! ### Home and mirror -/

/-- Whether a target is home for a group on die `d` (R36). -/
def Target.home (t : Target) (d : Nat) : Bool :=
  match t with
  | .memory pa _ mir _ => mir || paDie pa = d
  | _ => true

/-- Whether a write by core `c` joins the dirty set of the next superstep (R107): after its arrival in the compute-end
wave, or once the exchange superstep has started. A core that the release of a compute superstep has not reached yet is
in no compute-end wave. -/
def State.lateWrite (s : State) (c : Nat) : Bool :=
  s.root.ph.getLsbD 0 || ((s.core c).arrived && !(s.core c).exchange)

/-- Mirror bytes marked dirty (R107): line by line, the bytes that a write of core `c` in context `k` touches. `va` is the
virtual address of location `loc`. -/
def State.markBytes (s : State) (c k : Nat) (va : Dword) (loc n : Nat) : State :=
  let upd := fun (m : Fmap Dirty) (i : Nat) =>
    let l := loc + i
    let lineVa := BitVec.ofNat 64 ((va.toNat + i) / 64 * 64)
    let old := Fmap.get ⟨0, false, k, lineVa⟩ m (l / 64)
    Fmap.insert m (l / 64) { old with mask := old.mask ||| BitVec.ofNat 64 (2 ^ (l % 64)), ctx := k, va := lineVa }
  if s.lateWrite c then { s with dirtyNext := (List.range n).foldl upd s.dirtyNext }
  else { s with dirty := (List.range n).foldl upd s.dirty }

/-- The tag of a mirror block marked dirty (R107). -/
def State.markTag (s : State) (c k : Nat) (va : Dword) (loc : Nat) : State :=
  let lineVa := BitVec.ofNat 64 (va.toNat / 64 * 64)
  let upd := fun (m : Fmap Dirty) =>
    Fmap.insert m (loc / 64) { Fmap.get ⟨0, false, k, lineVa⟩ m (loc / 64) with tag := true, ctx := k, va := lineVa }
  if s.lateWrite c then { s with dirtyNext := upd s.dirtyNext } else { s with dirty := upd s.dirty }

/-- A root slot marked dirty on the die of core `c` (R108). -/
def State.markSlot (s : State) (c k : Nat) (va : Dword) (j : Nat) : State :=
  let key := dieOfCore c * 4096 + j
  if s.lateWrite c then { s with dirtySlotsNext := Fmap.insert s.dirtySlotsNext key (k, va) }
  else { s with dirtySlots := Fmap.insert s.dirtySlots key (k, va) }

/-! ### L1 lines -/

/-- Bytes of a line of an L1 data cache: the spec gives the cache's size and no line's (DESIGN CHOICE, log 73). -/
def l1LineBytes : Nat := 128

/-- Lines of an L1 data cache, 256 KiB in all (R1). -/
def l1Lines : Nat := 262144 / l1LineBytes

/-- The bit vector of the numbers below `n` that meet `p`. -/
def bitsOf (n : Nat) (p : Nat → Bool) : BitVec n :=
  BitVec.ofNat n (((List.range n).filter p).map (fun i => 2 ^ i)).sum

/-- The L1 line of core `c` that a load of `pa` under policy `cp` hits: DRAM only, and BYPASS looks up none (R101). A load whose
address depends on load `dep` takes no line that was filled before that load (R113). -/
def State.heldLine (s : State) (c pa cp dep : Nat) : Option CacheLine :=
  if paKind pa != 0 || cp = 2 then none
  else (Fmap.find (s.core c).l1 (pa / l1LineBytes)).filter (fun l => dep ≤ l.filled)

/-- A line with bytes written from offset `off`: units written whole are no longer poisoned (R101, R312). -/
def CacheLine.patched (l : CacheLine) (off : Nat) (bs : List Byte) : CacheLine :=
  { l with data := l.data.take off ++ bs ++ l.data.drop (off + bs.length)
           bad := bitsOf 16 (fun k => l.bad.getLsbD k && !(off ≤ 8 * k && 8 * k + 8 ≤ off + bs.length)) }

/-- A write of core `c` updates the L1 line that it hits (R101). -/
def State.updateL1 (s : State) (c pa : Nat) (bs : List Byte) : State :=
  match Fmap.find (s.core c).l1 (pa / l1LineBytes) with
  | some l => s.setCore c { s.core c with
      l1 := Fmap.insert (s.core c).l1 (pa / l1LineBytes) (l.patched (pa % l1LineBytes) bs) }
  | none => s

/-- Bytes that core `c` in context `k` writes at a target reached through `va`: the bytes change, the core's L1 follows
(R101), and mirror bytes are marked dirty (R107). -/
def State.writeTarget (s : State) (c k : Nat) (va : Dword) (t : Target) (bs : List Byte) : State :=
  match t with
  | .memory pa _ true _ => ((s.storeCells (cellsOf pa bs)).updateL1 c pa bs).markBytes c k va pa bs.length
  | .memory pa _ false _ => (s.storeCells (cellsOf pa bs)).updateL1 c pa bs
  | .spad l _ => s.storeCells (cellsOf l bs)
  | _ => s

/-! ### Filling and leaving L1 -/

/-- The line of `pa` as memory has it now. -/
def State.lineFrom (s : State) (pa : Nat) (stream : Bool) : CacheLine :=
  let base := pa / l1LineBytes * l1LineBytes
  ⟨stream, s.bytesAt base l1LineBytes, bitsOf 16 (fun k => Fmap.get false s.poison (base / 8 + k)), s.nextId⟩

/-- The lines that may be evicted next: those that STREAM loads filled, and any line where there are none (R101). -/
def evictable (m : Fmap CacheLine) : List Nat :=
  let first := Fmap.keys (Fmap.select m (fun _ l => l.stream))
  if first.isEmpty then Fmap.keys m else first

/-- Line number `l` taken out of core `c`'s L1. -/
def State.eraseL1 (s : State) (c l : Nat) : State := s.setCore c { s.core c with l1 := Fmap.erase (s.core c).l1 l }

/-- The line of `pa` removed from core `c`'s L1 (R101). -/
def State.dropL1 (s : State) (c pa : Nat) : State := s.eraseL1 c (pa / l1LineBytes)

/-- Room for one more line in core `c`'s L1: a full cache evicts a line, and which of those that may go is free (log 7). -/
def State.makeRoomL1 (s : State) (c : Nat) : State :=
  let l := (s.core c).l1
  if l.length < l1Lines then s
  else s.drawn.eraseL1 c ((evictable l).getD (Config.victimPick s.free % (evictable l).length) 0)

/-- A DRAM line looked up and filled by a load under policy `cp` whose address depends on load `dep` (R101, R113). -/
def State.fillL1 (s : State) (c pa cp dep : Nat) : State :=
  if paKind pa != 0 || cp = 2 || (s.heldLine c pa cp dep).isSome then s
  else
    let t := (s.eraseL1 c (pa / l1LineBytes)).makeRoomL1 c
    t.setCore c { t.core c with l1 := Fmap.insert (t.core c).l1 (pa / l1LineBytes) (s.lineFrom pa (cp = 1)) }

/-- Line number `l` leaves core `c`'s L1 where it may be evicted (R101, log 7). -/
def State.leaveL1 (s : State) (c l : Nat) : State := if (evictable (s.core c).l1).contains l then s.eraseL1 c l else s

/-- Every line of core `c`'s L1 invalidated (R102). -/
def State.clearL1 (s : State) (c : Nat) : State := s.setCore c { s.core c with l1 := [] }

/-! ### Race detector -/

/-- The shadow of the sector that holds `loc` (R127). -/
def State.shadowAt (s : State) (loc : Nat) : Option Shadow := Fmap.find s.shadow (loc / 32)

/-- Whether a scope of group `g` holds group `h` (R114, R139): .grp the group itself, .wg its workgroup, .clu its cluster,
.die its die, .pkg and .fab every group. -/
def State.scopeHolds (s : State) (scope g h : Nat) : Bool :=
  match scope with
  | 0 => g = h
  | 1 => (s.group g).wg = (s.group h).wg
  | 2 => (s.wgOf g).members.contains (s.group h).wg || (s.group g).wg = (s.group h).wg
  | 3 => s.dieOf g = s.dieOf h
  | _ => true

/-- Whether an access of group `g` to the sector of `loc` conflicts (R128). -/
def State.races (s : State) (g loc : Nat) (atomic : Bool) (scope : Nat) : Bool :=
  match s.shadowAt loc with
  | none => false
  | some h =>
    h.g != g && (s.group h.g).interval = h.interval &&
      !(atomic && h.atomic && s.scopeHolds scope g h.g && s.scopeHolds h.scope h.g g)

/-- The shadow updated by a write of group `g` (R127, R128), for memory and not for scratchpads. A record stays until another
write replaces it, whatever becomes of MODE, of the context and of the group (DESIGN CHOICE, log 80). -/
def State.shade (s : State) (g : Nat) (t : Target) (n : Nat) (atomic : Bool) (scope : Nat) : State :=
  if (s.ctx (s.ctxOf g)).race = 0 then s
  else match t with
    | .memory pa _ _ _ =>
      let put := fun (m : Fmap Shadow) (k : Nat) => Fmap.insert m k ⟨g, (s.group g).interval, scope, atomic⟩
      { s with shadow := (distinct ((List.range n).map (fun i => (pa + i) / 32))).foldl put s.shadow }
    | _ => s

end Sys2Proof.Machine
end

