-- ==== Sys2Proof/Machine/Operands.lean ====
section
/-! DEFINITION. What every encoded instruction declares of itself (R130 to R135, R138 to R146): its word, its class in the
table of R37, the register operands it reads and writes with their places in the order of last-read bits (R132), its
predicate, the modifiers and the immediate it accepts (R134, R135), and the encodings it refuses (R146). -/

namespace Sys2Proof.Machine

/-- The instruction classes of the table of R37. -/
inductive Class where
  | scalar | vector | memory | reader | rcu | gpwait | barrier | future | idem | xclass | phend
deriving DecidableEq, Repr

/-- The files that a register field names. -/
inductive RFile where
  | s | v | tile
deriving DecidableEq, Repr

/-- A register operand that an instruction reads: its file, first register, how many (0 for the mask group of
max(1, w/32) registers, R204), the alignment of a group, its last-read bit (R132), whether reading it is an ordinary
read of a future (R235), and which lanes of a vector register are read: 0 the executing lanes, k every k-th lane, 160 lanes 0
to 31 unless no lane executes (R256). -/
structure Src where
  file : RFile
  reg : Nat
  n : Nat := 1
  align : Nat := 1
  bit : Option Nat := none
  ordinary : Bool := true
  lanes : Nat := 0
deriving DecidableEq, Repr

/-- A register operand that an instruction writes. -/
structure Dst where
  file : RFile
  reg : Nat
  n : Nat := 1
  align : Nat := 1
deriving DecidableEq, Repr

/-- What an encoded instruction declares. `legal` is given the bundle's immediate; `idleReads` is false for the operations that
read no operand under a zero execute mask (R262). -/
structure Info where
  word : Nat
  cls : Class
  srcs : List Src := []
  dsts : List Dst := []
  pred : Nat := 0
  legal : Option Word → Bool := fun _ => true
  minWidth : Nat := 8
  imm : Bool := false
  re : Bool := false
  se : Bool := false
  ce : Bool := false
  idemTrap : Bool := false
  idleReads : Bool := true

/-! ### Operand shorthands -/

/-- A scalar or vector source. -/
def sSrc (r : BitVec 6) (b : Nat) : Src := { file := .s, reg := r.toNat, bit := some b }
def vSrc (r : BitVec 6) (b : Nat) : Src := { file := .v, reg := r.toNat, bit := some b }

/-- A pair (R47), or a single register when `wide` is false. -/
def sPair (wide : Bool) (r : BitVec 6) (b : Nat) : Src :=
  { file := .s, reg := r.toNat, n := if wide then 2 else 1, align := if wide then 2 else 1, bit := some b }
def vPair (wide : Bool) (r : BitVec 6) (b : Nat) : Src :=
  { file := .v, reg := r.toNat, n := if wide then 2 else 1, align := if wide then 2 else 1, bit := some b }

/-- A group of `n` registers aligned to `a`. -/
def sGroup (n a : Nat) (r : BitVec 6) (b : Nat) : Src := { file := .s, reg := r.toNat, n := n, align := a, bit := some b }
def vGroup (n a : Nat) (r : BitVec 6) (b : Nat) : Src := { file := .v, reg := r.toNat, n := n, align := a, bit := some b }

/-- A destination: one register, a pair, or a group. -/
def sDst (r : BitVec 6) : Dst := { file := .s, reg := r.toNat }
def vDst (r : BitVec 6) : Dst := { file := .v, reg := r.toNat }
def sDst2 (wide : Bool) (r : BitVec 6) : Dst := { file := .s, reg := r.toNat, n := if wide then 2 else 1, align := if wide then 2 else 1 }
def vDst2 (wide : Bool) (r : BitVec 6) : Dst := { file := .v, reg := r.toNat, n := if wide then 2 else 1, align := if wide then 2 else 1 }

/-- The old value of a destination read as an operand; it has no last-read bit of its own (R132). -/
def vAcc (wide : Bool) (r : BitVec 6) : Src :=
  { file := .v, reg := r.toNat, n := if wide then 2 else 1, align := if wide then 2 else 1 }

/-! ### Checks on coded fields -/

/-- The alignment that a register group of `n` needs is met and its last register is at most 59 (R130). -/
def groupOk (reg n align : Nat) : Bool := reg % align = 0 && reg + n ≤ 60

/-- A single source may carry a latch code; a larger group may not (R130). -/
def Src.ok (o : Src) (w : Nat) : Bool :=
  if o.n = 0 then (if w ≤ 32 then true else groupOk o.reg (w / 32) (w / 32))
  else if o.n = 1 then true else groupOk o.reg o.n o.align

/-- A destination is never a latch (R130). -/
def Dst.ok (o : Dst) (w : Nat) : Bool :=
  if o.n = 0 then (if w ≤ 32 then o.reg < 60 else groupOk o.reg (w / 32) (w / 32)) else groupOk o.reg o.n o.align

/-- The width classes of TA and TB (R139): both 16-bit, both 8-bit or both 4-bit. -/
def typesOk (x y : Nat) : Bool :=
  (x ≤ 1 && y ≤ 1) || ((x = 2 || x = 3 || x = 6) && (y = 2 || y = 3 || y = 6)) || ((x = 4 || x = 5) && (y = 4 || y = 5))

/-- The element width in bits of a type code of R138. -/
def typeBits (t : Nat) : Nat :=
  if t = 0 then 32 else if t ≤ 2 then 16 else if t ≤ 4 then 8 else if t ≤ 6 then 4 else if t ≤ 8 then 8
  else if t ≤ 10 then 16 else if t ≤ 12 then 32 else 64

/-- SEL of VCVT (R205): the bound of the element index. -/
def selBound (st dt : Nat) : Nat :=
  let a := typeBits st
  let b := typeBits dt
  if a < 32 && b < 32 then 32 / max a b else if a < 32 then 32 / a else if b < 32 then 32 / b else 1

/-- Effective offsets of VIF (R134, R141). -/
def vifOffsets (f : FmtVif) (imm : Option Word) : Nat × Nat :=
  match imm with
  | some x => (x.toNat / 65536, x.toNat % 65536)
  | none => (f.e.toNat, f.o.toNat)

/-- Effective offset of VLOOP and VWHILE (R134, R141), none when bits [31:16] of the immediate are not zero. -/
def loopOffset (o : Nat) (imm : Option Word) : Option Nat :=
  match imm with
  | some x => if x.toNat < 65536 then some x.toNat else none
  | none => some o

/-- Whether the number of a special register may be read by SGET (R49, R50). -/
def sgetOk (r : Nat) : Bool :=
  (0x010 ≤ r && r ≤ 0x018) || (0x020 ≤ r && r ≤ 0x023) || r = 0x028 || r = 0x029 || (0x030 ≤ r && r ≤ 0x032) ||
    (0x040 ≤ r && r ≤ 0x045)

/-- The 64-bit special registers (R49). -/
def spr64 (r : Nat) : Bool := r = 0x040 || r = 0x041

/-! ### Format by format -/

/-- SALU with two sources: `r32` for a 32-bit destination, `sh` for the functions whose B is one register (R158). -/
def infoS (base : Nat) (r32 sh : Bool) (f : FmtS) : Info :=
  { word := base + f.pack, cls := .scalar
    srcs := [sPair (f.l = 1) f.a 0, sPair (f.l = 1 && !sh) f.b 1], dsts := [sDst2 (f.l = 1 && !r32) f.d] }

/-- SALU with one source (R158). -/
def infoS1 (base : Nat) (r32 : Bool) (f : FmtS1) : Info :=
  { word := base + f.pack, cls := .scalar, srcs := [sPair (f.l = 1) f.a 0], dsts := [sDst2 (f.l = 1 && !r32) f.d] }

/-- SALUI (R159): the effective shift count of a shift is below 32. -/
def infoSi (base : Nat) (sh : Bool) (f : FmtSi) : Info :=
  { word := base + f.pack, cls := .scalar, srcs := [sSrc f.a 0], dsts := [sDst f.d], imm := true
    legal := fun i => !sh || (match i with | some x => x.toNat < 32 | none => f.i.toNat < 32) }

/-- Branches (R163). -/
def infoBc (base : Nat) (f : FmtBc) : Info :=
  { word := base + f.pack, cls := .scalar, srcs := [sSrc f.a 0], imm := true }

/-- A control function without fields. -/
def infoCtl (base : Nat) (c : Class) : Info := { word := base, cls := c }

/-- Lane-wise instructions with two vector sources. -/
def infoV (base : Nat) (f : FmtV) : Info :=
  { word := base + f.pack, cls := .vector, srcs := [vSrc f.a 0, vSrc f.b 1], dsts := [vDst f.d], pred := f.p.toNat }

/-- Float arithmetic with two sources; `acc` when D is an operand (R197). -/
def infoVf (base : Nat) (acc : Bool) (f : FmtV) : Info :=
  { infoV base f with
    re := true, srcs := [vSrc f.a 0, vSrc f.b 1] ++ (if acc then [vAcc false f.d] else []) }

/-- VMAD (R200). -/
def infoVmad (base : Nat) (f : FmtV) : Info :=
  { infoV base f with srcs := [vSrc f.a 0, vSrc f.b 1, vAcc false f.d] }

/-- VI64 (R201): `sh` for the shifts, whose B is one register. -/
def infoV64 (base : Nat) (sh : Bool) (f : FmtV) : Info :=
  { infoV base f with srcs := [vPair true f.a 0, vPair (!sh) f.b 1], dsts := [vDst2 true f.d] }

/-- VX whose B names a vector (R214, R215). -/
def infoVx (base : Nat) (f : FmtV) : Info :=
  { infoV base f with srcs := [{ vSrc f.a 0 with lanes := 1 }, { vSrc f.b 1 with lanes := 1 }] }

/-- VX whose B names a scalar (R215). -/
def infoVxs (base : Nat) (f : FmtV) : Info :=
  { infoV base f with srcs := [{ vSrc f.a 0 with lanes := 1 }, sSrc f.b 1] }

/-- Lane-wise instructions with one vector source. -/
def infoV1 (base : Nat) (f : FmtV1) : Info :=
  { word := base + f.pack, cls := .vector, srcs := [vSrc f.a 0], dsts := [vDst f.d], pred := f.p.toNat }

/-- Float instructions with one source: they accept a rounding mode (R135). -/
def infoVf1 (base : Nat) (f : FmtV1) : Info := { infoV1 base f with re := true }

/-- VRED (R214, R216), which reads its source in every lane; a float function accepts a rounding mode (R135). -/
def infoVr (base : Nat) (f : FmtV1) : Info := { infoV1 base f with srcs := [{ vSrc f.a 0 with lanes := 1 }] }
def infoVrf (base : Nat) (f : FmtV1) : Info := { infoVr base f with re := true }

/-- VCMP (R203): the types that each relation accepts; UN and OR with .f32 only (R139). -/
def infoVm (base : Nat) (un : Bool) (f : FmtVm) : Info :=
  let w := f.t = 13 || f.t = 14
  { word := base + f.pack, cls := .vector, srcs := [vPair w f.a 0, vPair w f.b 1], pred := f.p.toNat
    legal := fun _ => f.d != 0 && (f.t = 0 || (!un && (f.t = 11 || f.t = 12 || f.t = 13 || f.t = 14))) }

/-- VCVT and VCVTQ (R205, R206). -/
def infoVc (base : Nat) (f : FmtVc) : Info :=
  let st := f.s.toNat
  let dt := f.t.toNat
  { word := base + f.pack, cls := .vector, re := true, pred := f.p.toNat
    srcs := [vPair (typeBits st = 64) f.a 0] ++ (if typeBits dt < 32 then [vAcc false f.d] else [])
    dsts := [vDst2 (typeBits dt = 64) f.d]
    legal := fun _ => st < 15 && dt < 15 && st != dt && f.e.toNat < selBound st dt }

/-- VBLK (R208): the budget is accepted with i4x only, and the group is at least one segment wide. -/
def blkLegal (f : BitVec 2) (imm : Option Word) : Bool :=
  match imm with
  | some x => f = 3 && x.toNat < 32
  | none => true

def blkWidth (f : BitVec 2) : Nat := if f.toNat < 2 then 16 else 32

def infoBscale (base : Nat) (f : FmtBscale) : Info :=
  { word := base + f.pack, cls := .vector, re := true, imm := true, legal := blkLegal f.f, minWidth := blkWidth f.f
    srcs := [vGroup 4 4 f.a 0], dsts := [vDst f.d], pred := f.p.toNat }

def infoQuant (base : Nat) (f : FmtQuant) : Info :=
  { word := base + f.pack, cls := .vector, re := true, imm := true, legal := blkLegal f.f, minWidth := blkWidth f.f
    srcs := [vGroup 4 4 f.a 0, { vSrc f.b 1 with lanes := if f.f.toNat < 2 then 16 else 32 }], dsts := [vDst f.d], pred := f.p.toNat }

def infoDeq (base : Nat) (f : FmtQuant) : Info :=
  { word := base + f.pack, cls := .vector, re := true, imm := true, legal := blkLegal f.f, minWidth := blkWidth f.f
    srcs := [{ vSrc f.a 0 with lanes := 1 }, { vSrc f.b 1 with lanes := if f.f.toNat < 2 then 16 else 32 }], dsts := [{ file := .v, reg := f.d.toNat, n := 4, align := 4 }], pred := f.p.toNat }

/-- VLD and VST (R221, R135, R139). -/
def infoVld (base : Nat) (f : FmtVld) : Info :=
  { word := base + f.pack, cls := .memory, imm := true, se := f.r = 1, ce := true, pred := f.p.toNat
    srcs := [sPair true f.a 0, if f.t = 1 then sSrc f.i 1 else vSrc f.i 1], dsts := [vDst2 (f.z = 3) f.d]
    legal := fun _ => f.x = 0 || f.z.toNat < 2 }

def infoVst (base : Nat) (f : FmtVst) : Info :=
  { word := base + f.pack, cls := .memory, imm := true, se := f.r = 1, ce := true, pred := f.p.toNat
    srcs := [sPair true f.a 0, if f.t = 1 then sSrc f.i 1 else vSrc f.i 1, vPair (f.z = 3) f.d 2] }

/-- SLD and SST (R222). -/
def infoSld (base : Nat) (f : FmtSld) : Info :=
  { word := base + f.pack, cls := .memory, imm := true, se := f.r = 1, ce := true
    srcs := [sPair true f.a 0], dsts := [sDst2 (f.z = 3) f.d], legal := fun _ => f.x = 0 || f.z.toNat < 2 }

def infoSst (base : Nat) (f : FmtSst) : Info :=
  { word := base + f.pack, cls := .memory, imm := true, se := f.r = 1, ce := true
    srcs := [sPair true f.a 0, sPair (f.z = 3) f.d 2] }

/-- The B operand of an atomic (R225): one register, a pair, or for compare-and-swap a pair or a quad. -/
def atB (v : Bool) (wide cas : Bool) (b : BitVec 6) : Src :=
  let n := (if wide then 2 else 1) * (if cas then 2 else 1)
  { file := if v then .v else .s, reg := b.toNat, n := n, align := n, bit := some 1 }

/-- VATOM and BANK with the width `wide` (R225 to R227); `se` for VATOM, `re` for its float add. -/
def infoAt (word : Nat) (d a b : BitVec 6) (p : BitVec 2) (wide cas se re : Bool) : Info :=
  { word := word, cls := .memory, se := se, re := re, pred := p.toNat
    srcs := [vPair true a 0, atB true wide cas b], dsts := [vDst2 wide d] }

/-- SATOM (R226). -/
def infoSat (word : Nat) (d a b : BitVec 6) (wide cas re : Bool) : Info :=
  { word := word, cls := .memory, se := true, re := re
    srcs := [sPair true a 0, atB false wide cas b], dsts := [sDst2 wide d] }

/-- XPUT, XGET and COLL (R249, R250). -/
def infoX (base : Nat) (f : FmtX) : Info :=
  { word := base + f.pack, cls := .xclass, srcs := [sPair true f.a 0, sPair true f.b 1, sSrc f.c 2] }

/-- MMAS (R257, R259): two descriptor pairs. -/
def infoMmas (base : Nat) (f : FmtMma) : Info :=
  { word := base + f.pack, cls := .vector, re := true, pred := f.p.toNat, idleReads := false
    srcs := [sGroup 2 2 f.a 0, sGroup 2 2 f.b 1], legal := fun _ => typesOk f.x.toNat f.y.toNat }

/-- A tile read as a source operand, third in the order (R132). -/
def tileSrc (c : BitVec 2) : Src := { file := .tile, reg := c.toNat, bit := some 2 }

/-- An HMOD word on its own (R133, R135): no reserved scope or policy, and the field of a disabled modifier is zero. -/
def hmodOk (f : FmtHmod) : Bool :=
  f.c.toNat < 6 && f.k != 3 && (f.e = 1 || f.r = 0) && (f.s = 1 || f.c = 0) && (f.g = 1 || f.k = 0)

/-! ### Every encoded instruction -/

/-- An event declares nothing. -/
def infoEvent : Info := { word := 0, cls := .scalar }

/-- What an instruction declares (R141 to R145). -/
@[inline] def Instr.info (i : Instr) : Info :=
  match i with
  | .sadd f => infoS 0x04000000 false false f
  | .ssub f => infoS 0x04000008 false false f
  | .smul f => infoS 0x04000010 false false f
  | .smulhI f => infoS 0x04000018 false false f
  | .smulhN f => infoS 0x04000020 false false f
  | .sdivI f => infoS 0x04000028 false false f
  | .sdivN f => infoS 0x04000030 false false f
  | .sremI f => infoS 0x04000038 false false f
  | .sremN f => infoS 0x04000040 false false f
  | .sand f => infoS 0x04000048 false false f
  | .sor f => infoS 0x04000050 false false f
  | .sxor f => infoS 0x04000058 false false f
  | .sshl f => infoS 0x04000060 false true f
  | .sshrN f => infoS 0x04000068 false true f
  | .sshrI f => infoS 0x04000070 false true f
  | .sminI f => infoS 0x04000078 false false f
  | .smaxI f => infoS 0x04000080 false false f
  | .sminN f => infoS 0x04000088 false false f
  | .smaxN f => infoS 0x04000090 false false f
  | .sseq f => infoS 0x04000098 true false f
  | .ssne f => infoS 0x040000a0 true false f
  | .ssltI f => infoS 0x040000a8 true false f
  | .ssltN f => infoS 0x040000b0 true false f
  | .ssleI f => infoS 0x040000b8 true false f
  | .ssleN f => infoS 0x040000c0 true false f
  | .smov f => infoS1 0x040000c8 false f
  | .spopc f => infoS1 0x040000d0 true f
  | .sclz f => infoS1 0x040000d8 true f
  | .saddi f => infoSi 0x08000000 false f
  | .sandi f => infoSi 0x08000400 false f
  | .sori f => infoSi 0x08000800 false f
  | .sxori f => infoSi 0x08000c00 false f
  | .sshli f => infoSi 0x08001000 true f
  | .sshriN f => infoSi 0x08001400 true f
  | .sshriI f => infoSi 0x08001800 true f
  | .ssltiI f => infoSi 0x08001c00 false f
  | .ssltiN f => infoSi 0x08002000 false f
  | .smovi f => { word := 0x08002400 + f.pack, cls := .scalar, dsts := [sDst f.d], imm := true }
  | .sget f =>
    { word := 0x0c000000 + f.pack, cls := .scalar, dsts := [sDst2 (spr64 f.r.toNat) f.d]
      legal := fun _ => sgetOk f.r.toNat }
  | .sset f => { word := 0x0c001000 + f.pack, cls := .scalar, srcs := [sSrc f.a 0], legal := fun _ => f.r = 0x013 }
  | .vget f =>
    { word := 0x0c002000 + f.pack, cls := .vector, dsts := [vDst f.d], pred := f.p.toNat, legal := fun _ => f.r.toNat < 3 }
  | .vset f =>
    { word := 0x0c003000 + f.pack, cls := .vector, srcs := [{ vSrc f.a 0 with lanes := 1 }], pred := f.p.toNat, legal := fun _ => f.r = 2 }
  | .bz f => infoBc 0x10000000 f
  | .bnz f => infoBc 0x10020000 f
  | .bltz f => infoBc 0x10040000 f
  | .bgez f => infoBc 0x10060000 f
  | .bgtz f => infoBc 0x10080000 f
  | .blez f => infoBc 0x100a0000 f
  | .jmp f => { word := 0x14000000 + f.pack, cls := .scalar, imm := true }
  | .call f => { word := 0x18000000 + f.pack, cls := .scalar, imm := true }
  | .nop => infoCtl 0x1c000000 .scalar
  | .ret => infoCtl 0x1c100000 .scalar
  | .jmpi f => { word := 0x1c200000 + f.pack, cls := .scalar, srcs := [sPair true f.a 0] }
  | .calli f => { word := 0x1c300000 + f.pack, cls := .scalar, srcs := [sPair true f.a 0] }
  | .exit => infoCtl 0x1c400000 .scalar
  | .yield => infoCtl 0x1c500000 .scalar
  | .snap => infoCtl 0x1c600000 .scalar
  | .trap f => { word := 0x1c700000 + f.pack, cls := .scalar }
  | .velse => infoCtl 0x1c800000 .scalar
  | .vend => infoCtl 0x1c900000 .scalar
  | .phend => { infoCtl 0x1ca00000 .phend with idemTrap := true }
  | .xend => { infoCtl 0x1cb00000 .xclass with idemTrap := true }
  | .idemb => { infoCtl 0x1cc00000 .idem with idemTrap := true }
  | .ideme => infoCtl 0x1cd00000 .idem
  | .rdenter => infoCtl 0x1ce00000 .reader
  | .rdexit => infoCtl 0x1cf00000 .reader
  | .gpwait => infoCtl 0x1d000000 .gpwait
  | .fence f => { word := 0x1d100000 + f.pack, cls := .scalar, legal := fun _ => f.c.toNat < 6 }
  | .dlaunch f =>
    { word := 0x1d200000 + f.pack, cls := .idem, srcs := [sPair true f.a 0], dsts := [sDst f.d], idemTrap := true }
  | .vif f =>
    { word := 0x20000000 + f.pack, cls := .scalar, imm := true
      legal := fun i => 1 ≤ (vifOffsets f i).2 && (vifOffsets f i).1 < (vifOffsets f i).2 }
  | .vloop f =>
    { word := 0x24000000 + f.pack, cls := .scalar, imm := true
      legal := fun i => (loopOffset f.o.toNat i).any (fun o => 1 ≤ o) }
  | .vwhile f =>
    { word := 0x28000000 + f.pack, cls := .scalar, imm := true
      legal := fun i => (loopOffset f.o.toNat i).any (fun o => 1 ≤ o) }
  | .gsplit f => { word := 0x2c000000 + f.pack, cls := .scalar, dsts := [sDst f.d], legal := fun _ => f.w.toNat < 3 }
  | .gfuse f =>
    { word := 0x2c040000 + f.pack, cls := .scalar, dsts := [sDst f.d], legal := fun _ => 1 ≤ f.w.toNat && f.w.toNat < 5 }
  | .gcompact f => { word := 0x2c080000 + f.pack, cls := .scalar, dsts := [sDst f.d] }
  | .barb f => { word := 0x30000000 + f.pack, cls := .barrier, srcs := [sGroup 3 2 f.a 0, sSrc f.b 1] }
  | .barn f => { word := 0x30001000 + f.pack, cls := .barrier, srcs := [sPair true f.a 0, sSrc f.b 1] }
  | .barc f => { word := 0x30002000 + f.pack, cls := .barrier, srcs := [sPair true f.a 0, sSrc f.b 1] }
  -- BLSET and BLCLR stand in no row of R37; they take the class of the barriers (DESIGN CHOICE, log 78).
  | .blset f => { word := 0x30003800 + f.pack, cls := .barrier, srcs := [sSrc f.b 1] }
  | .blclr f => { word := 0x30003000 + f.pack, cls := .barrier, srcs := [sSrc f.b 1] }
  | .vaddF32 f => infoVf 0x40000000 false f
  | .vsubF32 f => infoVf 0x40000010 false f
  | .vmulF32 f => infoVf 0x40000020 false f
  | .vfmaF32 f => infoVf 0x40000030 true f
  | .vfmsF32 f => infoVf 0x40000040 true f
  | .vminF32 f => infoVf 0x40000050 false f
  | .vmaxF32 f => infoVf 0x40000060 false f
  | .vdivF32 f => infoVf 0x40000070 false f
  | .vabsF32 f => infoVf1 0x40000080 f
  | .vnegF32 f => infoVf1 0x40000090 f
  | .vrcpF32 f => infoVf1 0x400000a0 f
  | .vrsqF32 f => infoVf1 0x400000b0 f
  | .vsqrtF32 f => infoVf1 0x400000c0 f
  | .vexp2F32 f => infoVf1 0x400000d0 f
  | .vlog2F32 f => infoVf1 0x400000e0 f
  | .vtanhF32 f => infoVf1 0x400000f0 f
  | .vaddF16 f => infoVf 0x44000000 false f
  | .vsubF16 f => infoVf 0x44000010 false f
  | .vmulF16 f => infoVf 0x44000020 false f
  | .vfmaF16 f => infoVf 0x44000030 true f
  | .vfmsF16 f => infoVf 0x44000040 true f
  | .vminF16 f => infoVf 0x44000050 false f
  | .vmaxF16 f => infoVf 0x44000060 false f
  | .vdivF16 f => infoVf 0x44000070 false f
  | .vabsF16 f => infoVf1 0x44000080 f
  | .vnegF16 f => infoVf1 0x44000090 f
  | .vrcpF16 f => infoVf1 0x440000a0 f
  | .vrsqF16 f => infoVf1 0x440000b0 f
  | .vsqrtF16 f => infoVf1 0x440000c0 f
  | .vexp2F16 f => infoVf1 0x440000d0 f
  | .vlog2F16 f => infoVf1 0x440000e0 f
  | .vtanhF16 f => infoVf1 0x440000f0 f
  | .vaddBf16 f => infoVf 0x48000000 false f
  | .vsubBf16 f => infoVf 0x48000010 false f
  | .vmulBf16 f => infoVf 0x48000020 false f
  | .vfmaBf16 f => infoVf 0x48000030 true f
  | .vfmsBf16 f => infoVf 0x48000040 true f
  | .vminBf16 f => infoVf 0x48000050 false f
  | .vmaxBf16 f => infoVf 0x48000060 false f
  | .vdivBf16 f => infoVf 0x48000070 false f
  | .vabsBf16 f => infoVf1 0x48000080 f
  | .vnegBf16 f => infoVf1 0x48000090 f
  | .vrcpBf16 f => infoVf1 0x480000a0 f
  | .vrsqBf16 f => infoVf1 0x480000b0 f
  | .vsqrtBf16 f => infoVf1 0x480000c0 f
  | .vexp2Bf16 f => infoVf1 0x480000d0 f
  | .vlog2Bf16 f => infoVf1 0x480000e0 f
  | .vtanhBf16 f => infoVf1 0x480000f0 f
  | .vaddI32 f => infoV 0x4c000000 f
  | .vsubI32 f => infoV 0x4c000010 f
  | .vmulI32 f => infoV 0x4c000020 f
  | .vmadI32 f => infoVmad 0x4c000030 f
  | .vminI32 f => infoV 0x4c000040 f
  | .vmaxI32 f => infoV 0x4c000050 f
  | .vmulhI32 f => infoV 0x4c000060 f
  | .vaddsI32 f => infoV 0x4c000070 f
  | .vsubsI32 f => infoV 0x4c000080 f
  | .vshlI32 f => infoV 0x4c000090 f
  | .vshrI32 f => infoV 0x4c0000a0 f
  | .vdivI32 f => infoV 0x4c0000b0 f
  | .vremI32 f => infoV 0x4c0000c0 f
  | .vabsI32 f => infoV1 0x4c0000d0 f
  | .vaddN32 f => infoV 0x50000000 f
  | .vsubN32 f => infoV 0x50000010 f
  | .vmulN32 f => infoV 0x50000020 f
  | .vmadN32 f => infoVmad 0x50000030 f
  | .vminN32 f => infoV 0x50000040 f
  | .vmaxN32 f => infoV 0x50000050 f
  | .vmulhN32 f => infoV 0x50000060 f
  | .vaddsN32 f => infoV 0x50000070 f
  | .vsubsN32 f => infoV 0x50000080 f
  | .vshlN32 f => infoV 0x50000090 f
  | .vshrN32 f => infoV 0x500000a0 f
  | .vdivN32 f => infoV 0x500000b0 f
  | .vremN32 f => infoV 0x500000c0 f
  | .vaddI64 f => infoV64 0x54000000 false f
  | .vsubI64 f => infoV64 0x54000010 false f
  | .vminI64 f => infoV64 0x54000020 false f
  | .vmaxI64 f => infoV64 0x54000030 false f
  | .vminN64 f => infoV64 0x54000040 false f
  | .vmaxN64 f => infoV64 0x54000050 false f
  | .vshlI64 f => infoV64 0x54000060 true f
  | .vshrN64 f => infoV64 0x54000070 true f
  | .vshrI64 f => infoV64 0x54000080 true f
  | .vand f => infoV 0x58000000 f
  | .vor f => infoV 0x58000010 f
  | .vxor f => infoV 0x58000020 f
  | .vandn f => infoV 0x58000030 f
  | .vnot f => infoV1 0x58000040 f
  | .vmov f => infoV1 0x58000050 f
  | .vbs f => { infoV1 0x58000060 f with srcs := [sSrc f.a 0] }
  | .vimm f =>
    { word := 0x58000070 + f.pack, cls := .vector, dsts := [vDst f.d], pred := f.p.toNat, imm := true
      legal := fun i => i.isSome }
  | .vsel f => { infoV 0x58000080 f with pred := 0 }
  | .vpopc f => infoV1 0x58000090 f
  | .vclz f => infoV1 0x580000a0 f
  | .vceq f => infoVm 0x5c000000 false f
  | .vcne f => infoVm 0x5c100000 false f
  | .vclt f => infoVm 0x5c200000 false f
  | .vcle f => infoVm 0x5c300000 false f
  | .vcgt f => infoVm 0x5c400000 false f
  | .vcge f => infoVm 0x5c500000 false f
  | .vcun f => infoVm 0x5c600000 true f
  | .vcor f => infoVm 0x5c700000 true f
  | .vcvt f => infoVc 0x60000000 f
  | .vcvtq f => infoVc 0x64000000 f
  | .mand f => { word := 0x68000000 + f.pack, cls := .vector, legal := fun _ => f.d != 0 }
  | .mor f => { word := 0x68002000 + f.pack, cls := .vector, legal := fun _ => f.d != 0 }
  | .mxor f => { word := 0x68004000 + f.pack, cls := .vector, legal := fun _ => f.d != 0 }
  | .mandn f => { word := 0x68006000 + f.pack, cls := .vector, legal := fun _ => f.d != 0 }
  | .mnot f => { word := 0x68008000 + f.pack, cls := .vector, legal := fun _ => f.d != 0 }
  | .mmov f => { word := 0x6800a000 + f.pack, cls := .vector, legal := fun _ => f.d != 0 }
  | .mlds f =>
    { word := 0x6800c000 + f.pack, cls := .vector, srcs := [{ file := .s, reg := f.x.toNat, n := 0, bit := some 0 }]
      legal := fun _ => f.d != 0 }
  | .msts f => { word := 0x6800e000 + f.pack, cls := .vector, dsts := [{ file := .s, reg := f.x.toNat, n := 0 }] }
  | .mpopc f => { word := 0x68010000 + f.pack, cls := .vector, dsts := [sDst f.x] }
  | .mfirst f => { word := 0x68012000 + f.pack, cls := .vector, dsts := [sDst f.x] }
  | .vballot f =>
    { word := 0x68014000 + f.pack, cls := .vector, srcs := [{ vSrc f.x 0 with lanes := 1 }], pred := f.p.toNat
      legal := fun _ => f.d != 0 }
  | .vshfl f => infoVx 0x6c000000 f
  | .vshfx f => infoVx 0x6c000010 f
  | .vrot f => infoVxs 0x6c000020 f
  | .vbcast f => infoVxs 0x6c000030 f
  | .vshup f => infoVxs 0x6c000040 f
  | .vshdn f => infoVxs 0x6c000050 f
  | .vrsumF32 f => infoVrf 0x70000000 f
  | .vrmaxF32 f => infoVrf 0x70000010 f
  | .vrminF32 f => infoVrf 0x70000020 f
  | .vrsumI32 f => infoVr 0x70000030 f
  | .vrmaxI32 f => infoVr 0x70000040 f
  | .vrminI32 f => infoVr 0x70000050 f
  | .vrmaxN32 f => infoVr 0x70000060 f
  | .vrminN32 f => infoVr 0x70000070 f
  | .vssumF32 f => infoVrf 0x70000080 f
  | .vssumI32 f => infoVr 0x70000090 f
  | .vsmaxF32 f => infoVrf 0x700000a0 f
  | .vsmaxI32 f => infoVr 0x700000b0 f
  | .vbscale f => infoBscale 0x74000000 f
  | .vquant f => infoQuant 0x74000040 f
  | .vdeq f => infoDeq 0x74000080 f
  | .vld f => infoVld 0x80000000 f
  | .vst f => infoVst 0x84000000 f
  | .sld f => infoSld 0x88000000 f
  | .sst f => infoSst 0x8c000000 f
  | .vatomAdd f => infoAt (0x90000000 + f.pack) f.d f.a f.b f.p (f.l = 1) false true false
  | .vatomAddF32 f => infoAt (0x90000010 + f.pack) f.d f.a f.b f.p false false true true
  | .vatomMinI f => infoAt (0x90000020 + f.pack) f.d f.a f.b f.p (f.l = 1) false true false
  | .vatomMaxI f => infoAt (0x90000030 + f.pack) f.d f.a f.b f.p (f.l = 1) false true false
  | .vatomMinN f => infoAt (0x90000040 + f.pack) f.d f.a f.b f.p (f.l = 1) false true false
  | .vatomMaxN f => infoAt (0x90000050 + f.pack) f.d f.a f.b f.p (f.l = 1) false true false
  | .vatomAnd f => infoAt (0x90000060 + f.pack) f.d f.a f.b f.p (f.l = 1) false true false
  | .vatomOr f => infoAt (0x90000070 + f.pack) f.d f.a f.b f.p (f.l = 1) false true false
  | .vatomXor f => infoAt (0x90000080 + f.pack) f.d f.a f.b f.p (f.l = 1) false true false
  | .vatomXchg f => infoAt (0x90000090 + f.pack) f.d f.a f.b f.p (f.l = 1) false true false
  | .vatomCas f => infoAt (0x900000a0 + f.pack) f.d f.a f.b f.p (f.l = 1) true true false
  | .satomAdd f => infoSat (0x94000000 + f.pack) f.d f.a f.b (f.l = 1) false false
  | .satomAddF32 f => infoSat (0x94000010 + f.pack) f.d f.a f.b false false true
  | .satomMinI f => infoSat (0x94000020 + f.pack) f.d f.a f.b (f.l = 1) false false
  | .satomMaxI f => infoSat (0x94000030 + f.pack) f.d f.a f.b (f.l = 1) false false
  | .satomMinN f => infoSat (0x94000040 + f.pack) f.d f.a f.b (f.l = 1) false false
  | .satomMaxN f => infoSat (0x94000050 + f.pack) f.d f.a f.b (f.l = 1) false false
  | .satomAnd f => infoSat (0x94000060 + f.pack) f.d f.a f.b (f.l = 1) false false
  | .satomOr f => infoSat (0x94000070 + f.pack) f.d f.a f.b (f.l = 1) false false
  | .satomXor f => infoSat (0x94000080 + f.pack) f.d f.a f.b (f.l = 1) false false
  | .satomXchg f => infoSat (0x94000090 + f.pack) f.d f.a f.b (f.l = 1) false false
  | .satomCas f => infoSat (0x940000a0 + f.pack) f.d f.a f.b (f.l = 1) true false
  | .badd f => infoAt (0x98000000 + f.pack) f.d f.a f.b f.p false false false false
  | .baddF32 f => infoAt (0x98000010 + f.pack) f.d f.a f.b f.p false false false false
  | .bminI32 f => infoAt (0x98000020 + f.pack) f.d f.a f.b f.p false false false false
  | .bmaxI32 f => infoAt (0x98000030 + f.pack) f.d f.a f.b f.p false false false false
  | .bminN32 f => infoAt (0x98000040 + f.pack) f.d f.a f.b f.p false false false false
  | .bmaxN32 f => infoAt (0x98000050 + f.pack) f.d f.a f.b f.p false false false false
  | .binc f => infoAt (0x98000060 + f.pack) f.d f.a f.b f.p false false false false
  | .bmaxp f => infoAt (0x98000078 + f.pack) f.d f.a f.b f.p true false false false
  | .bxchg f => infoAt (0x98000080 + f.pack) f.d f.a f.b f.p (f.l = 1) false false false
  | .bcas f => infoAt (0x98000090 + f.pack) f.d f.a f.b f.p (f.l = 1) true false false
  | .bor f => infoAt (0x980000a0 + f.pack) f.d f.a f.b f.p false false false false
  | .band f => infoAt (0x980000b0 + f.pack) f.d f.a f.b f.p false false false false
  | .tagld f => { word := 0x9c000000 + f.pack, cls := .memory, srcs := [sPair true f.a 0], dsts := [sDst f.d] }
  | .tagst f => { word := 0x9c000008 + f.pack, cls := .memory, srcs := [sPair true f.a 0, sSrc f.b 1] }
  | .sete f => { word := 0x9c000010 + f.pack, cls := .memory, srcs := [sPair true f.a 0] }
  | .setf f => { word := 0x9c000018 + f.pack, cls := .memory, srcs := [sPair true f.a 0] }
  | .qpush f =>
    { word := 0x9c000020 + f.pack, cls := .memory, srcs := [sPair true f.a 0, vSrc f.b 1], pred := f.p.toNat }
  | .qpop f =>
    { word := 0x9c000028 + f.pack, cls := .memory, srcs := [sPair true f.a 0], dsts := [vDst f.d], pred := f.p.toNat }
  | .cpy f =>
    { word := 0xa0000000 + f.pack, cls := .memory, srcs := [vPair true f.a 0, vPair true f.b 1], dsts := [sDst f.d]
      pred := f.p.toNat, ce := true, legal := fun _ => f.z.toNat < 3 }
  | .gath f =>
    { word := 0xa0000010 + f.pack, cls := .memory, srcs := [sGroup 6 2 f.a 0, vSrc f.b 1], dsts := [sDst f.d]
      pred := f.p.toNat, ce := true }
  | .scat f =>
    { word := 0xa0000020 + f.pack, cls := .memory, srcs := [sGroup 6 2 f.a 0, vSrc f.b 1], dsts := [sDst f.d]
      pred := f.p.toNat, ce := true }
  | .pfd f =>
    { word := 0xa0000030 + f.pack, cls := .memory, dsts := [sDst f.d]
      srcs := [sPair true f.a 0, sPair true f.b 1, { file := .s, reg := f.d.toNat }] }
  | .fwait f => { word := 0xa0000040 + f.pack, cls := .future, srcs := [sSrc f.a 0], dsts := [sDst f.d] }
  | .ftest f =>
    { word := 0xa0000050 + f.pack, cls := .future, srcs := [{ sSrc f.a 0 with ordinary := false }], dsts := [sDst f.d] }
  | .fcancel f => { word := 0xa0000060 + f.pack, cls := .future, srcs := [{ sSrc f.a 0 with ordinary := false }] }
  | .fpass f =>
    { word := 0xa0000070 + f.pack, cls := .future, srcs := [{ sSrc f.a 0 with ordinary := false }], dsts := [sDst f.d] }
  | .pub f => { word := 0xa4000000 + f.pack, cls := .rcu, srcs := [sPair true f.a 0, sPair true f.b 1] }
  | .retire f =>
    { word := 0xa4000008 + f.pack, cls := .rcu, srcs := [sPair true f.a 0, sPair true f.b 1], dsts := [sDst f.d] }
  | .poola f => { word := 0xa4000010 + f.pack, cls := .rcu, srcs := [sSrc f.a 0], dsts := [sDst2 true f.d] }
  | .poolf f => { word := 0xa4000018 + f.pack, cls := .rcu, srcs := [sPair true f.a 0, sSrc f.b 1] }
  | .xput f => infoX 0xa8000000 f
  | .xget f => infoX 0xa8000001 f
  | .coll f => infoX 0xa8000002 f
  | .cabort f => { word := 0xa8000003 + f.pack, cls := .xclass }
  | .mma f =>
    { word := 0xc0000000 + f.pack, cls := .vector, re := true, pred := f.p.toNat, minWidth := 32, idleReads := false
      srcs := [vGroup 16 4 f.a 0, { vGroup 16 4 f.b 1 with lanes := 160 }], legal := fun _ => typesOk f.x.toNat f.y.toNat }
  | .mmas f => infoMmas 0xc4000000 f
  | .mmat f =>
    { word := 0xc8000000 + f.pack, cls := .vector, re := true, pred := f.p.toNat, idleReads := false
      srcs := [sGroup 2 2 f.a 0, sGroup 2 2 f.b 1] }
  | .mmax f => { infoMmas 0xcc000000 f with srcs := [sGroup 2 2 f.a 0, sGroup 5 2 f.b 1] }
  | .mzero f => { word := 0xd0000000 + f.pack, cls := .vector, pred := f.p.toNat }
  | .mld f => { word := 0xd0400000 + f.pack, cls := .vector, pred := f.p.toNat, srcs := [sPair true f.x 0] }
  | .mst f => { word := 0xd0800000 + f.pack, cls := .vector, pred := f.p.toNat, srcs := [sPair true f.x 0, tileSrc f.c] }
  | .mrd f =>
    { word := 0xd0c00000 + f.pack, cls := .vector, pred := f.p.toNat, srcs := [sSrc f.y 1, tileSrc f.c], dsts := [vDst f.x] }
  | .mwr f => { word := 0xd1000000 + f.pack, cls := .vector, pred := f.p.toNat, srcs := [vSrc f.x 0, sSrc f.y 1] }
  | .mfence f => { word := 0xd1400000 + f.pack, cls := .vector, dsts := [sDst f.x] }
  | .mwait f => { word := 0xd1800000 + f.pack, cls := .vector, srcs := [sSrc f.x 0], dsts := [sDst f.x] }
  | .mstat f => { word := 0xd1c00000 + f.pack, cls := .vector, dsts := [sDst f.x] }
  | .hlr f => { word := 0xf8000000 + f.pack, cls := .scalar }
  | .hrun f => { word := 0xfc000000 + f.pack, cls := .scalar }
  | .himm f => { word := 0xfc800000 + f.pack, cls := .scalar }
  | .hmod f => { word := 0xfd000000 + f.pack, cls := .scalar, legal := fun _ => hmodOk f }
  | .hsig f => { word := 0xfd800000 + f.pack, cls := .scalar }
  | .weightRecomputation _ => infoEvent
  | .starvationGuard _ => infoEvent
  | .waveToken _ => infoEvent
  | .coreArrival _ => infoEvent
  | .boundaryCompletion => infoEvent
  | .release _ => infoEvent
  | .boundaryRequest _ => infoEvent
  | .stragglerExpiry _ => infoEvent
  | .stragglerKill _ => infoEvent
  | .clusterDispatch _ => infoEvent
  | .compactionExchange _ => infoEvent
  | .starvationResolution _ => infoEvent
  | .memberEviction _ => infoEvent
  | .evictionResume _ => infoEvent
  | .loadCompletion _ => infoEvent
  | .atomicCompletion _ => infoEvent
  | .variableLatencyResult _ => infoEvent
  | .pageTableWalk _ _ => infoEvent
  | .cxmInval _ _ => infoEvent
  | .invalidationComplete _ => infoEvent
  | .cxmResume _ _ => infoEvent
  | .engineElement _ _ => infoEvent
  | .engineCompletion _ => infoEvent
  | .pfdLineIssue _ => infoEvent
  | .pfdBudgetWindow _ => infoEvent
  | .mirrorLinePass => infoEvent
  | .mirrorSlotPass => infoEvent
  | .gracePeriodStart => infoEvent
  | .parityFlip _ => infoEvent
  | .gracePeriodEnd => infoEvent
  | .xferCompletion _ => infoEvent
  | .collectiveCompletion _ => infoEvent
  | .collectiveIngress _ => infoEvent
  | .matrixOperationCompletion _ => infoEvent
  | .selfTest _ _ _ _ => infoEvent
  | .dlaunchAnswer _ => infoEvent
  | .workgroupEnd _ => infoEvent
  | .asyncTrapDelivery _ => infoEvent
  | .softError _ => infoEvent
  | .dieLost _ => infoEvent
  | .firmwareRound => infoEvent
  | .gridCompletion _ _ => infoEvent
  | .doorbell _ _ => infoEvent
  | .queueEnable _ _ => infoEvent
  | .queueDisable _ _ => infoEvent
  | .clr _ => infoEvent
  | .peerWrite _ => infoEvent
  | .contextCreate _ _ => infoEvent
  | .contextFree _ _ => infoEvent
  | .preemptionRequest _ _ => infoEvent
  | .drainPeriod _ => infoEvent
  | .poolCfg _ _ _ _ => infoEvent
  | .mxctlFence _ _ => infoEvent
  | .retest _ _ => infoEvent
  | .reset _ => infoEvent
  | .dieAuthentication _ _ => infoEvent
  | .spdmRequest => infoEvent
  | .d3hot => infoEvent
  | .d3cold => infoEvent
  | .d0Return _ => infoEvent
  | .throttle _ _ => infoEvent
  | .trig => infoEvent
  | .snapshotLatch _ => infoEvent
  | .rbsel _ _ => infoEvent
  | .registerWrite _ _ _ => infoEvent
  | .hostWrite _ _ => infoEvent
  | .storeAcknowledged _ => infoEvent

end Sys2Proof.Machine
end

