-- ==== Sys2Proof/Machine/Ops.lean ====
section
/-! DEFINITION. The shared operations: fault records (R309 to R311), barrier words and waits (R176 to R178), group
signatures (R317), taking a trap and returning from one (R302 to R307), termination (R308), rollback (R314, R315), and
the frame in which every encoded instruction issues (R29, R62, R146, R220). -/

namespace Sys2Proof.Machine

/-- What a meaning answers. -/
abbrev Out := Host.Outcome State Fault Refusal

/-! ### Interrupts and rings -/

/-- MSI-X vector `v` raised (R280, R309). -/
def State.raiseVector (s : State) (v : Nat) : State :=
  { s with root := { s.root with vectors := if s.root.vectors.contains v then s.root.vectors else s.root.vectors ++ [v] } }

/-- One record of 32 bytes as four 64-bit values (R246, R310). -/
def recordBytes (a b c d : Nat) : List Byte := leBytes 8 a ++ leBytes 8 b ++ leBytes 8 c ++ leBytes 8 d

/-- Whether a ring of 2^n records with the given indices is full (R246). -/
def ringFull (n head tail : Nat) : Bool := (tail + 16777216 - head) % 16777216 = 2 ^ n

/-- A count that saturates at 2^16 - 1 (R246). -/
def sat16 (n : Nat) : Nat := if n < 65535 then n + 1 else 65535

/-- The virtual address of the slot that record TAIL goes to (R246, R309). -/
def ringSlot (reg : Dword) (tail : Nat) : Dword :=
  BitVec.ofNat 64 (reg.toNat / 4096 % 281474976710656 * 4096 + 32 * (tail % 2 ^ (reg.toNat % 16)))

/-- A record written to the fault ring of context `k` (R309, R310): dropped and counted in LOST when the ring is full or
its slot cannot be written. -/
def State.record (s : State) (k kind sub core acc wg : Nat) (addr arg : Nat) : State :=
  let c := s.ctx k
  let lost := s.setCtx k { c with fqLost := sat16 c.fqLost }
  if ringFull (c.fq.toNat % 16) c.fqHead c.fqTail then lost
  else
    let bs := leBytes 4 (kind * 16777216 + sub % 256 * 65536 + core * 1024 + acc * 256) ++ leBytes 4 wg ++
      leBytes 8 addr ++ leBytes 8 arg ++ leBytes 8 s.root.ph.toNat
    match s.ctxWrite k 0 (ringSlot c.fq c.fqTail) bs with
    | none => lost
    | some t =>
      let t := t.setCtx k { c with fqTail := (c.fqTail + 1) % 16777216 }
      if c.fq.getLsbD 11 then t.raiseVector (1024 + k) else t

/-- No core, no workgroup (R310). -/
def noCore : Nat := 63
def noWg : Nat := 0xFFFFFFFF

/-- A record about group `g`: its context, core and workgroup (R310). -/
def State.recordG (s : State) (g kind sub acc addr arg : Nat) : State :=
  s.record (s.ctxOf g) kind sub (s.coreOf g) acc (s.wgOf g).linear addr arg

/-! ### Requests to the geyser and the snapshot trigger -/

/-- A request on its way to the geyser's root (R40, R41); requests for one boundary merge. -/
def State.request (s : State) (r : Req) : State :=
  { s with root := { s.root with incoming := if s.root.incoming.contains r then s.root.incoming else s.root.incoming ++ [r] } }

/-- A compute-end wave opened in a compute superstep, if none is open (R40). -/
def Root.openWave (r : Root) : Root :=
  if r.wave.isNone && !r.ph.getLsbD 0 then { r with wave := some .computeEnd } else r

/-- The blocks of the register space (R324, R331): 0 the package, 1 to 4 the dies, 5 to 52 the cores, 53 to 116 the
contexts. -/
def snapBlocks : Nat := 117

/-- Whether a block stands on a die in service; the package's and the contexts' blocks stand on die 0. -/
def State.blockAlive (s : State) (b : Nat) : Bool :=
  let d := if 1 ≤ b && b < 5 then b - 1 else if 5 ≤ b && b < 53 then dieOfCore (b - 5) else 0
  (s.die d).alive && !(s.die d).lost

/-- The common trigger (R332): it has no effect while a block has yet to latch an earlier one. -/
def State.raiseTrigger (s : State) : State :=
  if s.root.snapPend.isEmpty then
    { s with root := { s.root with snapSeq := s.root.snapSeq + 1, snapPend := (List.range snapBlocks).filter s.blockAlive } }
  else s

/-! ### Signatures and the end of an instruction -/

/-- Field F of R317: the function bits of a word, right-aligned, by its format. -/
def sigField (w : Nat) : Nat :=
  match w / 67108864 with
  | 0x01 | 0x27 | 0x29 => w / 8 % 32
  | 0x02 => w / 1024 % 16
  | 0x03 => w / 4096 % 4
  | 0x04 => w / 131072 % 8
  | 0x07 => w / 1048576 % 64
  | 0x0B => w / 262144 % 4
  | 0x0C => w / 4096 % 4 * 2 + w / 2048 % 2
  | 0x10 | 0x11 | 0x12 | 0x13 | 0x14 | 0x15 | 0x16 | 0x1B | 0x1C | 0x1D => w / 16 % 16
  | 0x17 => w / 1048576 % 8
  | 0x18 | 0x19 => w / 64 % 16
  | 0x1A => w / 8192 % 16
  | 0x24 | 0x25 | 0x26 | 0x28 => w / 16 % 16
  | 0x2A => w % 4
  | 0x34 => w / 4194304 % 16
  | _ => 0

/-- fold32 of R317: the exclusive or of the 32-bit parts of a mask. -/
def fold32 (m : Mask) : Word :=
  m.extractLsb' 0 32 ^^^ m.extractLsb' 32 32 ^^^ m.extractLsb' 64 32 ^^^ m.extractLsb' 96 32

/-- The signature after an instruction (R317). -/
def sigStep (sig : Word) (word : Nat) (exec : Mask) : Word :=
  sig.rotateLeft 7 ^^^ BitVec.ofNat 32 (word / 67108864 * 67108864 + sigField word) ^^^ fold32 exec

/-- The second update after a VELSE or VEND (R317). -/
def sigMask (sig : Word) (m : Mask) : Word := sig.rotateLeft 7 ^^^ fold32 m

/-- The program counter after an instruction that stands at `pc` (R157). -/
def nextPc (pc : Dword) : Dword := pc + 4

/-- A group that has done an instruction and continues at `pc`: the signature is updated, the bundle is spent, and
coverage by last-read bits goes on only at the word that follows (R58, R134, R317). -/
def Group.completed (g : Group) (word : Nat) (exec : Mask) (pc : Dword) : Group :=
  { g with sig := sigStep g.sig word exec, pc := pc, bundle := none, stall := none
           hlr := if pc = nextPc g.pc then g.hlr.drop 1 else [] }

/-- The number of a register file in a list of registers to free. -/
def RFile.code (f : RFile) : Nat :=
  match f with
  | .s => 0
  | .v => 1
  | .tile => 2

/-- One register freed by a last-read bit: a tile with all its columns (R58, R266). -/
def Group.freeReg (x : Group) (r : Nat × Nat) : Group :=
  match r.1 with
  | 0 => x.freeS r.2
  | 1 => x.freeV r.2
  | _ => { x with v := Fmap.select x.v (fun k _ => !(64 + 32 * r.2 ≤ k / 16 && k / 16 < 96 + 32 * r.2)) }

/-- Registers freed after their last read (R58). -/
def Group.freeRegs (x : Group) (l : List (Nat × Nat)) : Group := l.foldl Group.freeReg x

/-- The trap PC of a group: the first word of the open bundle, or the next instruction (R136, R302). -/
def Group.trapPc (g : Group) : Dword :=
  match g.bundle with
  | some b => b.start
  | none => g.pc

/-- The group back at its instruction boundary: an open bundle issues again from its first word. -/
def Group.toBoundary (g : Group) : Group := { g with pc := g.trapPc, bundle := none }

/-- The group's interval number goes up (R127). -/
def Group.nextInterval (x : Group) : Group := { x with interval := x.interval + 1 }

/-! ### Barrier words -/

/-- The fields of the barrier word at a location (R176). -/
def State.barMask (s : State) (loc : Nat) : Nat := s.natAt loc 8
def State.barSig (s : State) (loc : Nat) : Nat := s.natAt (loc + 8) 4
def State.barNB (s : State) (loc : Nat) : Nat := s.natAt (loc + 12) 4
def State.barArr (s : State) (loc : Nat) : Nat := s.natAt (loc + 16) 4
def State.barEpoch (s : State) (loc : Nat) : Nat := s.natAt (loc + 20) 4
def State.barKind (s : State) (loc : Nat) : Nat := s.natAt (loc + 24) 1

/-- The barrier word at `loc` written whole (R176). -/
def State.setBar (s : State) (loc mask sig nb arr epoch kind : Nat) : State :=
  s.storeCells (cellsOf loc (leBytes 8 mask ++ leBytes 4 sig ++ leBytes 4 nb ++ leBytes 4 arr ++ leBytes 4 epoch ++ leBytes 8 kind))

/-- An arrival of `lanes` lanes withdrawn from the word at `loc`: ARR falls, and a word whose ARR reaches 0 is idle again
with its EPOCH kept (R178). -/
def State.withdrawBar (s : State) (loc lanes : Nat) : State :=
  if lanes = 0 then s
  else if s.barArr loc ≤ lanes then s.setBar loc 0 0 0 0 (s.barEpoch loc) 0
  else s.setBar loc (s.barMask loc) (s.barSig loc) (s.barNB loc) (s.barArr loc - lanes) (s.barEpoch loc) (s.barKind loc)

/-- The scalar entry that a waiting GFUSE or GCOMPACT of group `g` holds for its status, taken from the pool (R62, R173,
log 25). -/
def State.takeHold (s : State) (g : Nat) : State :=
  s.addPend ⟨.status, g, (s.group g).wg, s.coreOf g, [], freshIds (s.usedEntries (s.coreOf g)) 1⟩

/-- That entry given back. -/
def State.dropHold (s : State) (g : Nat) : State :=
  { s with pend := s.pend.filter (fun p => !(p.2.g = g && p.2.kind = .status)) }

/-- The waiting instruction of group `g` completes: it takes its signature update and the group goes on (R174, R317). -/
def State.endWait (s : State) (g : Nat) : State :=
  match (s.group g).wait with
  | none => s
  | some w =>
    s.modGroup g (fun x => { (x.freeRegs w.frees).completed w.word w.exec (nextPc x.pc) with wait := none })

/-! ### Stage queues (R232, R233) -/

/-- The fields of the queue line at a location (R232). -/
def State.qHead (s : State) (loc : Nat) : Nat := s.natAt loc 4
def State.qTail (s : State) (loc : Nat) : Nat := s.natAt (loc + 4) 4
def State.qCap (s : State) (loc : Nat) : Nat := s.natAt (loc + 8) 2
def State.qBase (s : State) (loc : Nat) : Nat := s.natAt (loc + 12) 4

/-- Occupancy (R232). -/
def State.qUsed (s : State) (loc : Nat) : Nat := (s.qTail loc + 4294967296 - s.qHead loc) % 4294967296

/-- The location of entry `e` of a queue of workgroup `k` (R232). The entries of one instruction are numbered on from HEAD or TAIL
(DESIGN CHOICE, log 104). -/
def State.qEntry (s : State) (k loc e : Nat) : Nat :=
  spadLoc (s.wg k).core (128 * (s.wg k).line0 + s.qBase loc + 4 * (e % s.qCap loc))

/-- `vals` pushed onto the queue (R233). -/
def State.pushed (s : State) (k loc : Nat) (vals : List Word) : State :=
  let tail := s.qTail loc
  let ws := (vals.zip (List.range vals.length)).flatMap (fun p => cellsOf (s.qEntry k loc (tail + p.2)) (leBytes 4 p.1.toNat))
  s.storeCells (ws ++ cellsOf (loc + 4) (leBytes 4 ((tail + vals.length) % 4294967296)))

/-- The first `n` entries of the queue. -/
def State.front (s : State) (k loc n : Nat) : List Word :=
  (List.range n).map (fun j => BitVec.ofNat 32 (s.natAt (s.qEntry k loc (s.qHead loc + j)) 4))

/-- `n` entries popped (R233). -/
def State.popped (s : State) (loc n : Nat) : State :=
  s.storeCells (cellsOf loc (leBytes 4 ((s.qHead loc + n) % 4294967296)))

/-- The values of a pop spread over the lanes of a mask in ascending order (R233). -/
def spread (m : Mask) (vals : List Word) (l : Nat) : Word :=
  ((((lanesOf m).zip vals).find? (fun p => p.1 = l)).map (·.2)).getD 0

/-- The live waiters of one kind at a queue line, as (turn, group). -/
def State.pushWaiters (s : State) (loc : Nat) : List (Nat × Nat) :=
  s.groups.filterMap (fun p => match p.2.wait with
    | some ⟨.qpush l turn _, _, _, _⟩ => if l = loc && p.2.status = .live then some (turn, p.1) else none
    | _ => none)
def State.popWaiters (s : State) (loc : Nat) : List (Nat × Nat) :=
  s.groups.filterMap (fun p => match p.2.wait with
    | some ⟨.qpop l turn _ _, _, _, _⟩ => if l = loc && p.2.status = .live then some (turn, p.1) else none
    | _ => none)

/-- The waiter that arrived first. -/
def firstTurn (l : List (Nat × Nat)) : Option Nat :=
  (l.foldl (fun (b : Option (Nat × Nat)) p => match b with
    | none => some p
    | some q => if p.1 < q.1 then some p else some q) none).map (·.2)

/-- Whether one of the first `n` entries of the queue is poisoned (R312). -/
def State.frontBad (s : State) (k loc n : Nat) : Bool :=
  (List.range n).any (fun j => s.poisoned (s.qEntry k loc (s.qHead loc + j)) 4)

/-- Group `g` leaves its wait and goes back to the bundle that waits. -/
def State.unwait (s : State) (g : Nat) : State := s.modGroup g (fun x => { x.toBoundary with wait := none })

/-- The first waiting QPOP served if there are entries enough, else the first waiting QPUSH if there is room (R233). A QPOP
that meets a poisoned entry takes none: it issues again, and consumes the error then (R312). -/
def State.serveOne (s : State) (loc : Nat) : Option State :=
  let pop := (firstTurn (s.popWaiters loc)).bind (fun g => match (s.group g).wait with
    | some ⟨.qpop _ _ d m, _, _, _⟩ =>
      let k := (s.group g).wg
      if s.qUsed loc < countOf m then none
      else if s.frontBad k loc (countOf m) then some (s.unwait g)
      else some ((((s.popped loc (countOf m)).putV g d.toNat m (spread m (s.front k loc (countOf m)))).endWait g).learn g)
    | _ => none)
  let push := (firstTurn (s.pushWaiters loc)).bind (fun g => match (s.group g).wait with
    | some ⟨.qpush _ _ vals, _, _, _⟩ =>
      if s.qUsed loc + vals.length ≤ s.qCap loc then
        some (((s.pushed (s.group g).wg loc vals).endWait g).modGroup g Group.nextInterval)
      else none
    | _ => none)
  pop.or push

/-- Waiters served until none can be (R233); `fuel` is the number of waiters. -/
def State.serve (s : State) (loc fuel : Nat) : State :=
  match fuel with
  | 0 => s
  | k + 1 => match s.serveOne loc with
    | some t => t.serve loc k
    | none => s

/-- Waiters served after a push or pop. -/
def State.serveAll (s : State) (loc : Nat) : State :=
  s.serve loc ((s.pushWaiters loc).length + (s.popWaiters loc).length)

/-! ### Leaving a wait -/

/-- Group `g` leaves its wait without completing it: a barrier arrival is withdrawn, and what the wait holds of the pool is
given back (R62, R174, R178). -/
def State.withdraw (s : State) (g : Nat) : State :=
  let t := match (s.group g).wait with
    | some ⟨.barrier loc lanes _ _, _, _, _⟩ => s.withdrawBar loc lanes
    | _ => s
  (t.dropHold g).modGroup g (fun x => { x with wait := none })

/-- A withdrawal after which the waiters behind it in its queue are served (R233). -/
def State.leaveWait (s : State) (g : Nat) : State :=
  match (s.group g).wait with
  | some ⟨.qpush loc _ _, _, _, _⟩ => (s.withdraw g).serveAll loc
  | some ⟨.qpop loc _ _ _, _, _, _⟩ => (s.withdraw g).serveAll loc
  | _ => s.withdraw g

/-! ### Reader counters -/

/-- A core's reader counter of one parity changed by `f` (R119, R120). -/
def State.modCnt (s : State) (c : Nat) (par : Bool) (f : Nat → Nat) : State :=
  let k := s.core c
  s.setCore c (if par then { k with cnt1 := f k.cnt1 } else { k with cnt0 := f k.cnt0 })

/-- A die's saved-reader counter of one parity changed by `f` (R122). -/
def State.modSaved (s : State) (d : Nat) (par : Bool) (f : Nat → Nat) : State :=
  let k := s.die d
  s.setDie d (if par then { k with sav1 := f k.sav1 } else { k with sav0 := f k.sav0 })

/-- The count of group `g` removed at its teardown, whatever its depth (R122): from its die's saved counter while its
workgroup is saved, else from its core's. -/
def State.dropReader (s : State) (g : Nat) : State :=
  let x := s.group g
  if x.rdDepth = 0 then s
  else
    let t := if (s.wgOf g).state = .saved then s.modSaved (s.dieOf g) x.rdPar (· - 1) else s.modCnt (s.coreOf g) x.rdPar (· - 1)
    t.modGroup g (fun y => { y with rdDepth := 0, rdPar := false })

/-! ### Lines held by operations -/

/-- A pending count of the line at `loc` released: at 0 the line becomes full (R104). -/
def State.releaseLine (s : State) (loc : Nat) : State :=
  let l := s.lineAt loc
  s.setLine loc { l with count := l.count - 1, full := if l.count ≤ 1 then true else l.full }

/-- Every pending count that an operation holds released (R98, R104). -/
def State.releaseLines (s : State) (o : EngOp) : State := (Fmap.keys o.lines).foldl (fun s l => s.releaseLine (128 * l)) s

/-! ### Asynchronous traps -/

/-- An asynchronous trap falls due for group `g` (R302): it is pending once, and a waiter that is not in handler mode
abandons its wait at once and stands at the bundle that waited, where it takes the trap (R174, R178, R306). -/
def State.raiseAsync (s : State) (g : Nat) (t : Trap) : State :=
  let x := s.group g
  let s := if x.wait.isSome && !x.handler then (s.leaveWait g).modGroup g Group.toBoundary else s
  s.modGroup g (fun y => { y with pendTraps := if y.pendTraps.contains t then y.pendTraps else y.pendTraps ++ [t] })

/-- The groups that wait at the barrier word `loc`. -/
def State.waitersAt (s : State) (loc : Nat) : List Nat :=
  Fmap.keys (s.groupsWhere (fun g =>
    match g.wait with
    | some ⟨.barrier l _ _ _, _, _, _⟩ => l = loc && g.status = .live
    | _ => false))

/-- Every waiter at the word `loc` takes `t` (R28). -/
def State.orphan (s : State) (loc : Nat) (t : Trap) : State := (s.waitersAt loc).foldl (fun s g => s.raiseAsync g t) s

/-- Whether a block-form word at `loc` names a block that holds a lane of group `g` (R26, R28). -/
def State.namesLanes (s : State) (loc : Nat) (g : Group) : Bool :=
  (List.range 64).any (fun i => s.barMask loc / 2 ^ i % 2 = 1 &&
    g.base < 32 * (s.barNB loc + i + 1) && 32 * (s.barNB loc + i) < g.base + g.width)

/-- The words at which live groups wait, with their form. -/
def State.barrierWaits (s : State) : List (Nat × Bool × Bool × Nat) :=
  s.groups.filterMap (fun p =>
    match p.2.wait with
    | some ⟨.barrier l _ b c, _, _, _⟩ => if p.2.status = .live then some (l, b, c, p.2.wg) else none
    | _ => none)

/-- The waiters that the exit of group `g` orphans: those at a block-form word of its workgroup that names its lanes
(R28). -/
def State.orphanBlocks (s : State) (g : Nat) : State :=
  (s.barrierWaits.filter (fun b => b.2.1 && b.2.2.2 = (s.group g).wg)).foldl
    (fun s b => if s.namesLanes b.1 (s.group g) then s.orphan b.1 .barrierOrphan else s) s

/-- Every waiter at a cluster barrier of workgroup `k`'s cluster takes PEER_EXITED once `k` has exited (R28, R178). -/
def State.orphanCluster (s : State) (k : Nat) : State :=
  (s.barrierWaits.filter (fun b => b.2.2.1 && (s.wg k).members.contains b.2.2.2)).foldl
    (fun s b => s.orphan b.1 .peerExited) s

/-! ### Rendezvous -/

/-- The block of workgroup lanes that a rendezvous of a group concerns: its first lane and its width (R20, R21). -/
def Group.rendezvous (g : Group) : Option (Nat × Nat × BitVec 6) :=
  match g.wait with
  | some ⟨.fuse t d, _, _, _⟩ => some (g.base / t * t, t, d)
  | some ⟨.compact d, _, _, _⟩ => some (g.base / (2 * g.width) * (2 * g.width), 2 * g.width, d)
  | _ => none

/-- Group `g` leaves its rendezvous with a status: written to its destination, latches invalid, and on it goes (R23, R66,
R173). -/
def State.leaveRendezvous (s : State) (g : Nat) (code : Nat) : State :=
  match (s.group g).rendezvous with
  | none => s
  | some (_, _, d) =>
    let t := (s.dropHold g).putS g d.toNat (BitVec.ofNat 32 code)
    (t.endWait g).modGroup g (fun x => { x.dropLatches with hlr := [] })

/-- Every group of workgroup `k` that waits in a rendezvous on lanes [b, b + n) leaves it with a status. -/
def State.resolveRendezvous (s : State) (k b n code : Nat) : State :=
  (s.groups.filter (fun p => p.2.wg = k && p.2.status = .live &&
      (match p.2.rendezvous with | some (b', n', _) => b' < b + n && b < b' + n' | none => false))).foldl
    (fun s p => s.leaveRendezvous p.1 code) s

/-! ### Termination -/

/-- One group torn down: it issues no more, its wait is withdrawn, its reader count is removed and its registers are freed
(R308). -/
def State.tearDown (s : State) (g : Nat) : State :=
  let t := (s.withdraw g).dropReader g
  t.modGroup g (fun x =>
    { x with status := .terminated, v := [], s := [], region := none, pendTraps := [], stall := none, poolHold := none
             bundle := none, holder := none, parked := none, hrun := 0, batches := [], batchOpen := false })

/-- A launch record counts one more workgroup as ended (R285, R301). -/
def State.countEnded (s : State) (k : Nat) : State :=
  let w := s.wg k
  let c := s.ctx w.ctx
  s.setCtx w.ctx { c with recs := Fmap.adjust c.recs w.record (fun r => { r with ended := r.ended + 1 }) }

/-- What a group that had exited before its workgroup was terminated still holds is gone: its tiles, its slices and entries, and its
batches (R274, R308). -/
def Group.emptied (x : Group) : Group :=
  if x.status = .exited then { x with v := [], s := [], batches := [], batchOpen := false } else x

/-- Engine operations and transfers of workgroup `k` stopped, with the counts they hold on lines released (R242, R253). -/
def State.stopEngines (s : State) (k : Nat) : State :=
  let mine := s.engs.filter (fun p => p.2.wg = k)
  let t := mine.foldl (fun s p => s.releaseLines p.2) s
  { t with engs := t.engs.filter (fun p => p.2.wg != k), done := mine.foldl (fun m p => Fmap.insert m p.1 1) t.done }

/-- The contributions of workgroup `k` to collectives (R253): those whose packets were sent are delivered and go on counting
toward their instances, and the others are dropped. No destination of a terminated workgroup is written (`State.deliver`). -/
def State.stopColls (s : State) (k : Nat) : State :=
  { s with colls := s.colls.filter (fun c => match c.here with
      | some l => l.wg != k || c.data.isSome
      | none => true) }

/-- Workgroup `k` terminated (R308). Its groups count as arrived, its operations end, its registers and its scratchpad are
freed, cluster members meet PEER_EXITED, and its record counts it as ended. -/
def State.terminate (s : State) (k : Nat) : State :=
  let w := s.wg k
  if w.state = .ended || w.state = .terminated then s
  else
    let gs := Fmap.keys (s.groupsWhere (fun g => g.wg = k && g.status = .live))
    let t := (gs.foldl State.tearDown s).modGroupsOf k Group.emptied
    let t := (t.stopEngines k).stopColls k
    let t := { t with pend := t.pend.filter (fun p => p.2.wg != k), stores := t.stores.filter (fun p => p.2.wg != k)
                      mops := t.mops.filter (fun p => p.2.wg != k) }
    let t := t.countEnded k
    let t := t.setWg k { t.wg k with state := .terminated }
    t.orphanCluster k

/-! ### Rollback -/

/-- Whether an issued matrix operation of group `g` has not completed. -/
def State.matrixBusy (s : State) (g : Nat) : Bool := s.mops.any (fun p => p.2.g = g)

/-- The group's region entry state restored (R314 steps 3 to 7). A group in handler mode stays in it (DESIGN CHOICE, log 127). -/
def Group.restored (x : Group) (r : Region) : Group :=
  { x.dropLatches with
      v := r.v, s := r.s, m := r.m, flags := r.flags, rdDepth := r.rdDepth, rdPar := r.rdPar, sig := r.sig
      mstk := x.mstk.drop (x.mstk.length - r.msDepth), rstk := x.rstk.drop (x.rstk.length - r.rsDepth)
      pc := r.restart, bundle := none, hlr := [], stall := none, hrun := 0 }

/-- The reader counters changed from a depth and parity to those restored (R122). -/
def State.rereader (s : State) (c : Nat) (d0 : Nat) (p0 : Bool) (d1 : Nat) (p1 : Bool) : State :=
  let t := if d0 = 0 then s else s.modCnt c p0 (· - 1)
  if d1 = 0 then t else t.modCnt c p1 (· + 1)

/-- A rollback of group `g` to its region entry (R314): what it waits for is withdrawn, mappings and entry state return,
and it goes on at the restart PC. -/
def State.rollbackNow (s : State) (g : Nat) : State :=
  match (s.group g).region with
  | none => s
  | some r =>
    let t := s.leaveWait g
    let x := t.group g
    let t := t.rereader (t.coreOf g) x.rdDepth x.rdPar r.rdDepth r.rdPar
    t.modGroup g (fun y => { y.restored r with rollbackDue := false })

/-- Whether a rollback of a group that falls due now is abandoned, for the loss of a die is due to it too (R316). -/
def Group.abandons (x : Group) : Bool := x.pendTraps.contains .dieLost

/-- A rollback of group `g` falls due: it waits for the group's issued matrix operations, with its arrival standing until
they are done (R314 steps 1 and 2); where the loss of a die comes first, the group stays at its instruction boundary
(R316). -/
def State.rollback (s : State) (g : Nat) : State :=
  if (s.group g).abandons then s.modGroup g (fun x => { x.toBoundary with stall := none })
  else if s.matrixBusy g then s.modGroup g (fun x => { x with rollbackDue := true, stall := none })
  else s.rollbackNow g

/-- A counted rollback under R313 of group `g`, which is inside a region; at the sixteenth the record ROLLBACK_LIMIT is
written and the event acts as outside a region, by `outside` (R315). An event that finds a rollback of the group already due, one
that waits for matrix operations, causes no further one. -/
def State.rollbackOr (s : State) (g site : Nat) (outside : State → State) : State :=
  let x := s.group g
  match x.region with
  | none => outside s
  | some r =>
    if x.abandons then s.rollback g
    else if x.rollbackDue then s
    else if x.rollbacks ≥ 15 then outside (s.recordG g 21 site 0 0 r.restart.toNat)
    else (s.rollback g).modGroup g (fun y => { y with rollbacks := y.rollbacks + 1 })

/-- Group `g` meets an uncorrectable error of `site` at `loc` (R313): inside a region it is rolled back; outside, its
workgroup is terminated and UNCORRECTABLE is written. -/
def State.uncorrectable (s : State) (g site loc : Nat) : State :=
  s.rollbackOr g site (fun s =>
    (s.recordG g 6 site 0 loc (s.group g).trapPc.toNat).terminate (s.group g).wg)

/-! ### Taking a trap -/

/-- The code of a trap (R302). -/
def Trap.code (t : Trap) : Nat :=
  match t with
  | .illegalOp => 1
  | .phaseIllegal => 2
  | .latchStale => 3
  | .returnStack => 4
  | .maskStack => 5
  | .widthState => 6
  | .idemRegion => 7
  | .readerSection => 8
  | .misaligned => 9
  | .scratchRange => 10
  | .peerExited => 11
  | .barrierLine => 12
  | .barrierMembership => 13
  | .barrierOrphan => 14
  | .rootSlot => 15
  | .bankTarget => 16
  | .queue => 17
  | .engineOperand => 18
  | .rcuOperand => 19
  | .xferBound => 20
  | .matrixOperand => 21
  | .matrixFenced => 22
  | .race => 23
  | .silentError => 24
  | .user => 25
  | .straggler => 26
  | .dieLost => 27

/-- Whether s55:s56 hold the address that failed (R305): codes 9 to 12, 15 to 17 and 23. -/
def Trap.hasAddress (t : Trap) : Bool :=
  (9 ≤ t.code && t.code ≤ 12) || (15 ≤ t.code && t.code ≤ 17) || t.code = 23

/-- A trap about to be delivered: its code, the IMM of TRAP, the address that failed and the lowest lane that failed, none
for the scalar thread or an asynchronous trap (R305). -/
structure TrapInfo where
  trap : Trap
  imm : Byte := 0
  addr : Dword := 0
  lane : Option Nat := none
deriving DecidableEq, Repr

/-- s55:s56 of a delivered trap (R305). -/
def TrapInfo.failed (t : TrapInfo) : Dword := if t.trap.hasAddress then t.addr else 0

/-- s57 of a delivered trap (R305). -/
def TrapInfo.laneWord (t : TrapInfo) : Word :=
  match t.lane with
  | some l => BitVec.ofNat 32 l
  | none => 0xFFFFFFFF

/-- s54 of a delivered trap (R305): [7:0] the code, [15:8] the IMM of TRAP. -/
def TrapInfo.cause (t : TrapInfo) : Word := BitVec.ofNat 32 (t.trap.code + 256 * t.imm.toNat)

/-- The six scalar writes of a delivery: s52:s53 the trap PC, s54 the cause word, s55:s56 the address, s57 the lane
(R305). -/
def State.trapWrites (s : State) (g : Nat) (t : TrapInfo) : State :=
  let pc := (s.group g).trapPc
  (((((s.putS g 52 (loOf pc)).putS g 53 (hiOf pc)).putS g 54 t.cause).putS g 55 (loOf t.failed)).putS g 56
    (hiOf t.failed)).putS g 57 t.laneWord

/-- The handler entry of a context (R304, R305): HANDLER × 256. -/
def handlerPc (reg : Dword) : Dword := BitVec.ofNat 64 (reg.toNat / 256 % 4503599627370496 * 256)

/-- Delivery to the handler (R305): the trap registers are written, latches become invalid, an HRUN run and last-read
coverage end, the wait is left, the group enters handler mode and goes on at the handler's entry. -/
def State.enterHandler (s : State) (g : Nat) (t : TrapInfo) : State :=
  let s := s.trapWrites g t
  let s := s.leaveWait g
  s.modGroup g (fun x =>
    { x.dropLatches with handler := true, pc := handlerPc (s.ctx (s.ctxOf g)).trap, bundle := none, hlr := [], hrun := 0
                         stall := none })

/-- A trap taken by group `g` (R305 to R307): with EN = 0 the workgroup is terminated and TRAP_UNHANDLED is written, in handler mode
too (DESIGN CHOICE, log 126); a precise trap in handler mode is a double trap; otherwise it is delivered to the handler once the six scalar entries can be
allocated, and until then the group is stalled on the pool. -/
def State.takeTrap (s : State) (g : Nat) (t : TrapInfo) : State :=
  let x := s.group g
  let end_ := fun (kind : Nat) =>
    (s.recordG g kind t.trap.code 0 t.failed.toNat x.trapPc.toNat).terminate x.wg
  if !(s.ctx (s.ctxOf g)).trap.getLsbD 0 then end_ 1
  else if x.handler then end_ 2
  else if !s.room x.wg 0 6 then s.modGroup g (fun y => { y with stall := some (.pool 0 6) })
  else s.enterHandler g t

/-- A precise trap at the instruction of group `g` (R302): SILENT_ERROR inside a region is replaced by a rollback
(R313). -/
def State.preciseTrap (s : State) (g : Nat) (t : TrapInfo) : State :=
  if t.trap = .silentError && (s.group g).region.isSome then s.rollbackOr g 7 (fun s => s.takeTrap g t)
  else s.takeTrap g t

/-- The order of asynchronous traps (R303): DIE_LOST, then STRAGGLER, then BARRIER_ORPHAN and PEER_EXITED. -/
def firstAsync (l : List Trap) : Option Trap :=
  if l.contains .dieLost then some .dieLost
  else if l.contains .straggler then some .straggler
  else l.head?

/-- Whether a pending asynchronous trap can be delivered to a group now (R22, R302, R306). -/
def Group.asyncDue (g : Group) : Bool :=
  !g.pendTraps.isEmpty && !g.handler && g.parked.isNone && !g.rollbackDue && g.status = .live &&
    (g.bundle.isNone || g.stall.isSome || g.wait.isSome)

/-- The first pending asynchronous trap of group `g` taken at its instruction boundary or in its wait (R302, R303). -/
def State.takeAsync (s : State) (g : Nat) : State :=
  match firstAsync (s.group g).pendTraps with
  | none => s
  | some t =>
    let en := (s.ctx (s.ctxOf g)).trap.getLsbD 0
    if en && !s.room (s.group g).wg 0 6 then s.modGroup g (fun y => { y with stall := some (.pool 0 6) })
    else (s.modGroup g (fun x => { x with pendTraps := x.pendTraps.filter (fun u => u != t) })).takeTrap g { trap := t }

/-- Return from a handler (R306): a JMPI in handler mode ends handler mode, and the latches become invalid (R66). -/
def Group.leaveHandler (g : Group) : Group :=
  if g.handler then { g.dropLatches with handler := false } else g

/-! ### Translation faults -/

/-- The code of a cause (R311). -/
def Cause.code (c : Cause) : Nat :=
  match c with
  | .noncanon => 1
  | .notmapped => 2
  | .malformed => 3
  | .permission => 4

/-- A translation fault at an instruction or fetch of group `g` (R96): the workgroup is terminated and TRANSLATION is
written with the address, the cause and the access kind. -/
def State.translationFault (s : State) (g : Nat) (c : Cause) (a : Acc) (va : Dword) : State :=
  (s.recordG g 3 c.code a.code va.toNat (match a with | .fetch => (s.group g).pc | _ => (s.group g).trapPc).toNat).terminate (s.group g).wg

/-- A miss asks its die for a walk (R93); one request serves all that want the same page of the same context. -/
def State.askWalk (s : State) (g : Nat) (va : Dword) (a : Acc) : State :=
  let d := s.dieOf g
  let x := s.die d
  let k := s.ctxOf g
  if x.walkQ.any (fun r => r.ctx = k && r.va.toNat / 65536 = va.toNat / 65536) || 1024 ≤ x.walkQ.length then s
  else s.setDie d { x with walkQ := x.walkQ ++ [⟨k, va, g, a.code⟩] }

/-! ### Issue -/

/-- What the checks at issue decide. -/
inductive Gate where
  | go
  | trap (t : Trap)
  | stall (r : Stall)
deriving DecidableEq, Repr

/-- The immediate of the open bundle (R134). -/
def Group.himm (g : Group) : Option Word := g.bundle.bind (·.himm)

/-- The HMOD of the open bundle (R135). -/
def Group.hmod (g : Group) : Option FmtHmod := g.bundle.bind (·.hmod)

/-- The rounding mode of the instruction (R77, R135): RNE without an HMOD that sets it. -/
def Group.rm (g : Group) : BitVec 2 :=
  match g.hmod with
  | some h => if h.e = 1 then h.r else 0
  | none => 0

/-- The scope of the instruction (R135): .grp without an HMOD that sets it. -/
def Group.scope (g : Group) : Nat :=
  match g.hmod with
  | some h => if h.s = 1 then h.c.toNat else 0
  | none => 0

/-- The cache policy that an HMOD gives (R101, R135). -/
def Group.policy (g : Group) : Option Nat :=
  match g.hmod with
  | some h => if h.g = 1 then some h.k.toNat else none
  | none => none

/-- Whether the bundle's hints are ones that the instruction accepts (R134, R135). -/
def hintsOk (n : Info) (g : Group) : Bool :=
  match g.bundle with
  | none => true
  | some b =>
    (b.himm.isNone || n.imm) && b.himmHi.isNone &&
      (match b.hmod with
        | none => true
        | some h => (h.e = 0 || n.re) && (h.s = 0 || n.se) && (h.g = 0 || n.ce))

/-- Whether the encoding is legal at the group's width, with its hints (R130, R134, R135, R146). -/
def encodingOk (n : Info) (g : Group) : Bool :=
  n.legal g.himm && n.minWidth ≤ g.width && n.srcs.all (fun o => o.ok g.width) && n.dsts.all (fun o => o.ok g.width) &&
    hintsOk n g

/-- Whether a class may issue (R37) in a core's superstep, for a participating or a passive context. -/
def classOk (c : Class) (exchange phased : Bool) : Bool :=
  match c with
  | .scalar | .reader | .barrier | .future => true
  | .vector | .memory | .rcu | .idem => !exchange || !phased
  | .gpwait => !phased
  | .xclass => exchange && phased
  | .phend => !exchange && phased

/-- The registers that an operand names at width `w` (R130, R204). -/
def Src.count (o : Src) (w : Nat) : Nat := if o.n = 0 then max 1 (w / 32) else o.n
def Dst.count (o : Dst) (w : Nat) : Nat := if o.n = 0 then max 1 (w / 32) else o.n

/-- Whether an operand is a latch; `encodingOk` refuses a latch code in a group of registers. -/
def Src.isLatch (o : Src) : Bool := 60 ≤ o.reg && o.file != .tile

/-- The latch that an operand names (R67). -/
def Src.latch (o : Src) (g : Group) : Latch :=
  if o.file = .s then g.sk.getD (o.reg - 60) noLatch else g.vk.getD (o.reg - 60) noLatch

/-- Whether a result in flight on core `c` will be written to slice `id`. -/
def State.sliceBusy (s : State) (c id : Nat) : Bool := s.pend.any (fun p => p.2.core = c && p.2.slices.contains id)

/-- Whether a result in flight on core `c` will be written to entry `id`. -/
def State.entryBusy (s : State) (c id : Nat) : Bool := s.pend.any (fun p => p.2.core = c && p.2.entries.contains id)

/-- Whether a vector name awaits a result. -/
def State.nameBusyV (s : State) (g n : Nat) : Bool :=
  (s.group g).v.any (fun p => p.1 / 16 = n && s.sliceBusy (s.coreOf g) p.2.id)

/-- Whether a scalar name awaits a result, or an ordinary read of it awaits a future (R57, R235). -/
def State.nameBusyS (s : State) (g n : Nat) (ordinary : Bool) : Bool :=
  match Fmap.find (s.group g).s n with
  | none => false
  | some e => s.entryBusy (s.coreOf g) e.id ||
      (ordinary && match e.fut with | some op => (Fmap.find s.done op).isNone | none => false)

/-- Whether a source operand is not available yet (R29). -/
def State.srcBusy (s : State) (g : Nat) (o : Src) : Bool :=
  if o.isLatch then
    match (o.latch (s.group g)).wait with
    | some op => (o.latch (s.group g)).valid && (Fmap.find s.pend op).isSome
    | none => false
  else
    (List.range (o.count (s.group g).width)).any (fun i =>
      match o.file with
      | .s => s.nameBusyS g (o.reg + i) o.ordinary
      | .v => s.nameBusyV g (o.reg + i)
      | .tile => false)

/-- Whether a destination awaits a result that the lanes outside the execute mask would keep (R55). -/
def State.dstBusy (s : State) (g : Nat) (o : Dst) (m : Mask) : Bool :=
  o.file = .v && m != fullMask (s.group g).width &&
    (List.range (o.count (s.group g).width)).any (fun i => s.nameBusyV g (o.reg + i))

/-- The operands that an instruction of the group reads (R262). -/
def Info.reads (n : Info) (x : Group) : List Src := if n.idleReads || x.execMask n.pred != 0 then n.srcs else []

/-- The checks that every instruction makes at issue, in their order (R146, R220, R264): the encoding, the class in the
superstep, the operands there, the latches valid, and R182. -/
def State.gate (s : State) (g : Nat) (n : Info) : Gate :=
  let x := s.group g
  if !encodingOk n x then .trap .illegalOp
  else if !classOk n.cls (s.core (s.coreOf g)).exchange (s.ctx (s.ctxOf g)).phased then .trap .phaseIllegal
  else if (n.reads x).any (fun o => s.srcBusy g o) || n.dsts.any (fun o => s.dstBusy g o (x.execMask n.pred)) then .stall .result
  else if n.srcs.any (fun o => o.isLatch && !(o.latch x).valid) then .trap .latchStale
  else if n.idemTrap && x.region.isSome then .trap .idemRegion
  else .go

/-- An ordinary read of a future-bound name whose operation has completed: the name holds the completion word and is no
longer bound (R235). -/
def Group.resolve (x : Group) (done : Fmap Word) (n : Nat) : Group :=
  match Fmap.find x.s n with
  | some ⟨id, _, some op, b, d⟩ =>
    match Fmap.find done op with
    | some w => { x with s := Fmap.insert x.s n ⟨id, w, none, b, d⟩ }
    | none => x
  | _ => x

/-- The futures that the ordinary reads of an instruction resolve (R235). -/
def State.resolveReads (s : State) (g : Nat) (n : Info) : State :=
  s.modGroup g (fun x =>
    ((n.reads x).filter (fun o => o.file = .s && o.ordinary && !o.isLatch)).foldl
      (fun x o => (List.range (o.count x.width)).foldl (fun x i => x.resolve s.done (o.reg + i)) x) x)

/-- What the body of a meaning answers: the state with its effect and where the group goes on; the same of a taken transfer,
which ends last-read coverage wherever it goes (R58); a trap; a stall; or a state in which the group waits, was rolled back or
ended, to which nothing is added. -/
inductive Body where
  | done (s : State) (pc : Dword)
  | jump (s : State) (pc : Dword)
  | trap (t : TrapInfo)
  | stall (s : State) (r : Stall)
  | left (s : State)

/-- Whether a last-read bit frees operand register `r`: the bit is set, and the register is no destination (R58, R132). Of a
group of registers that overlaps the destination in part, the others are freed (DESIGN CHOICE, log 82). -/
def lastRead (n : Info) (bits : BitVec 3) (o : Src) (r : Nat) (w : Nat) : Bool :=
  (match o.bit with | some b => bits.getLsbD b | none => false) && !o.isLatch &&
    !(n.dsts.any (fun d => d.file = o.file && d.reg ≤ r && r < d.reg + d.count w))

/-- The registers that last-read bits free after an instruction (R58). -/
def Group.lastReads (x : Group) (n : Info) : List (Nat × Nat) :=
  match x.hlr.head? with
  | none => []
  | some bits =>
    n.srcs.flatMap (fun o =>
      ((List.range (o.count x.width)).filter (fun i => lastRead n bits o (o.reg + i) x.width)).map
        (fun i => (o.file.code, o.reg + i)))

/-- The end of an instruction that did its work: last-read registers are freed, the signature is updated with the execute
mask it had, and the group goes on at `pc` (R58, R317). -/
def State.finish (s : State) (g : Nat) (n : Info) (exec : Mask) (pc : Dword) : State :=
  s.modGroup g (fun x => (x.freeRegs (x.lastReads n)).completed n.word exec pc)

/-- Whether an operand reads lane `l` of a vector register. -/
def Src.reads (o : Src) (exec : Mask) (l : Nat) : Bool :=
  if o.lanes = 0 then exec.getLsbD l else if o.lanes = 160 then exec != 0 && l < 32 else l % o.lanes = 0

/-- Whether an operand that an instruction reads holds an uncorrectable error (R312): a scalar, or a vector register in the
executing lanes, or in every lane whose number is a multiple of `lanes` where the operand gives one. -/
def Src.bad (o : Src) (x : Group) (exec : Mask) : Bool :=
  !o.isLatch && (List.range (o.count x.width)).any (fun i =>
    match o.file with
    | .s => x.badS (o.reg + i)
    | .v => (List.range x.width).any (fun l => o.reads exec l && x.badV (o.reg + i) l)
    | .tile => (lanesOf exec).any (fun l => (List.range 32).any (fun c => x.badV (tileName o.reg c) l)))

/-- Whether an instruction meets a register read that holds an uncorrectable error (R312). -/
def Group.badReads (x : Group) (n : Info) : Bool := (n.reads x).any (fun o => o.bad x (x.execMask n.pred))

/-- An instruction issues (R29, R220): its checks in order, its body, and its end. A trap performs nothing; a stall leaves
the group to issue the same bundle again. An uncorrectable error in a register that it reads acts after every precise trap
(R303, R313). -/
def issue (n : Info) (body : State → Body) (s : State) : Out :=
  let g := s.cur
  match s.gate g n with
  | .trap t => .next (s.preciseTrap g { trap := t })
  | .stall r => .next (s.modGroup g (fun x => { x with stall := some r }))
  | .go =>
    let s1 := s.resolveReads g n
    match body s1 with
    | .trap t => .next (s1.preciseTrap g t)
    | .stall s2 r => .next (s2.modGroup g (fun x => { x with stall := some r }))
    | .left s2 => .next (if (s1.group g).badReads n then s1.uncorrectable g 2 0 else s2)
    | .done s2 pc =>
      .next (if (s1.group g).badReads n then s1.uncorrectable g 2 0
        else s2.finish g n ((s1.group g).execMask n.pred) pc)
    | .jump s2 pc =>
      .next (if (s1.group g).badReads n then s1.uncorrectable g 2 0
        else (s2.finish g n ((s1.group g).execMask n.pred) pc).modGroup g (fun x => { x with hlr := [] }))

/-- The body of an instruction that allocates `nv` slices and `ns` entries: it stalls on the pool until all can be
allocated at once (R62). -/
def withRoom (s : State) (nv ns : Nat) (k : Body) : Body :=
  if s.room (s.group s.cur).wg nv ns then k else .stall s (.pool nv ns)

/-- The effect done, the group goes on at the next instruction. -/
def andNext (s : State) : Body := .done s (nextPc (s.group s.cur).pc)

/-- The group that issues. -/
def State.me (s : State) : Group := s.group s.cur

/-- The core, die, context and workgroup of the group that issues. -/
def State.myCore (s : State) : Nat := s.coreOf s.cur
def State.myDie (s : State) : Nat := s.dieOf s.cur
def State.myCtx (s : State) : Nat := s.ctxOf s.cur
def State.myWg (s : State) : Wg := s.wgOf s.cur

/-- An acquire of the issuing group at `scope`: at cluster scope or wider the core's L1 is invalidated (R102), and at workgroup
scope the group takes no line older than what its workgroup has read (R114, R116). -/
def State.acquire (s : State) (scope : Nat) : State :=
  if 2 ≤ scope then s.clearL1 s.myCore else if scope = 1 then s.learn s.cur else s

end Sys2Proof.Machine
end

