-- ==== Sys2Proof/Machine/Scalar.lean ====
section
/-! DEFINITION. Scalar arithmetic (R158 to R160) and the special registers of group scope or wider (R49 to R53, R161). -/

namespace Sys2Proof.Machine

/-! ### Results -/

/-- The number of the entry that scalar name `n` maps. -/
def Group.idS (g : Group) (n : Nat) : List Nat := (Fmap.find g.s n).toList.map (·.id)

/-- The result of a scalar instruction (R55, R65, R158, R160): written to D, or to the pair D, D + 1, unless WS is set, and
its bits [31:0] shifted into sk0. A variable-latency (`slow`) result is in flight until it is written. -/
def scalarResult (s : State) (d : BitVec 6) (ws : BitVec 1) (wide slow : Bool) (r : Dword) : Body :=
  let g := s.cur
  withRoom s 0 (if ws = 1 then 0 else if wide then 2 else 1)
    (let t := if ws = 1 then s else if wide then s.putS2 g d.toNat r else s.putS g d.toNat (loOf r)
     let ids := if ws = 1 then [] else (t.group g).idS d.toNat ++ (if wide then (t.group g).idS (d.toNat + 1) else [])
     let u := if slow then t.addPend ⟨.slow, g, (s.group g).wg, s.coreOf g, [], ids⟩ else t
     andNext (u.modGroup g (fun x => x.shiftS (loOf r) (if slow then some t.nextId else none))))

/-! ### SALU -/

/-- The functions of SALU and SALUI (R158, R159). -/
inductive SOp where
  | add | sub | mul | mulhI | mulhN | divI | divN | remI | remN | and | or | xor | shl | shrN | shrI
  | minI | maxI | minN | maxN | seq | sne | sltI | sltN | sleI | sleN | mov | popc | clz
deriving DecidableEq, Repr

/-- A truth value as a word of any width. -/
def ofBool (n : Nat) (c : Bool) : BitVec n := if c then 1 else 0

/-- The number of 1 bits. -/
def popCount {n : Nat} (a : BitVec n) : Nat := ((List.range n).filter (fun i => a.getLsbD i)).length

/-- The number of leading 0 bits; n for 0 (R158). -/
def leadingZeros {n : Nat} (a : BitVec n) : Nat := if a = 0 then n else n - 1 - Nat.log2 a.toNat

/-- r of the table of R158 at n bits; `k` is the shift count. -/
def SOp.result (o : SOp) {n : Nat} (a b : BitVec n) (k : Nat) : BitVec n :=
  match o with
  | .add => a + b
  | .sub => a - b
  | .mul => a * b
  | .mulhI => (a.signExtend (2 * n) * b.signExtend (2 * n)).extractLsb' n n
  | .mulhN => (a.zeroExtend (2 * n) * b.zeroExtend (2 * n)).extractLsb' n n
  | .divI => if b = 0 then 0 else BitVec.ofInt n (a.toInt.tdiv b.toInt)
  | .divN => if b = 0 then 0 else BitVec.ofNat n (a.toNat / b.toNat)
  | .remI => if b = 0 then a else BitVec.ofInt n (a.toInt.tmod b.toInt)
  | .remN => if b = 0 then a else BitVec.ofNat n (a.toNat % b.toNat)
  | .and => a &&& b
  | .or => a ||| b
  | .xor => a ^^^ b
  | .shl => a <<< k
  | .shrN => a >>> k
  | .shrI => a.sshiftRight k
  | .minI => if a.toInt ≤ b.toInt then a else b
  | .maxI => if a.toInt ≤ b.toInt then b else a
  | .minN => if a.toNat ≤ b.toNat then a else b
  | .maxN => if a.toNat ≤ b.toNat then b else a
  | .seq => ofBool n (a = b)
  | .sne => ofBool n (a != b)
  | .sltI => ofBool n (a.toInt < b.toInt)
  | .sltN => ofBool n (a.toNat < b.toNat)
  | .sleI => ofBool n (a.toInt ≤ b.toInt)
  | .sleN => ofBool n (a.toNat ≤ b.toNat)
  | .mov => a
  | .popc => BitVec.ofNat n (popCount a)
  | .clz => BitVec.ofNat n (leadingZeros a)

/-- The functions whose destination is 32 bits wide whatever DW is (R158). -/
def SOp.narrow (o : SOp) : Bool :=
  match o with
  | .seq | .sne | .sltI | .sltN | .sleI | .sleN | .popc | .clz => true
  | _ => false

/-- The functions that take a shift count from one register (R158). -/
def SOp.isShift (o : SOp) : Bool :=
  match o with
  | .shl | .shrN | .shrI => true
  | _ => false

/-- Divisions and remainders have a variable latency (R160). -/
def SOp.slow (o : SOp) : Bool :=
  match o with
  | .divI | .divN | .remI | .remN => true
  | _ => false

/-- The value of SALU (R158) from the fields A and B and DW, as 64 bits. -/
def saluValue (x : Group) (o : SOp) (a b : BitVec 6) (dw : BitVec 1) : Dword :=
  if dw = 1 then
    if o.isShift then o.result (x.readS2 a.toNat) 0 ((x.srcS b.toNat).toNat % 64)
    else o.result (x.readS2 a.toNat) (x.readS2 b.toNat) 0
  else (o.result (x.srcS a.toNat) (x.srcS b.toNat) ((x.srcS b.toNat).toNat % 32)).zeroExtend 64

/-- The body of SALU with two sources (R158). -/
def saluBody (o : SOp) (f : FmtS) (s : State) : Body :=
  scalarResult s f.d f.s (f.l = 1 && !o.narrow) o.slow (saluValue s.me o f.a f.b f.l)

/-- The body of SALU with one source (R158). -/
def salu1Body (o : SOp) (f : FmtS1) (s : State) : Body :=
  scalarResult s f.d f.s (f.l = 1 && !o.narrow) false (saluValue s.me o f.a f.a f.l)

/-- imm of SALUI (R159): sext(IMM, 32), or the bundle's immediate. -/
def saluiImm (x : Group) (i : BitVec 10) : Word :=
  match x.himm with
  | some v => v
  | none => i.signExtend 32

/-- The body of SALUI (R159). -/
def saluiBody (o : SOp) (f : FmtSi) (s : State) : Body :=
  let imm := saluiImm s.me f.i
  scalarResult s f.d 0 false false ((o.result (s.me.srcS f.a.toNat) imm (imm.toNat % 32)).zeroExtend 64)

/-- SADD: a + b (R158). -/
def execSadd (f : FmtS) (s : State) : Out := issue (Instr.info (.sadd f)) (saluBody .add f) s

/-- SSUB: a - b (R158). -/
def execSsub (f : FmtS) (s : State) : Out := issue (Instr.info (.ssub f)) (saluBody .sub f) s

/-- SMUL: the low bits of a × b (R158). -/
def execSmul (f : FmtS) (s : State) : Out := issue (Instr.info (.smul f)) (saluBody .mul f) s

/-- SMULH.i: the high half of the signed product (R158). -/
def execSmulhI (f : FmtS) (s : State) : Out := issue (Instr.info (.smulhI f)) (saluBody .mulhI f) s

/-- SMULH.n: the high half of the unsigned product (R158). -/
def execSmulhN (f : FmtS) (s : State) : Out := issue (Instr.info (.smulhN f)) (saluBody .mulhN f) s

/-- SDIV.i: the signed quotient (R158). -/
def execSdivI (f : FmtS) (s : State) : Out := issue (Instr.info (.sdivI f)) (saluBody .divI f) s

/-- SDIV.n: the unsigned quotient (R158). -/
def execSdivN (f : FmtS) (s : State) : Out := issue (Instr.info (.sdivN f)) (saluBody .divN f) s

/-- SREM.i: the signed remainder (R158). -/
def execSremI (f : FmtS) (s : State) : Out := issue (Instr.info (.sremI f)) (saluBody .remI f) s

/-- SREM.n: the unsigned remainder (R158). -/
def execSremN (f : FmtS) (s : State) : Out := issue (Instr.info (.sremN f)) (saluBody .remN f) s

/-- SAND (R158). -/
def execSand (f : FmtS) (s : State) : Out := issue (Instr.info (.sand f)) (saluBody .and f) s

/-- SOR (R158). -/
def execSor (f : FmtS) (s : State) : Out := issue (Instr.info (.sor f)) (saluBody .or f) s

/-- SXOR (R158). -/
def execSxor (f : FmtS) (s : State) : Out := issue (Instr.info (.sxor f)) (saluBody .xor f) s

/-- SSHL: a × 2^k (R158). -/
def execSshl (f : FmtS) (s : State) : Out := issue (Instr.info (.sshl f)) (saluBody .shl f) s

/-- SSHR.n: the logical right shift (R158). -/
def execSshrN (f : FmtS) (s : State) : Out := issue (Instr.info (.sshrN f)) (saluBody .shrN f) s

/-- SSHR.i: the arithmetic right shift (R158). -/
def execSshrI (f : FmtS) (s : State) : Out := issue (Instr.info (.sshrI f)) (saluBody .shrI f) s

/-- SMIN.i (R158). -/
def execSminI (f : FmtS) (s : State) : Out := issue (Instr.info (.sminI f)) (saluBody .minI f) s

/-- SMAX.i (R158). -/
def execSmaxI (f : FmtS) (s : State) : Out := issue (Instr.info (.smaxI f)) (saluBody .maxI f) s

/-- SMIN.n (R158). -/
def execSminN (f : FmtS) (s : State) : Out := issue (Instr.info (.sminN f)) (saluBody .minN f) s

/-- SMAX.n (R158). -/
def execSmaxN (f : FmtS) (s : State) : Out := issue (Instr.info (.smaxN f)) (saluBody .maxN f) s

/-- SSEQ: whether a = b (R158). -/
def execSseq (f : FmtS) (s : State) : Out := issue (Instr.info (.sseq f)) (saluBody .seq f) s

/-- SSNE: whether a ≠ b (R158). -/
def execSsne (f : FmtS) (s : State) : Out := issue (Instr.info (.ssne f)) (saluBody .sne f) s

/-- SSLT.i (R158). -/
def execSsltI (f : FmtS) (s : State) : Out := issue (Instr.info (.ssltI f)) (saluBody .sltI f) s

/-- SSLT.n (R158). -/
def execSsltN (f : FmtS) (s : State) : Out := issue (Instr.info (.ssltN f)) (saluBody .sltN f) s

/-- SSLE.i (R158). -/
def execSsleI (f : FmtS) (s : State) : Out := issue (Instr.info (.ssleI f)) (saluBody .sleI f) s

/-- SSLE.n (R158). -/
def execSsleN (f : FmtS) (s : State) : Out := issue (Instr.info (.ssleN f)) (saluBody .sleN f) s

/-- SMOV: a (R158). -/
def execSmov (f : FmtS1) (s : State) : Out := issue (Instr.info (.smov f)) (salu1Body .mov f) s

/-- SPOPC: the number of 1 bits (R158). -/
def execSpopc (f : FmtS1) (s : State) : Out := issue (Instr.info (.spopc f)) (salu1Body .popc f) s

/-- SCLZ: the number of leading 0 bits (R158). -/
def execSclz (f : FmtS1) (s : State) : Out := issue (Instr.info (.sclz f)) (salu1Body .clz f) s

/-- SADDI (R159). -/
def execSaddi (f : FmtSi) (s : State) : Out := issue (Instr.info (.saddi f)) (saluiBody .add f) s

/-- SANDI (R159). -/
def execSandi (f : FmtSi) (s : State) : Out := issue (Instr.info (.sandi f)) (saluiBody .and f) s

/-- SORI (R159). -/
def execSori (f : FmtSi) (s : State) : Out := issue (Instr.info (.sori f)) (saluiBody .or f) s

/-- SXORI (R159). -/
def execSxori (f : FmtSi) (s : State) : Out := issue (Instr.info (.sxori f)) (saluiBody .xor f) s

/-- SSHLI (R159). -/
def execSshli (f : FmtSi) (s : State) : Out := issue (Instr.info (.sshli f)) (saluiBody .shl f) s

/-- SSHRIN (R159). -/
def execSshriN (f : FmtSi) (s : State) : Out := issue (Instr.info (.sshriN f)) (saluiBody .shrN f) s

/-- SSHRII (R159). -/
def execSshriI (f : FmtSi) (s : State) : Out := issue (Instr.info (.sshriI f)) (saluiBody .shrI f) s

/-- SSLTII (R159). -/
def execSsltiI (f : FmtSi) (s : State) : Out := issue (Instr.info (.ssltiI f)) (saluiBody .sltI f) s

/-- SSLTIN (R159). -/
def execSsltiN (f : FmtSi) (s : State) : Out := issue (Instr.info (.ssltiN f)) (saluiBody .sltN f) s

/-- SMOVI (R159): the immediate. -/
def execSmovi (f : FmtSmovi) (s : State) : Out :=
  issue (Instr.info (.smovi f)) (fun s => scalarResult s f.d 0 false false ((saluiImm s.me f.i).zeroExtend 64)) s

/-! ### Special registers -/

/-- gp.stk (R52). -/
def Group.stk (g : Group) : Nat :=
  g.mstk.length * 65536 + g.rstk.length * 256 + (match g.holder with | some h => h.level | none => 0)

/-- gp.rd (R52): the parity reads 0 at depth 0. -/
def Group.rd (g : Group) : Nat := (if g.rdDepth != 0 && g.rdPar then 256 else 0) + g.rdDepth

/-- gp.hold (R52): the slices held, pins included, and the entries that some name maps. A slice that an overwritten result still in
flight occupies is not among the group's, though it counts among the workgroup's (DESIGN CHOICE, log 106). -/
def Group.hold (g : Group) : Nat := (distinct (g.s.map (·.2.id))).length * 65536 + (distinct g.sliceIds).length

/-- Bits [3:0] of a chain's validity. -/
def validBits (c : List Latch) : Nat :=
  (List.range 4).foldl (fun a k => a + (if (c.getD k noLatch).valid then 2 ^ k else 0)) 0

/-- gp.latch (R52). -/
def Group.latchBits (g : Group) : Nat := validBits g.sk * 16 + validBits g.vk

/-- co.id of core `c` (R53). -/
def coId (c : Nat) : Nat := c * 64 + c / 12 * 16 + c % 12 / 4 * 4 + c % 4

/-- The value of a special register of group scope or wider, as group `g` reads it at issue (R49, R161). -/
def State.special (s : State) (g r : Nat) : Dword :=
  let x := s.group g
  let w := s.wgOf g
  let c := s.coreOf g
  match r with
  | 0x010 => BitVec.ofNat 64 x.width
  | 0x011 => BitVec.ofNat 64 x.base
  | 0x012 => BitVec.ofNat 64 x.stage
  | 0x013 => x.allFlags.zeroExtend 64
  | 0x014 => BitVec.ofNat 64 x.stk
  | 0x015 => BitVec.ofNat 64 x.rd
  | 0x016 => x.sig.zeroExtend 64
  | 0x017 => BitVec.ofNat 64 x.hold
  | 0x018 => BitVec.ofNat 64 x.latchBits
  | 0x020 => BitVec.ofNat 64 w.idx
  | 0x021 => BitVec.ofNat 64 w.idy
  | 0x022 => BitVec.ofNat 64 w.idz
  | 0x023 => BitVec.ofNat 64 w.lanes
  | 0x028 => BitVec.ofNat 64 w.members.length
  | 0x029 => BitVec.ofNat 64 w.rank
  | 0x030 => BitVec.ofNat 64 w.gx
  | 0x031 => BitVec.ofNat 64 w.gy
  | 0x032 => BitVec.ofNat 64 w.gz
  | 0x040 => (s.core c).ph
  | 0x041 => (s.die (dieOfCore c)).ck
  | 0x042 => BitVec.ofNat 64 (coId c)
  | 0x043 => BitVec.ofNat 64 ((if (s.ctx w.ctx).phased then 64 else 0) + w.ctx)
  | 0x044 => BitVec.ofNat 64 (s.vfree c)
  | 0x045 => BitVec.ofNat 64 (s.sfree c)
  | _ => 0

/-- Whether an earlier instruction of group `g` has yet to raise its flags (R50, R196, R262). -/
def State.flagsPending (s : State) (g : Nat) : Bool :=
  s.matrixBusy g || s.pend.any (fun p => p.2.g = g && (p.2.kind = .slow || p.2.kind = .atomic))

/-- SGET (R161). -/
def execSget (f : FmtSget) (s : State) : Out :=
  issue (Instr.info (.sget f)) (fun s =>
    if f.r = 0x013 && s.flagsPending s.cur then .stall s .result
    else scalarResult s f.d 0 (spr64 f.r.toNat) false (s.special s.cur f.r.toNat)) s

/-- The sticky flags of every lane of a group set to a value (R50). -/
def Group.setAllFlags (g : Group) (v : Flags) : Group :=
  { g with flags := if v = 0 then [] else (List.range g.width).map (fun l => (l, v)) }

/-- SSET (R50, R161): its one writable target is gp.flags. -/
def execSset (f : FmtSset) (s : State) : Out :=
  issue (Instr.info (.sset f)) (fun s =>
    if s.flagsPending s.cur then .stall s .result
    else andNext (s.modGroup s.cur (fun x => x.setAllFlags ((s.me.srcS f.a.toNat).extractLsb' 0 6)))) s

end Sys2Proof.Machine
end

