-- ==== Sys2Proof/Machine/Control.lean ====
section
/-! DEFINITION. Branches, calls and returns (R163 to R165), phases (R38, R180), idempotent regions (R181 to R183), reader
sections, grace-period waits and fences (R114, R120, R125, R184), and the system instructions (R187 to R191). -/

namespace Sys2Proof.Machine

/-! ### Transfers -/

/-- The word offset of a branch or call: the bundle's immediate or the instruction's field, signed (R134, R163). -/
def wordOffset {n : Nat} (x : Group) (o : BitVec n) : Dword :=
  match x.himm with
  | some v => v.signExtend 64
  | none => o.signExtend 64

/-- PC + 4 × offset (R163). -/
def Group.relative (x : Group) (off : Dword) : Dword := x.pc + 4 * off

/-- A branch (R163): taken when the condition holds of the signed value of A. -/
def branchBody (cond : Int → Bool) (f : FmtBc) (s : State) : Body :=
  let x := s.me
  if cond (x.srcS f.a.toNat).toInt then .jump s (x.relative (wordOffset x f.o)) else .done s (nextPc x.pc)

/-- BZ (R163). -/
def execBz (f : FmtBc) (s : State) : Out := issue (Instr.info (.bz f)) (branchBody (fun x => x = 0) f) s

/-- BNZ (R163). -/
def execBnz (f : FmtBc) (s : State) : Out := issue (Instr.info (.bnz f)) (branchBody (fun x => x != 0) f) s

/-- BLTZ (R163). -/
def execBltz (f : FmtBc) (s : State) : Out := issue (Instr.info (.bltz f)) (branchBody (fun x => x < 0) f) s

/-- BGEZ (R163). -/
def execBgez (f : FmtBc) (s : State) : Out := issue (Instr.info (.bgez f)) (branchBody (fun x => 0 ≤ x) f) s

/-- BGTZ (R163). -/
def execBgtz (f : FmtBc) (s : State) : Out := issue (Instr.info (.bgtz f)) (branchBody (fun x => 0 < x) f) s

/-- BLEZ (R163). -/
def execBlez (f : FmtBc) (s : State) : Out := issue (Instr.info (.blez f)) (branchBody (fun x => x ≤ 0) f) s

/-- JMP (R163). -/
def execJmp (f : FmtJ) (s : State) : Out :=
  issue (Instr.info (.jmp f)) (fun s => .jump s (s.me.relative (wordOffset s.me f.o))) s

/-- A return address pushed (R14): RETURN_STACK at depth 16; the latches become invalid (R66; for CALLI, log 22). -/
def pushReturn (s : State) (target : Dword) : Body :=
  let x := s.me
  if 16 ≤ x.rstk.length then .trap { trap := .returnStack }
  else .jump (s.modGroup s.cur (fun y => { y.dropLatches with rstk := nextPc x.pc :: x.rstk })) target

/-- CALL (R163). -/
def execCall (f : FmtJ) (s : State) : Out :=
  issue (Instr.info (.call f)) (fun s => pushReturn s (s.me.relative (wordOffset s.me f.o))) s

/-- RET (R164): RETURN_STACK at depth 0, and IDEM_REGION at a depth no greater than the region's saved depth (R182). -/
def execRet (s : State) : Out :=
  issue (Instr.info .ret) (fun s =>
    let x := s.me
    match x.rstk with
    | [] => .trap { trap := .returnStack }
    | pc :: rest =>
      if x.region.any (fun r => x.rstk.length ≤ r.rsDepth) then .trap { trap := .idemRegion }
      else .jump (s.modGroup s.cur (fun y => { y.dropLatches with rstk := rest })) pc) s

/-- JMPI (R164): a jump to the address in a scalar pair; in handler mode it returns from the handler (R306). -/
def execJmpi (f : FmtA) (s : State) : Out :=
  issue (Instr.info (.jmpi f)) (fun s =>
    let t := s.me.readS2 f.a.toNat
    if t.toNat % 4 != 0 then .trap { trap := .misaligned, addr := t }
    else .jump (s.modGroup s.cur Group.leaveHandler) t) s

/-- CALLI (R164). -/
def execCalli (f : FmtA) (s : State) : Out :=
  issue (Instr.info (.calli f)) (fun s =>
    let t := s.me.readS2 f.a.toNat
    if t.toNat % 4 != 0 then .trap { trap := .misaligned, addr := t } else pushReturn s t) s

/-! ### System instructions -/

/-- NOP (R191). -/
def execNop (s : State) : Out := issue (Instr.info .nop) andNext s

/-- Whether an issued matrix operation of group `g` has yet to write the slice at a key of its vector map: a tile of a product
or another instruction on a tile, or a slice that an MRD fills. -/
def State.mopUses (s : State) (g key : Nat) (sl : Slice) : Bool :=
  s.mops.any (fun p => p.2.g = g &&
    ((64 + 32 * p.2.acc ≤ key / 16 && key / 16 < 96 + 32 * p.2.acc) || (key / 16 < 64 && p.2.fills.any (fun q => q.2 = sl.id))))

/-- The effects of a group's exit (R188): it issues no more, its reader count goes, its region ends, its registers are freed
(those that issued matrix operations write, once these are done), its batches run on, waiters of a block-form barrier that names its lanes
and, with the last group of its workgroup, of a cluster barrier meet their traps (R28), and a pending rendezvous resolves
with EXITED (R20). -/
def State.exitGroup (s : State) (g : Nat) : State :=
  let t := s.dropReader g
  let t := t.modGroup g (fun x =>
    { x with status := .exited, region := none, bundle := none, hlr := [], hrun := 0, stall := none, pendTraps := []
             poolHold := none, rollbackDue := false, wait := none, v := Fmap.select x.v (fun k sl => s.mopUses g k sl), s := []
             batchOpen := false, openStatus := 0 })
  let t := t.orphanBlocks g
  let t := t.resolveRendezvous (t.group g).wg (t.group g).base (t.group g).width 2
  if t.hasExited (t.group g).wg then t.orphanCluster (t.group g).wg else t

/-- EXIT (R188). -/
def execExit (s : State) : Out :=
  issue (Instr.info .exit) (fun s =>
    if s.me.holder.isSome then .trap { trap := .widthState } else .left (s.exitGroup s.cur)) s

/-- YIELD (R189): the group becomes the one that is ready for the shortest time, and its HRUN run ends. -/
def execYield (s : State) : Out :=
  issue (Instr.info .yield) (fun s =>
    andNext (s.modGroup s.cur (fun x => { x with hrun := 0, readySince := (s.die s.myDie).ck.toNat + 1 }))) s

/-- SNAP (R190): the common trigger, for a context with permission. -/
def execSnap (s : State) : Out :=
  issue (Instr.info .snap) (fun s => andNext (if s.root.snapPerm.getLsbD s.myCtx then s.raiseTrigger else s)) s

/-- TRAP (R187). -/
def execTrap (f : FmtTrap) (s : State) : Out :=
  issue (Instr.info (.trap f)) (fun _ => .trap { trap := .user, imm := f.i }) s

/-! ### Phases -/

/-- The group blocked in a wait of kind `k` by instruction `n`. -/
def State.waits (s : State) (n : Info) (k : WaitKind) : State :=
  s.modGroup s.cur (fun x =>
    { x with wait := some ⟨k, n.word, x.execMask n.pred, x.lastReads n⟩, stall := none })

/-- PHEND (R38, R40, R180): the group is arrived for the compute-end wave, which its PHEND opens if none is open, and is
blocked until the release. -/
def execPhend (s : State) : Out :=
  issue (Instr.info .phend) (fun s =>
    let t := s.modGroup s.cur (fun x => x.dropLatches.nextInterval)
    .left ({ t with root := t.root.openWave }.waits (Instr.info .phend) .phend)) s

/-- XEND (R38, R180): the group is arrived for the exchange-end wave once its transfers have completed. -/
def execXend (s : State) : Out :=
  issue (Instr.info .xend) (fun s =>
    .left ((s.modGroup s.cur (fun x => x.dropLatches.nextInterval)).waits (Instr.info .xend) .xend)) s

/-! ### Idempotent regions -/

/-- The end address of the region record that begins at `pc` (R153, R181). -/
def Kernel.regionEnd (k : Kernel) (pc : Dword) : Option Dword := (k.regions.find? (fun r => r.1 = pc)).map (·.2)

/-- The entry state that IDEMB records, with every mapping pinned (R59, R181). -/
def Group.entryState (x : Group) (fin : Dword) (sig : Word) : Region :=
  { restart := nextPc x.pc, regionEnd := fin, msDepth := x.mstk.length, rsDepth := x.rstk.length, m := x.m
    flags := x.flags, rdDepth := x.rdDepth, rdPar := x.rdPar, sig := sig, v := x.v, s := x.s }

/-- IDEMB (R181). -/
def execIdemb (s : State) : Out :=
  let n := Instr.info .idemb
  issue n (fun (s : State) =>
    match s.myWg.kern.regionEnd s.me.pc with
    | none => .trap { trap := .idemRegion }
    | some fin =>
      let t := { s with mops := Fmap.mapVals (fun _ (o : MOp) => if o.g = s.cur then { o with inRegion := false } else o) s.mops }
      andNext (t.modGroup s.cur (fun x =>
        { x with region := some (x.entryState fin (sigStep x.sig n.word (x.execMask 0))), rollbacks := 0 }))) s

/-- IDEME (R183). -/
def execIdeme (s : State) : Out :=
  issue (Instr.info .ideme) (fun s =>
    let x := s.me
    match x.region with
    | none => .trap { trap := .idemRegion }
    | some r =>
      if x.pc != r.regionEnd || x.mstk.length != r.msDepth || x.rstk.length != r.rsDepth then .trap { trap := .idemRegion }
      else andNext (s.modGroup s.cur (fun y => { y with region := none }))) s

/-! ### Reader sections, grace periods and fences -/

/-- RDENTER (R120). -/
def execRdenter (s : State) : Out :=
  issue (Instr.info .rdenter) (fun s =>
    let x := s.me
    if x.rdDepth = 255 then .trap { trap := .readerSection }
    else if x.rdDepth = 0 then
      let par := (s.core s.myCore).parity
      andNext ((s.modCnt s.myCore par (· + 1)).modGroup s.cur (fun y => { y with rdDepth := 1, rdPar := par }))
    else andNext (s.modGroup s.cur (fun y => { y with rdDepth := y.rdDepth + 1 }))) s

/-- RDEXIT (R120). -/
def execRdexit (s : State) : Out :=
  issue (Instr.info .rdexit) (fun s =>
    let x := s.me
    if x.rdDepth = 0 then .trap { trap := .readerSection }
    else if x.rdDepth = 1 then
      andNext ((s.modCnt s.myCore x.rdPar (· - 1)).modGroup s.cur (fun y => { y with rdDepth := 0, rdPar := false }))
    else andNext (s.modGroup s.cur (fun y => { y with rdDepth := y.rdDepth - 1 }))) s

/-- GPWAIT (R125): the group waits for a grace period, which needs a boundary first (R40). -/
def execGpwait (s : State) : Out :=
  issue (Instr.info .gpwait) (fun s =>
    if s.me.rdDepth != 0 then .trap { trap := .readerSection }
    else .left ((s.request .boundary).waits (Instr.info .gpwait) (.gpwait s.root.ph.toNat))) s

/-- Whether an earlier store of the issuing group has not been acknowledged (R102). -/
def State.storesOut (s : State) (g : Nat) : Bool := s.stores.any (fun p => p.2.g = g)

/-- FENCE (R102, R114): a release and an acquire; at cluster scope or wider it waits for the group's stores. -/
def execFence (f : FmtFence) (s : State) : Out :=
  issue (Instr.info (.fence f)) (fun s =>
    if 2 ≤ f.c.toNat && s.storesOut s.cur then .stall s .order
    else
      andNext ((s.acquire f.c.toNat).modGroup s.cur Group.nextInterval)) s

end Sys2Proof.Machine
end

