-- ==== Sys2Proof/Machine/Compaction.lean ====
section
/-! DEFINITION. The exchange of lanes between two groups (R21, R62, R171), the mask-stack instructions (R166 to R170), and
the end of a compaction at a VELSE or VEND. -/

namespace Sys2Proof.Machine

/-! ### Exchange of lanes -/

/-- Where the lane of a receiving group comes from, by a list of (sending lane, receiving lane). -/
def movedFrom (moves : List (Nat × Nat)) (l : Nat) : Option Nat := (moves.find? (fun m => m.2 = l)).map (·.1)

/-- The quarters that an exchange allocates in the receiving group: a sent value's name holds a slice in the sending
quarter and none in the receiving one (R62). -/
def newQuarters (src dst : Group) (moves : List (Nat × Nat)) : List Nat :=
  distinct ((distinct (src.v.map (fun p => p.1 / 16))).flatMap (fun n =>
    moves.filterMap (fun m =>
      if (Fmap.find src.v (vkey n (m.1 / 8))).isSome && (Fmap.find dst.v (vkey n (m.2 / 8))).isNone then
        some (vkey n (m.2 / 8))
      else none)))

/-- A slice of the receiving group after the exchange: received lanes take the sender's values, zero where the sender holds
none (R62). -/
def receivedSlice (src : Group) (moves : List (Nat × Nat)) (key : Nat) (sl : Slice) : Slice :=
  let lane := fun l =>
    match movedFrom moves (8 * (key % 16) + l) with
    | some p => (src.readV (key / 16) p, src.badV (key / 16) p)
    | none => (sl.val.getD l 0, sl.bad.getLsbD l)
  let lanes := (List.range 8).map lane
  { sl with val := lanes.map (·.1), bad := BitVec.ofBoolListLE (lanes.map (·.2)) |>.setWidth 8 }

/-- The vector map of the receiving group, with new quarters numbered from `ids`. -/
def receivedV (src dst : Group) (moves : List (Nat × Nat)) (ids : List Nat) : Fmap Slice :=
  let grown := ((newQuarters src dst moves).zip ids).foldl
    (fun v p => Fmap.insert v p.1 ⟨p.2, List.replicate 8 0, 0, 0⟩) dst.v
  Fmap.mapVals (fun k sl => { receivedSlice src moves k sl with dep := max dst.lastLoad src.lastLoad }) grown

/-- A mask whose received lanes take the sender's bits. -/
def receivedMask (src dst : Mask) (moves : List (Nat × Nat)) : Mask :=
  maskOf ((List.range 128).filter (fun l =>
    match movedFrom moves l with
    | some p => src.getLsbD p
    | none => dst.getLsbD l))

/-- The receiving group with the sender's vector registers, tiles, m1 to m7 bits and flags in the moved lanes (R21). -/
def Group.receive (dst src : Group) (moves : List (Nat × Nat)) (ids : List Nat) : Group :=
  { dst with
      v := receivedV src dst moves ids
      m := (List.range 7).foldl (fun m k => Fmap.insert m (k + 1) (receivedMask (src.mask (k + 1)) (dst.mask (k + 1)) moves)) dst.m
      flags := moves.foldl (fun fl p => Fmap.put 0 fl p.2 (src.flag p.1)) dst.flags
      lastLoad := max dst.lastLoad src.lastLoad
      past := joinPast dst.past src.past }

/-- The moves in the other direction. -/
def swapped (moves : List (Nat × Nat)) : List (Nat × Nat) := moves.map (fun m => (m.2, m.1))

/-- How many slices an exchange of groups `a` and `b` allocates; `moves` pairs a lane of `b` with a lane of `a`. -/
def State.exchangeNeed (s : State) (a b : Nat) (moves : List (Nat × Nat)) : Nat :=
  (newQuarters (s.group b) (s.group a) moves).length + (newQuarters (s.group a) (s.group b) (swapped moves)).length

/-- The moved lanes of `b` and the lanes of `a` at their positions exchanged (R21, R62). -/
def State.exchange (s : State) (a b : Nat) (moves : List (Nat × Nat)) : State :=
  let x := s.group a
  let y := s.group b
  let na := (newQuarters y x moves).length
  let ids := freshIds (s.usedSlices (s.coreOf a)) (s.exchangeNeed a b moves)
  (s.setGroup a (x.receive y moves (ids.take na))).setGroup b (y.receive x (swapped moves) (ids.drop na))

/-- The top entry's mask changed. -/
def Group.setTop (x : Group) (m : Mask) : Group :=
  match x.mstk with
  | [] => x
  | t :: rest => { x with mstk := { t with mask := m } :: rest }

/-! ### The end of a compaction -/

/-- Whether a result in flight will be written to a slice or entry of group `g`, or a matrix operation of it is under way. -/
def State.resultsOut (s : State) (g : Nat) : Bool := s.matrixBusy g || s.pend.any (fun p => p.2.g = g)

/-- What comes before a VELSE or VEND of group A that acts on the entry at its compaction level (R62, R171): once every
slice that the return needs can be allocated, the moved lanes return to B with their top-mask bits, B is unparked at this
instruction, and A goes on to execute it. It waits for A's matrix operations (R274) and also for every other result of A in
flight (DESIGN CHOICE, log 98). -/
def endCompaction (s : State) (k : State → Body) : Body :=
  let a := s.cur
  let x := s.group a
  match x.holder with
  | none => k s
  | some h =>
    if h.level != x.mstk.length then k s
    else if s.resultsOut a then .stall s .result
    else if !s.room x.wg (s.exchangeNeed a h.partner h.moves) 0 then .stall s (.pool (s.exchangeNeed a h.partner h.moves) 0)
    else
      let y := s.group h.partner
      let t := s.exchange a h.partner h.moves
      let t := t.modGroup h.partner (fun z =>
        { z.dropLatches.nextInterval.setTop (receivedMask x.curMask y.curMask (swapped h.moves)) with
            parked := none, pc := x.trapPc, hlr := [], hrun := 0 })
      k (t.modGroup a (fun z =>
        { z.dropLatches.nextInterval.setTop (x.curMask &&& ~~~ maskOf (h.moves.map (·.2))) with holder := none, hlr := [] }))

/-! ### The mask stack -/

/-- Whether an instruction on the top entry acts at a depth no greater than the saved depth of the open region (R182). -/
def Group.frozenTop (x : Group) : Bool := x.region.any (fun r => x.mstk.length ≤ r.msDepth)

/-- The condition of VIF and VWHILE: m[MA], negated when NEG is 1 (R167, R169). -/
def Group.cond (x : Group) (m : BitVec 3) (neg : BitVec 1) : Mask :=
  if neg = 1 then fullMask x.width &&& ~~~ x.mask m.toNat else x.mask m.toNat

/-- PC + 4 × words, for an unsigned forward offset (R166). -/
def Group.ahead (x : Group) (words : Nat) : Dword := x.pc + BitVec.ofNat 64 (4 * words)

/-- VIF (R167). -/
def vifBody (f : FmtVif) (s : State) : Body :=
  let x := s.me
  let els := (vifOffsets f x.himm).1
  let off := (vifOffsets f x.himm).2
  let t := x.curMask &&& x.cond f.m f.n
  let e := x.curMask &&& ~~~ x.cond f.m f.n
  if 32 ≤ x.mstk.length then .trap { trap := .maskStack }
  else
    let entry : MaskEntry := ⟨if els != 0 then x.ahead els else 0, t, x.ahead off⟩
    .done (s.modGroup s.cur (fun y => { y with mstk := entry :: y.mstk }))
      (if t != 0 then nextPc x.pc else if els != 0 && e != 0 then x.ahead els else x.ahead off)

/-- VIF (R167). -/
def execVif (f : FmtVif) (s : State) : Out := issue (Instr.info (.vif f)) (vifBody f) s

/-- VLOOP (R169). -/
def execVloop (f : FmtVloop) (s : State) : Out :=
  issue (Instr.info (.vloop f)) (fun s =>
    let x := s.me
    let off := (loopOffset f.o.toNat x.himm).getD 0
    if 32 ≤ x.mstk.length then .trap { trap := .maskStack }
    else
      .done (s.modGroup s.cur (fun y => { y with mstk := ⟨nextPc x.pc ||| 1, x.curMask, x.ahead off⟩ :: y.mstk }))
        (if x.curMask = 0 then x.ahead off else nextPc x.pc)) s

/-- VWHILE (R169). -/
def execVwhile (f : FmtVwhile) (s : State) : Out :=
  issue (Instr.info (.vwhile f)) (fun s =>
    let x := s.me
    let back := x.pc - BitVec.ofNat 64 (4 * (loopOffset f.o.toNat x.himm).getD 0)
    match x.mstk with
    | [] => .trap { trap := .maskStack }
    | top :: _ =>
      if !top.resume.getLsbD 0 || back != top.resume - 1 || top.recon.toNat ≤ x.pc.toNat then .trap { trap := .maskStack }
      else if x.frozenTop then .trap { trap := .idemRegion }
      else
        let m := top.mask &&& x.cond f.m f.n
        .done (s.modGroup s.cur (fun y => y.setTop m)) (if m != 0 then back else nextPc x.pc)) s

/-- The end of a VELSE or VEND: the instruction's end, then the second update of the signature with the current mask
(R317). -/
def reconverge (n : Info) (s : State) (exec : Mask) (pc : Dword) : Body :=
  .left ((s.finish s.cur n exec pc).modGroup s.cur (fun x => { x with sig := sigMask x.sig x.curMask }))

/-- The mask of the entry below the top, or all ones (R166). -/
def Group.parentMask (x : Group) : Mask :=
  match x.mstk with
  | _ :: e :: _ => e.mask
  | _ => fullMask x.width

/-- VELSE (R168, R171). -/
def execVelse (s : State) : Out :=
  issue (Instr.info .velse) (fun s =>
    let x := s.me
    match x.mstk with
    | [] => .trap { trap := .maskStack }
    | top :: _ =>
      if top.resume = 0 || top.resume != x.pc then .trap { trap := .maskStack }
      else if x.frozenTop then .trap { trap := .idemRegion }
      else endCompaction s (fun s =>
        let x := s.me
        let m := x.parentMask &&& ~~~ x.curMask
        let t := s.modGroup s.cur (fun y =>
          { y with mstk := (match y.mstk with | e :: rest => { e with mask := m, resume := 0 } :: rest | [] => []) })
        reconverge (Instr.info .velse) t (x.execMask 0) (if m = 0 then top.recon else nextPc x.pc))) s

/-- VEND (R170, R171). -/
def execVend (s : State) : Out :=
  issue (Instr.info .vend) (fun s =>
    let x := s.me
    match x.mstk with
    | [] => .trap { trap := .maskStack }
    | top :: rest =>
      if x.pc != top.recon then .trap { trap := .maskStack }
      else if x.frozenTop then .trap { trap := .idemRegion }
      else endCompaction s (fun s =>
        let x := s.me
        if top.resume.getLsbD 0 && x.curMask != 0 then reconverge (Instr.info .vend) s (x.execMask 0) (top.resume - 1)
        else reconverge (Instr.info .vend) (s.modGroup s.cur (fun y => { y with mstk := rest })) (x.execMask 0) (nextPc x.pc))) s

end Sys2Proof.Machine
end

