-- ==== Sys2Proof/Machine/Width.lean ====
section
/-! DEFINITION. The width instructions GSPLIT, GFUSE and GCOMPACT (R18 to R24, R172 to R174), the rendezvous of the last
two, and the exchange that completes a GCOMPACT (R21, R62). -/

namespace Sys2Proof.Machine

/-! ### Conditions of the status table (R23) -/

/-- Whether a group holds an engine operation that has not completed, bound to a name or not (R234). -/
def State.futurePending (s : State) (x : Group) : Bool :=
  s.engs.any (fun p => p.2.kind != .xput && p.2.kind != .xget && p.2.wg = x.wg && (s.group p.2.g).base = x.base)

/-- Code 7 of R23: an uncompleted future, or an open or unwaited matrix batch (R267). -/
def State.busyFutures (s : State) (x : Group) : Bool := s.futurePending x || x.batchOpen || !x.batches.isEmpty

/-- Whether a group is a compacting holder or is parked. -/
def Group.compacted (x : Group) : Bool := x.holder.isSome || x.parked.isSome

/-- The width that a WC code names (R139). -/
def widthOf (wc : BitVec 3) : Nat := 8 * 2 ^ wc.toNat

/-- The groups of workgroup `k` that cover lanes of [b, b + n), exited ones included (R20). -/
def State.covering (s : State) (k b n : Nat) : Fmap Group :=
  s.groupsWhere (fun x => x.wg = k && x.status != .terminated && x.base < b + n && b < x.base + x.width)

/-- Whether 2 or 4 groups of equal width cover the block (R23 code 1); for a GCOMPACT (`two`), 2 groups. -/
def State.alignedBlock (s : State) (k b n : Nat) (two : Bool) : Bool :=
  let ps := s.covering k b n
  (ps.length = 2 || (ps.length = 4 && !two)) && ps.all (fun p => p.2.width * ps.length = n) && b + n ≤ (s.wg k).lanes

/-- The code that is decided at issue, without waiting: ALIGN, EXITED or COMPACTED, else 0 (R20, R21). -/
def State.earlyCode (s : State) (k b n : Nat) (two : Bool) : Nat :=
  let ps := s.covering k b n
  if !s.alignedBlock k b n two then 1
  else if ps.any (fun p => p.2.status = .exited) then 2
  else if ps.any (fun p => p.2.compacted) then 13
  else 0

/-- Whether all of a list are the same. -/
def allSame {α : Type} [DecidableEq α] (l : List α) : Bool :=
  match l with
  | [] => true
  | x :: t => t.all (fun y => y = x)

/-- Whether the quadrant gang that a target width needs has a fenced quadrant (R24): the pair named by bit 6 of the base for
width 64, all four for width 128. -/
def gangFenced (fenced : BitVec 4) (target base : Nat) : Bool :=
  if target = 128 then fenced != 0
  else if target = 64 then (if base / 64 % 2 = 0 then fenced &&& 3 else fenced &&& 12) != 0
  else false

/-- The codes that GFUSE and GCOMPACT test alike once every partner has arrived, 3 to 7 (R23). -/
def State.partnerCode (s : State) (ps : List Group) : Nat :=
  if !allSame (ps.map (·.pc)) then 3
  else if !allSame (ps.map (fun x => (x.rdDepth, x.rdPar))) then 4
  else if !allSame (ps.map (·.rstk)) then 5
  else if ps.any (fun x => x.region.isSome) then 6
  else if ps.any s.busyFutures then 7
  else 0

/-- The code of a GFUSE whose last partner has arrived (R20, R23). -/
def State.fuseCode (s : State) (ps : List Group) (c target base : Nat) : Nat :=
  let k := s.partnerCode ps
  if k != 0 then k
  else if gangFenced (s.core c).fenced target base then 8
  else if ps.any (fun x => !x.mstk.isEmpty) then 10
  else if !allSame (ps.map (·.stage)) then 12
  else 0

/-- The lanes of B that move, with the positions of A that receive them (R21): B's active lanes and A's free positions, each
in ascending order. -/
def compactMoves (a b : Group) : List (Nat × Nat) :=
  (lanesOf b.curMask).zip ((List.range a.width).filter (fun l => !a.curMask.getLsbD l))

/-- The reconvergence PC of the top entry. -/
def Group.topRecon (x : Group) : Option Dword := x.mstk.head?.map (·.recon)

/-- The code of a GCOMPACT of groups A and B that have both arrived (R21, R23). -/
def State.compactCode (s : State) (a b : Group) : Nat :=
  let k := s.partnerCode [a, b]
  if k != 0 then k
  else if a.mstk.length != b.mstk.length || a.mstk.isEmpty || a.topRecon != b.topRecon then 10
  else if a.width < countOf a.curMask + countOf b.curMask then 11
  else if a.stage != b.stage then 12
  else 0

/-! ### Rendezvous after a change of width -/

/-- Every waiting partner whose block's coverage has come to break the ALIGN condition leaves with ALIGN (R20). -/
def State.recheckAlign (s : State) (k : Nat) : State :=
  (s.groupsWhere (fun x => x.wg = k && x.status = .live)).foldl
    (fun s p =>
      match p.2.wait with
      | some ⟨.fuse t _, _, _, _⟩ => if s.alignedBlock k (p.2.base / t * t) t false then s else s.leaveRendezvous p.1 1
      | some ⟨.compact _, _, _, _⟩ =>
        if s.alignedBlock k (p.2.base / (2 * p.2.width) * (2 * p.2.width)) (2 * p.2.width) true then s
        else s.leaveRendezvous p.1 1
      | _ => s) s

/-! ### GSPLIT -/

/-- A mask restricted to lanes [lo, lo + n), renumbered from 0. -/
def sliceMask (m : Mask) (lo n : Nat) : Mask := (m >>> lo) &&& fullMask n

/-- The key of a child's quarter, from the parent's (R18): none for a quarter that is not the child's. -/
def childKey (lo n key : Nat) : Option Nat :=
  if lo / 8 ≤ key % 16 && key % 16 < (lo + n) / 8 then some (key - lo / 8) else none

/-- Child `j` of a group split into width `n` (R18, R19). -/
def Group.child (x : Group) (j n : Nat) : Group :=
  let lo := j * n
  { x.dropLatches.nextInterval with
      base := x.base + lo, width := n
      v := x.v.filterMap (fun p => (childKey lo n p.1).map (fun k => (k, p.2)))
      m := Fmap.mapVals (fun _ m => sliceMask m lo n) x.m
      flags := x.flags.filterMap (fun p => if lo ≤ p.1 && p.1 < lo + n then some (p.1 - lo, p.2) else none)
      mstk := x.mstk.map (fun e => { e with mask := sliceMask e.mask lo n })
      hlr := [], hrun := 0 }

/-- A copy of group `g`'s unacknowledged stores for a child, which has them among its earlier accesses (R102). -/
def State.copyStores (s : State) (g child : Nat) : State :=
  (s.stores.filter (fun p => p.2.g = g)).foldl
    (fun s p => { s with stores := Fmap.insert s.stores s.nextId { p.2 with g := child }, nextId := s.nextId + 1 }) s

/-- Group `g` split into children of width `n` (R18, R19): child 0 keeps the number, the others take new ones and are ready from
the next clk on (R31, R33), and each counts once in the core's reader counter. Loads that the parent issued count as child 0's
(DESIGN CHOICE, log 96). -/
def State.split (s : State) (g n : Nat) : State :=
  let x := s.group g
  let k := x.width / n
  let t := (List.range (k - 1)).foldl (fun s j =>
    let id := s.nextId
    ({ s.setGroup id { x.child (j + 1) n with readySince := (s.die (s.dieOf g)).ck.toNat + 1 } with nextId := id + 1 }).copyStores
      g id) s
  let t := t.setGroup g (x.child 0 n)
  let t := if x.rdDepth = 0 then t else t.modCnt (t.coreOf g) x.rdPar (· + (k - 1))
  t.recheckAlign x.wg

/-- The status of a GSPLIT into width `n` (R19). -/
def State.splitCode (s : State) (x : Group) (n : Nat) : Nat :=
  if x.holder.isSome then 13
  else if x.width ≤ n then 9
  else if x.region.isSome then 6
  else if s.busyFutures x then 7
  else 0

/-- GSPLIT (R19, R173): the status is written before the split, and the children copy the updated signature. -/
def execGsplit (f : FmtWd) (s : State) : Out :=
  issue (Instr.info (.gsplit f)) (fun s =>
    let x := s.me
    let n := widthOf f.w
    let code := s.splitCode x n
    withRoom s 0 1
      (let t := (s.putS s.cur f.d.toNat (BitVec.ofNat 32 code)).finish s.cur (Instr.info (.gsplit f)) (x.execMask 0) (nextPc x.pc)
       let t := t.modGroup s.cur (fun y => { y.dropLatches with hlr := [] })
       .left (if code = 0 then t.split s.cur n else t))) s

/-! ### GFUSE -/

/-- The keys of a partner's vector map in the fused group, whose quarters begin at quarter `q0`. -/
def shiftKeys (v : Fmap Slice) (q0 : Nat) : Fmap Slice := v.map (fun p => (p.1 + q0, p.2))

/-- Masks joined: partner j's bits at lanes j × w. -/
def joinMasks (ms : List Mask) (w : Nat) : Mask :=
  match ms with
  | [] => 0
  | m :: t => (m &&& fullMask w) ||| (joinMasks t w <<< w)

/-- Vector maps, flags and traps of partners joined in lane order. -/
def joinV (ps : List Group) (q0 : Nat) : Fmap Slice :=
  match ps with
  | [] => []
  | p :: t => (shiftKeys p.v q0).foldl (fun v e => Fmap.insert v e.1 e.2) (joinV t (q0 + p.width / 8))

def joinFlags (ps : List Group) (l0 : Nat) : Fmap (BitVec 6) :=
  match ps with
  | [] => []
  | p :: t => (p.flags.map (fun e => (e.1 + l0, e.2))) ++ joinFlags t (l0 + p.width)

def joinTraps (ps : List Group) : List Trap :=
  ps.foldl (fun l p => p.pendTraps.foldl (fun l t => if l.contains t then l else l ++ [t]) l) []

/-- The group that partners, in lane order, fuse into (R18): the lowest partner with the others' lanes, in an interval that
none of them has been in, since their shadow records become its own (R127). -/
def fusedGroup (x : Group) (ps : List Group) : Group :=
  { x.dropLatches.nextInterval with
      width := x.width * ps.length
      v := joinV ps 0
      m := (List.range 7).map (fun k => (k + 1, joinMasks (ps.map (fun p => p.mask (k + 1))) x.width))
      flags := joinFlags ps 0
      handler := ps.any (·.handler)
      pendTraps := joinTraps ps
      interval := (ps.map (·.interval)).foldl max 0 + 1
      lastLoad := (ps.map (·.lastLoad)).foldl max 0
      past := ps.foldl (fun m p => joinPast m p.past) []
      hlr := [], hrun := 0 }

/-- What was group `g`'s in flight is group `h`'s, and group `g` is no more. -/
def State.mergeInto (s : State) (g h : Nat) : State :=
  let r := fun x => if x = g then h else x
  { s with
      groups := Fmap.erase s.groups g
      pend := Fmap.mapVals (fun _ p => { p with g := r p.g }) s.pend
      stores := Fmap.mapVals (fun _ p => { p with g := r p.g }) s.stores
      engs := Fmap.mapVals (fun _ p => { p with g := r p.g }) s.engs
      mops := Fmap.mapVals (fun _ p => { p with g := r p.g }) s.mops
      colls := s.colls.map (fun c => { c with here := c.here.map (fun l => { l with g := r l.g }) })
      shadow := Fmap.mapVals (fun _ h' => { h' with g := r h'.g }) s.shadow
      dies := Fmap.mapVals (fun _ d => { d with walkQ := d.walkQ.map (fun q => { q with g := r q.g }) }) s.dies
      cur := r s.cur }

/-- The partners of a complete rendezvous fused (R18, R20): each takes its signature update, the lowest goes on as the fused
group with OK in its destination, and it counts once in the core's reader counter. -/
def State.fuse (s : State) (d : BitVec 6) (ids : List Nat) : State :=
  match ids with
  | [] => s
  | lo :: rest =>
    let x := s.group lo
    let ps := ids.map (fun i => s.group i)
    let t := (ids.foldl State.dropHold s).setGroup lo (fusedGroup x ps)
    let t := rest.foldl (fun s i => s.mergeInto i lo) t
    let t := if x.rdDepth = 0 then t else t.modCnt (t.coreOf lo) x.rdPar (· - rest.length)
    let t := (t.putS lo d.toNat 0).endWait lo
    (t.modGroup lo (fun y => { y with hlr := [] })).recheckAlign x.wg

/-- The groups of workgroup `k` that wait in a GFUSE under another target on lanes of [b, b + n) (R20). -/
def State.otherTargets (s : State) (k b n target : Nat) : List Nat :=
  Fmap.keys (s.groupsWhere (fun x => x.wg = k && x.status = .live &&
    (match x.wait with
     | some ⟨.fuse t _, _, _, _⟩ => t != target && x.base / t * t < b + n && b < x.base / t * t + t
     | _ => false)))

/-- GFUSE (R20, R23, R173). A group that waits holds the entry of its status (R62). -/
def gfuseBody (n : Info) (f : FmtWd) (s : State) : Body :=
  let x := s.me
  let target := widthOf f.w
  let b := x.base / target * target
  let early := s.earlyCode x.wg b target false
  let clash := s.otherTargets x.wg b target target
  let t := s.waits n (.fuse target f.d)
  withRoom s 0 1
    (if early != 0 then .left (t.leaveRendezvous s.cur early)
     else if !clash.isEmpty then .left ((s.cur :: clash).foldl (fun s g => s.leaveRendezvous g 9) t)
     else
      let ps := t.covering x.wg b target
      if ps.all (fun p => match p.2.wait with | some ⟨.fuse u _, _, _, _⟩ => u = target | _ => false) then
        let code := t.fuseCode (Fmap.vals ps) (t.coreOf s.cur) target b
        let ids := Fmap.keys ps
        let order := (List.range ps.length).filterMap (fun j => ids.find? (fun i => (t.group i).base = b + j * x.width))
        .left (if code != 0 then order.foldl (fun s g => s.leaveRendezvous g code) t else t.fuse f.d order)
      else .left (t.takeHold s.cur))

/-- GFUSE (R20). -/
def execGfuse (f : FmtWd) (s : State) : Out := issue (Instr.info (.gfuse f)) (gfuseBody (Instr.info (.gfuse f)) f) s

/-! ### GCOMPACT -/

/-- The sibling of a group: the other group that covers its block of twice its width. -/
def State.sibling (s : State) (g : Nat) : Option Nat :=
  let x := s.group g
  let b := x.base / (2 * x.width) * (2 * x.width)
  ((s.covering x.wg b (2 * x.width)).find? (fun p => p.1 != g)).map (·.1)

/-- Whether a group waits in a GCOMPACT. -/
def Group.inCompact (x : Group) : Bool :=
  match x.wait with
  | some ⟨.compact _, _, _, _⟩ => x.status = .live
  | _ => false

/-- GCOMPACT (R21): the group waits for its sibling; once both have arrived and a check fails, both go on with its code. A
GCOMPACT that passes every check completes by the exchange. -/
def gcompactBody (n : Info) (f : FmtWd0) (s : State) : Body :=
  let x := s.me
  let b := x.base / (2 * x.width) * (2 * x.width)
  let early := s.earlyCode x.wg b (2 * x.width) true
  let t := s.waits n (.compact f.d)
  withRoom s 0 1
    (if early != 0 then .left (t.leaveRendezvous s.cur early)
     else match t.sibling s.cur with
      | some y =>
        if (t.group y).inCompact then
          let a := if x.base = b then s.cur else y
          let c := if x.base = b then y else s.cur
          let code := t.compactCode (t.group a) (t.group c)
          .left (if code != 0 then (t.leaveRendezvous a code).leaveRendezvous c code else t.takeHold s.cur)
        else .left (t.takeHold s.cur)
      | none => .left (t.takeHold s.cur))

/-- GCOMPACT (R21). -/
def execGcompact (f : FmtWd0) (s : State) : Out :=
  issue (Instr.info (.gcompact f)) (gcompactBody (Instr.info (.gcompact f)) f) s

/-- Whether a load or atomic that a group issued into a vector register has not landed (R173). -/
def State.vectorLoadsOut (s : State) (g : Nat) : Bool :=
  s.pend.any (fun p => p.2.g = g && (p.2.kind = .load || p.2.kind = .atomic) && !p.2.slices.isEmpty)

/-- The exchange of a GCOMPACT of A (the lower half) and B (R21): lanes move, A becomes the holder with the moved bits in its
top mask, B is parked, and both have OK as their status, B's before it parks. -/
def State.compact (s : State) (a b : Nat) : State :=
  let x := s.group a
  let y := s.group b
  let moves := compactMoves x y
  let t := (s.exchange a b moves).modGroup a (fun z =>
    { z.setTop (x.curMask ||| maskOf (moves.map (·.2))) with holder := some ⟨x.mstk.length, b, moves⟩ })
  let t := (t.leaveRendezvous a 0).leaveRendezvous b 0
  let t := t.modGroup a Group.nextInterval
  let t := t.modGroup b (fun z => { z.nextInterval with parked := some a })
  t.resolveRendezvous x.wg x.base (2 * x.width) 13

/-- COMPACTION_EXCHANGE (R21, R62): a GCOMPACT whose two groups have arrived completes once their loads and atomics into
vector registers have landed and every slice it needs can be allocated at once. -/
def execCompactionExchange (g : Nat) (s : State) : Out :=
  match s.sibling g with
  | none => .next s
  | some b =>
    let x := s.group g
    let y := s.group b
    if !(x.inCompact && y.inCompact && x.base < y.base && (s.wg x.wg).state = .resident && s.compactCode x y = 0) then .next s
    else if s.vectorLoadsOut g || s.vectorLoadsOut b || s.matrixBusy g || s.matrixBusy b then .next s
    else if !s.room x.wg (s.exchangeNeed g b (compactMoves x y)) 0 then .next s
    else .next (s.compact g b)

end Sys2Proof.Machine
end

