-- ==== Sys2Proof/Machine/Barrier.lean ====
section
/-! DEFINITION. Barriers (R26 to R28, R175 to R179): arrivals at barrier words, their completion, and barrier lines. -/

namespace Sys2Proof.Machine

/-- What an arrival presents (R177): KIND; MASK or N; β or the signature. -/
structure Member where
  kind : Nat
  a : Nat
  b : Nat
deriving DecidableEq, Repr

/-- The membership stored in the word at `loc`. -/
def State.storedMember (s : State) (loc : Nat) : Member :=
  if s.barKind loc = 1 then ⟨1, s.barMask loc, s.barNB loc⟩ else ⟨s.barKind loc, s.barNB loc, s.barSig loc⟩

/-- Whether bit `i` of a block mask is set. -/
def maskBit (m i : Nat) : Bool := m / 2 ^ i % 2 = 1

/-- The total lanes of a cluster's members. -/
def State.clusterLanes (s : State) (w : Wg) : Nat := (w.members.map (fun k => (s.wg k).lanes)).sum

/-- valid(memb) of R177. -/
def State.validMember (s : State) (w : Wg) (m : Member) : Bool :=
  match m.kind with
  | 1 => m.a != 0 && m.b + Nat.log2 m.a < w.lanes / 32
  | 2 => 1 ≤ m.a && m.a ≤ w.lanes
  | _ => 1 ≤ m.a && m.a ≤ s.clusterLanes w

/-- The lanes a group arrives with: its own and, for a compacting holder, its parked partner's (R21), as ranges. -/
def State.arrivalLanes (s : State) (x : Group) : List (Nat × Nat) :=
  (x.base, x.width) :: (match x.holder with
    | some h => [((s.group h.partner).base, (s.group h.partner).width)]
    | none => [])

/-- Whether every block that a range of lanes touches is named by a block mask (R177). -/
def blocksNamed (m : Member) (r : Nat × Nat) : Bool :=
  (List.range (r.1 + r.2)).all (fun l => l < r.1 || (m.b ≤ l / 32 && l / 32 < m.b + 64 && maskBit m.a (l / 32 - m.b)))

/-- The lanes a barrier needs (R177). -/
def Member.need (m : Member) : Nat :=
  if m.kind = 1 then 32 * ((List.range 64).filter (maskBit m.a)).length else m.a

/-- A participant released (R27, R118): it goes on in a new interval, with an acquire at the barrier's scope, at cluster scope on its
core's L1 (R102). -/
def State.releaseWaiter (s : State) (kind g : Nat) : State :=
  let t := (s.endWait g).modGroup g Group.nextInterval
  if kind = 3 then t.clearL1 (t.coreOf g) else t.learn g

/-- The barrier at `loc` completes (R27, R177). -/
def State.completeBarrier (s : State) (loc : Nat) : State :=
  let kind := s.barKind loc
  let ws := s.waitersAt loc
  let t := s.setBar loc 0 0 0 0 ((s.barEpoch loc + 1) % 4294967296) 0
  ws.foldl (fun s g => s.releaseWaiter kind g) t

/-- The traps that meet an arrival made after an exit (R28). -/
def State.orphaned (s : State) (loc : Nat) (m : Member) (w : Wg) (k : Nat) : State :=
  if m.kind = 1 && s.groups.any (fun p => p.2.wg = k && p.2.status = .exited && s.namesLanes loc p.2) then
    s.orphan loc .barrierOrphan
  else if m.kind = 3 && (w.members.drop 1).any s.hasExited then s.orphan loc .peerExited
  else s

/-- The address that a failed check of R177 or R179 reports: the offset in the own-scratchpad window (log 23). -/
def windowAddr (off : Nat) : Dword := BitVec.ofNat 64 (0x0F00000000000000 + off)

/-- An arrival (R177) with membership `m` at offset `off` of the scratchpad of workgroup `k`. -/
def arrive (n : Info) (m : Member) (off k : Nat) (s : State) : Body :=
  let x := s.me
  let w := s.myWg
  let at_ := windowAddr off
  if m.kind = 3 && s.hasExited k then .trap { trap := .peerExited, addr := at_ }
  else if 1048576 ≤ off || 128 * (s.wg k).lines ≤ off then .trap { trap := .scratchRange, addr := at_ }
  else if off % 32 != 0 then .trap { trap := .misaligned, addr := at_ }
  else
    let loc := spadLoc (s.wg k).core (128 * (s.wg k).line0 + off)
    let lanes := s.arrivalLanes x
    let count := (lanes.map (·.2)).sum
    if !(s.lineAt loc).barrier then .trap { trap := .barrierLine, addr := at_ }
    else if (if s.barKind loc = 0 then !s.validMember w m else m != s.storedMember loc) then .trap { trap := .barrierMembership }
    else if m.kind = 1 && !(lanes.all (blocksNamed m)) then .trap { trap := .barrierMembership }
    else if m.kind != 1 && m.a < s.barArr loc + count then .trap { trap := .barrierMembership }
    else if m.kind = 3 && s.storesOut s.cur then .stall s .order
    else
      let arr := s.barArr loc + count
      let t := s.setBar loc (if m.kind = 1 then m.a else 0) (if m.kind = 1 then 0 else m.b) (if m.kind = 1 then m.b else m.a)
        arr (s.barEpoch loc) m.kind
      let t := t.waits n (.barrier loc count (m.kind = 1) (m.kind = 3))
      .left (if arr = m.need then t.completeBarrier loc else t.orphaned loc m w x.wg)

/-- BARB (R177). -/
def execBarb (f : FmtBa) (s : State) : Out :=
  issue (Instr.info (.barb f)) (fun s =>
    let x := s.me
    arrive (Instr.info (.barb f)) ⟨1, (x.readS2 f.a.toNat).toNat, (x.readS (f.a.toNat + 2)).toNat⟩ (x.srcS f.b.toNat).toNat
      x.wg s) s

/-- BARN (R177). -/
def execBarn (f : FmtBa) (s : State) : Out :=
  issue (Instr.info (.barn f)) (fun s =>
    let x := s.me
    arrive (Instr.info (.barn f)) ⟨2, (x.readS f.a.toNat).toNat, (x.readS (f.a.toNat + 1)).toNat⟩ (x.srcS f.b.toNat).toNat
      x.wg s) s

/-- BARC (R177): at the scratchpad of the cluster's rank-0 member (R175). -/
def execBarc (f : FmtBa) (s : State) : Out :=
  issue (Instr.info (.barc f)) (fun s =>
    let x := s.me
    arrive (Instr.info (.barc f)) ⟨3, (x.readS f.a.toNat).toNat, (x.readS (f.a.toNat + 1)).toNat⟩ (x.srcS f.b.toNat).toNat
      (s.myWg.members.head?.getD x.wg) s) s

/-! ### Barrier lines -/

/-- A line made `barrier` or ordinary, with its 128 bytes zero (R179). -/
def State.remark (s : State) (loc : Nat) (b : Bool) : State :=
  let t := s.storeCells (cellsOf (loc / 128 * 128) (List.replicate 128 0))
  t.setLine loc { t.lineAt loc with barrier := b }

/-- The location of offset `off` of the issuing group's scratchpad. -/
def State.ownLoc (s : State) (off : Nat) : Nat := spadLoc s.myCore (128 * s.myWg.line0 + off)

/-- The body of BLSET and BLCLR after the range check of R177 and the check for a queue line (R179, R232). -/
def barrierLine (f : FmtBl) (k : State → Nat → Body) (s : State) : Body :=
  let off := (s.me.srcS f.b.toNat).toNat
  let w := s.myWg
  if 1048576 ≤ off || 128 * w.lines ≤ off then .trap { trap := .scratchRange, addr := windowAddr off }
  else if (s.lineAt (s.ownLoc off)).queue then .trap { trap := .queue, addr := windowAddr off }
  else k s off

/-- BLSET (R179). -/
def execBlset (f : FmtBl) (s : State) : Out :=
  issue (Instr.info (.blset f)) (barrierLine f (fun s off =>
    let l := s.lineAt (s.ownLoc off)
    if l.barrier then andNext s
    else if !l.full || l.count != 0 then .trap { trap := .barrierLine, addr := windowAddr off }
    else andNext (s.remark (s.ownLoc off) true))) s

/-- BLCLR (R179). -/
def execBlclr (f : FmtBl) (s : State) : Out :=
  issue (Instr.info (.blclr f)) (barrierLine f (fun s off =>
    let loc := s.ownLoc off / 128 * 128
    if !(s.lineAt loc).barrier then andNext s
    else if [0, 32, 64, 96].any (fun d => s.barKind (loc + d) != 0) then .trap { trap := .barrierLine, addr := windowAddr off }
    else andNext (s.remark loc false))) s

end Sys2Proof.Machine
end

