-- ==== Sys2Proof/Machine/Hint.lean ====
section
/-! DEFINITION. Hint words (R58, R133 to R137): they build the bundle of the instruction they precede, or act alone. A hint
word issues as every word does, updates no signature (R317) and ends no last-read coverage (R58). -/

namespace Sys2Proof.Machine

/-- A hint word has acted: the group goes on at the next word. -/
def State.hintDone (s : State) (f : Group → Group) : Out :=
  .next (s.modGroup s.cur (fun x => { f x with pc := nextPc x.pc, stall := none }))

/-- An ILLEGAL_OP raised by a hint word (R134, R135). -/
def State.hintIllegal (s : State) : Out := .next (s.preciseTrap s.cur { trap := .illegalOp })

/-- The open bundle, or a new one that begins at this word (R134, R136). -/
def Group.openBundle (x : Group) : Bundle := x.bundle.getD ⟨x.pc, none, none, none⟩

/-- The last-read bits of an HLR word, instruction by instruction (R133). -/
def hlrBits (l : BitVec 24) : List (BitVec 3) := (List.range 8).map (fun i => l.extractLsb' (3 * i) 3)

/-- HLR (R58, R133): the coverage of the next eight instructions; it may not stand in a bundle (R134). -/
def execHlr (f : FmtHlr) (s : State) : Out :=
  if s.me.bundle.isSome then s.hintIllegal else s.hintDone (fun x => { x with hlr := hlrBits f.l })

/-- HRUN (R32, R137): the group issues in the next LEN + 1 clk, of which each issue takes one. -/
def execHrun (f : FmtHrun) (s : State) : Out :=
  if s.me.bundle.isSome then s.hintIllegal else s.hintDone (fun x => { x with hrun := f.n.toNat + 1 })

/-- The bundle with an HIMM word added, or none where R134 refuses it. -/
def Bundle.addImm (b : Bundle) (f : FmtHimm) : Option Bundle :=
  if b.himm.isSome then none
  else match b.himmHi with
    | some hi => if f.h = 1 then none else some { b with himmHi := none, himm := some (hi ++ f.v) }
    | none => if f.h = 1 then some { b with himmHi := some f.v } else some { b with himm := some (f.v.signExtend 32) }

/-- HIMM (R134). -/
def execHimm (f : FmtHimm) (s : State) : Out :=
  match s.me.openBundle.addImm f with
  | none => s.hintIllegal
  | some b => s.hintDone (fun x => { x with bundle := some b })

/-- HMOD (R135). -/
def execHmod (f : FmtHmod) (s : State) : Out :=
  let b := s.me.openBundle
  if !hmodOk f || b.hmod.isSome || b.himmHi.isSome then s.hintIllegal
  else s.hintDone (fun x => { x with bundle := some { b with hmod := some f } })

/-- HSIG (R137): SILENT_ERROR when SIG differs from the low half of gp.sig. -/
def execHsig (f : FmtHsig) (s : State) : Out :=
  if s.me.bundle.isSome then s.hintIllegal
  else if f.s != s.me.sig.extractLsb' 0 16 then .next (s.preciseTrap s.cur { trap := .silentError })
  else s.hintDone id

end Sys2Proof.Machine
end

