-- ==== Sys2Proof/Machine/Vector.lean ====
section
/-! DEFINITION. Vector instructions (R193 to R204, R214 to R217): lane-wise arithmetic, compares, masks, cross-lane
operations, reductions and scans, and the lane registers. -/

namespace Sys2Proof.Machine

/-! ### Results -/

/-- Vector registers from `n` on written under a mask, one function of the lane each. -/
def State.putVs (s : State) (g n : Nat) (m : Mask) (rs : List (Nat → Word)) : State :=
  match rs with
  | [] => s
  | f :: t => (s.putV g n m f).putVs g (n + 1) m t

/-- The numbers of the slices that `k` names from `n` on hold in the quarters of a mask. -/
def Group.idsVs (x : Group) (n k : Nat) (m : Mask) : List Nat := (List.range k).flatMap (fun i => x.idsV (n + i) m)

/-- The end of a vector instruction (R194): the registers from D on take their values in executing lanes unless WS is set,
flags are ORed in unless Q is set, and the first register's new value shifts into the vector chain. A variable-latency
(`slow`) result is in flight until it is written (R196). -/
def vectorResult (d : BitVec 6) (q ws : BitVec 1) (m : Mask) (rs : List (Nat → Word)) (fl : Nat → Flags) (slow : Bool)
    (s : State) : Body :=
  let g := s.cur
  let x := s.group g
  withRoom s (if ws = 1 then 0 else rs.length * (hitQuarters x.width m).length) 0
    (let t := if ws = 1 then s else s.putVs g d.toNat m rs
     let ids := if ws = 1 then [] else (t.group g).idsVs d.toNat rs.length m
     let u := if slow then t.addPend ⟨.slow, g, x.wg, s.coreOf g, ids, []⟩ else t
     let first := rs.head?.getD (fun _ => 0)
     let latch := x.shiftV d.toNat m first (if slow then some t.nextId else none)
     andNext (u.modGroup g (fun y =>
       { (if q = 0 then y.orFlags m fl else y) with vk := latch.vk })))

/-- A lane-wise instruction with one result register: `f` gives the value and the flags of a lane. -/
def laneWise (d : BitVec 6) (q ws : BitVec 1) (m : Mask) (f : Nat → Word × Flags) (slow : Bool) (s : State) : Body :=
  vectorResult d q ws m [fun l => (f l).1] (fun l => (f l).2) slow s

/-! ### Floating point (R197 to R199) -/

/-- A function of element codes applied to a register: one FP32 value, or two 16-bit elements (R76, R194, R197). -/
def perElement (fmt : FFmt) (op : Nat → Nat → Nat → Nat × Flags) (a b d : Word) : Word × Flags :=
  if fmt = fp32 then
    let r := op a.toNat b.toNat d.toNat
    (BitVec.ofNat 32 r.1, r.2)
  else
    let lo := op (a.toNat % 65536) (b.toNat % 65536) (d.toNat % 65536)
    let hi := op (a.toNat / 65536) (b.toNat / 65536) (d.toNat / 65536)
    (BitVec.ofNat 32 (hi.1 * 65536 + lo.1), lo.2 ||| hi.2)

/-- A float instruction with sources A, B and the old D (R197); `op` is given the rounding mode. -/
def floatBody (fmt : FFmt) (op : BitVec 2 → Nat → Nat → Nat → Nat × Flags) (slow : Bool) (f : FmtV) (s : State) : Body :=
  let x := s.me
  laneWise f.d f.q f.s (x.execMask f.p.toNat)
    (fun l => perElement fmt (op x.rm) (x.srcV f.a.toNat l) (x.srcV f.b.toNat l) (x.readV f.d.toNat l)) slow s

/-- A float instruction with source A. -/
def float1Body (fmt : FFmt) (op : BitVec 2 → Nat → Nat × Flags) (slow : Bool) (f : FmtV1) (s : State) : Body :=
  let x := s.me
  laneWise f.d f.q f.s (x.execMask f.p.toNat)
    (fun l => perElement fmt (fun a _ _ => op x.rm a) (x.srcV f.a.toNat l) 0 0) slow s

/-- The functions of R197. -/
def fAdd (fmt : FFmt) : FmtV → State → Body := floatBody fmt (fun rm a b _ => fmt.add rm a b) false
def fSub (fmt : FFmt) : FmtV → State → Body := floatBody fmt (fun rm a b _ => fmt.sub rm a b) false
def fMul (fmt : FFmt) : FmtV → State → Body := floatBody fmt (fun rm a b _ => fmt.mul rm a b) false
def fFma (fmt : FFmt) : FmtV → State → Body := floatBody fmt (fun rm a b d => fmt.fma rm false a b d) false
def fFms (fmt : FFmt) : FmtV → State → Body := floatBody fmt (fun rm a b d => fmt.fma rm true a b d) false
def fMin (fmt : FFmt) : FmtV → State → Body := floatBody fmt (fun _ a b _ => fmt.minmax false a b) false
def fMax (fmt : FFmt) : FmtV → State → Body := floatBody fmt (fun _ a b _ => fmt.minmax true a b) false
def fDiv (fmt : FFmt) : FmtV → State → Body := floatBody fmt (fun rm a b _ => fmt.div rm a b) true
def fAbs (fmt : FFmt) : FmtV1 → State → Body := float1Body fmt (fun _ a => fmt.absVal a) false
def fNeg (fmt : FFmt) : FmtV1 → State → Body := float1Body fmt (fun _ a => fmt.negVal a) false
def fSqrt (fmt : FFmt) : FmtV1 → State → Body := float1Body fmt (fun rm a => fmt.sqrt rm a) true
def fApprox (fmt : FFmt) (o : Approx) : FmtV1 → State → Body := float1Body fmt (fun rm a => fmt.approx o rm a) true

/-! ### Integers (R200, R201) -/

/-- An integer instruction with sources A, B and the old D. -/
def intBody (op : Word → Word → Word → Word × Flags) (slow : Bool) (f : FmtV) (s : State) : Body :=
  let x := s.me
  laneWise f.d f.q f.s (x.execMask f.p.toNat)
    (fun l => op (x.srcV f.a.toNat l) (x.srcV f.b.toNat l) (x.readV f.d.toNat l)) slow s

/-- An instruction with source A. -/
def int1Body (op : Word → Word × Flags) (f : FmtV1) (s : State) : Body :=
  let x := s.me
  laneWise f.d f.q f.s (x.execMask f.p.toNat) (fun l => op (x.srcV f.a.toNat l)) false s

/-- An integer function without flags, with the shift count in B (R200). -/
def plain (o : SOp) (a b _d : Word) : Word × Flags := (o.result a b (b.toNat % 32), 0)

/-- An exact sum or difference clamped to lo..hi, with SAT when clamped (R200). -/
def clamped (lo hi x : Int) : Word × Flags :=
  if x < lo then (BitVec.ofInt 32 lo, flagSAT) else if hi < x then (BitVec.ofInt 32 hi, flagSAT) else (BitVec.ofInt 32 x, 0)

/-- The absolute value (R200): OF for the least number. -/
def absI (a : Word) : Word × Flags := (if a.msb then -a else a, flagIf (a = 0x80000000) flagOF)

/-- A 64-bit instruction on pairs (R201); the shifts take their count from one register. -/
def int64Body (o : SOp) (f : FmtV) (s : State) : Body :=
  let x := s.me
  let r := fun l =>
    if o.isShift then o.result (x.readV2 f.a.toNat l) 0 ((x.srcV f.b.toNat l).toNat % 64)
    else o.result (x.readV2 f.a.toNat l) (x.readV2 f.b.toNat l) 0
  vectorResult f.d f.q f.s (x.execMask f.p.toNat) [fun l => loOf (r l), fun l => hiOf (r l)] (fun _ => 0) false s

/-! ### Compares and masks (R203, R204) -/

/-- The relations of VCMP (R139). -/
inductive Rel where
  | eq | ne | lt | le | gt | ge | un | or
deriving DecidableEq, Repr

/-- A relation of numbers, from "less" and "equal"; unordered operands have their own row (R203). -/
def Rel.holds (r : Rel) (lt eq : Bool) : Bool :=
  match r with
  | .eq => eq
  | .ne => !eq
  | .lt => lt
  | .le => lt || eq
  | .gt => !(lt || eq)
  | .ge => !lt
  | .un => false
  | .or => true

/-- Whether a relation signals on any NaN (R203). -/
def Rel.ordered (r : Rel) : Bool :=
  match r with
  | .lt | .le | .gt | .ge => true
  | _ => false

/-- The result with a NaN operand (R203). -/
def Rel.onNan (r : Rel) : Bool := r = .ne || r = .un

/-- One lane of VCMP in the type that TY names (R203). -/
def compare (r : Rel) (ty : Nat) (a b : Dword) : Bool × Flags :=
  if ty = 0 then
    let x := fp32.decode (a.toNat % 4294967296)
    let y := fp32.decode (b.toNat % 4294967296)
    if x.isNan || y.isNan then (r.onNan, flagIf (x.snan || y.snan || r.ordered) flagNV)
    else (r.holds (x.lt y) (x.eq y), 0)
  else if ty = 11 then (r.holds ((loOf a).toInt < (loOf b).toInt) (loOf a = loOf b), 0)
  else if ty = 12 then (r.holds ((loOf a).toNat < (loOf b).toNat) (loOf a = loOf b), 0)
  else if ty = 13 then (r.holds (a.toInt < b.toInt) (a = b), 0)
  else (r.holds (a.toNat < b.toNat) (a = b), 0)

/-- Mask register `k` with the bits of mask `m` replaced. -/
def Group.setMaskBits (x : Group) (k : Nat) (m : Mask) (bit : Nat → Bool) : Group :=
  x.setMask k ((x.mask k &&& ~~~ m) ||| maskOf ((lanesOf m).filter bit))

/-- VCMP (R203). -/
def compareBody (r : Rel) (f : FmtVm) (s : State) : Body :=
  let x := s.me
  let m := x.execMask f.p.toNat
  let wide := f.t = 13 || f.t = 14
  let src := fun (n : BitVec 6) l => if wide then x.readV2 n.toNat l else (x.srcV n.toNat l).zeroExtend 64
  let v := fun l => compare r f.t.toNat (src f.a l) (src f.b l)
  andNext (s.modGroup s.cur (fun y =>
    (if f.q = 0 then y.orFlags m (fun l => (v l).2) else y).setMaskBits f.d.toNat m (fun l => (v l).1)))

/-- A function of whole masks (R204). -/
def maskBody (d : BitVec 3) (f : Group → Mask) (s : State) : Body :=
  andNext (s.modGroup s.cur (fun x => x.setMask d.toNat (f x)))

/-- A scalar written without a shift of the chain. -/
def scalarPut (d : BitVec 6) (f : Group → Word) (s : State) : Body :=
  withRoom s 0 1 (andNext (s.putS s.cur d.toNat (f s.me)))

/-- The mask that a group of scalar registers from X holds (R204). -/
def Group.maskGroup (x : Group) (r : Nat) : Mask :=
  (List.range (max 1 (x.width / 32))).foldl (fun m i => m ||| ((x.srcS (r + i)).zeroExtend 128 <<< (32 * i))) 0

/-- MSTS (R204): the mask written to a group of scalar registers. -/
def mstsBody (f : FmtMx) (s : State) : Body :=
  let x := s.me
  let n := max 1 (x.width / 32)
  withRoom s 0 n
    (andNext ((List.range n).foldl (fun t i => t.putS s.cur (f.x.toNat + i) ((x.mask f.a.toNat).extractLsb' (32 * i) 32)) s))

/-- MFIRST (R204). -/
def firstOf (m : Mask) : Word :=
  match (lanesOf m).head? with
  | some l => BitVec.ofNat 32 l
  | none => 0xFFFFFFFF

/-- VBALLOT (R204). -/
def ballotBody (f : FmtBallot) (s : State) : Body :=
  let x := s.me
  maskBody f.d (fun _ => maskOf ((lanesOf (x.execMask f.p.toNat)).filter (fun l => x.srcV f.x.toNat l != 0))) s

/-! ### Cross-lane operations (R214 to R216) -/

/-- VX (R215): lane i takes A in the lane that `pick` names, from the width, i and the lane's B. -/
def shuffleBody (pick : Nat → Nat → Nat → Nat) (scalarB : Bool) (f : FmtV) (s : State) : Body :=
  let x := s.me
  let b := fun l => if scalarB then (x.srcS f.b.toNat).toNat else (x.srcV f.b.toNat l).toNat
  laneWise f.d 1 f.s (x.execMask f.p.toNat) (fun l => (x.srcV f.a.toNat (pick x.width l (b l)), 0)) false s

/-- A combination of two values, either of which may be absent (R82). -/
def combine (op : Nat → Nat → Nat × Flags) (a b : Option Nat) : Option Nat × Flags :=
  match a, b with
  | none, y => (y, 0)
  | x, none => (x, 0)
  | some x, some y => ((op x y).1, (op x y).2)

/-- One level of the tree of R82. -/
def pairUp (op : Nat → Nat → Nat × Flags) (l : List (Option Nat)) : List (Option Nat) × Flags :=
  match l with
  | x :: y :: t =>
    let r := combine op x y
    let u := pairUp op t
    (r.1 :: u.1, r.2 ||| u.2)
  | l => (l, 0)

/-- The tree of R82 over `n` levels. -/
def reduceTree (op : Nat → Nat → Nat × Flags) (n : Nat) (l : List (Option Nat)) : Option Nat × Flags :=
  match n with
  | 0 => ((l.head?.getD none), 0)
  | k + 1 =>
    let u := pairUp op l
    let r := reduceTree op k u.1
    (r.1, u.2 ||| r.2)

/-- One step of a scan at distance `d` (R216). -/
def scanStep (op : Nat → Nat → Nat × Flags) (d : Nat) (l : List (Option Nat)) : List (Option Nat) × Flags :=
  let r := (List.range l.length).map (fun i =>
    if i < d then (l.getD i none, 0) else combine op (l.getD (i - d) none) (l.getD i none))
  (r.map (·.1), r.foldl (fun a p => a ||| p.2) 0)

/-- The scan of R216 over `n` steps from distance `d`. -/
def scanFrom (op : Nat → Nat → Nat × Flags) (n d : Nat) (l : List (Option Nat)) : List (Option Nat) × Flags :=
  match n with
  | 0 => (l, 0)
  | k + 1 =>
    let u := scanStep op d l
    let r := scanFrom op k (2 * d) u.1
    (r.1, u.2 ||| r.2)

/-- The lanes that contribute to a reduction or scan. -/
def Group.contributions (x : Group) (m : Mask) (a : Nat) : List (Option Nat) :=
  (List.range x.width).map (fun l => if m.getLsbD l then some (x.srcV a l).toNat else none)

/-- A reduction (R82, R216). -/
def reduceBody (op : BitVec 2 → Nat → Nat → Nat × Flags) (identity : Nat) (f : FmtV1) (s : State) : Body :=
  let x := s.me
  let m := x.execMask f.p.toNat
  let r := reduceTree (op x.rm) (Nat.log2 x.width) (x.contributions m f.a.toNat)
  laneWise f.d f.q f.s m (fun _ => (BitVec.ofNat 32 (r.1.getD identity), r.2)) false s

/-- A scan (R216). -/
def scanBody (op : BitVec 2 → Nat → Nat → Nat × Flags) (f : FmtV1) (s : State) : Body :=
  let x := s.me
  let m := x.execMask f.p.toNat
  let r := scanFrom (op x.rm) (Nat.log2 x.width) 1 (x.contributions m f.a.toNat)
  laneWise f.d f.q f.s m (fun l => (BitVec.ofNat 32 ((r.1.getD l none).getD 0), r.2)) false s

/-- An integer operation of reductions and scans (R216). -/
def opI (o : SOp) (_rm : BitVec 2) (a b : Nat) : Nat × Flags :=
  ((o.result (BitVec.ofNat 32 a) (BitVec.ofNat 32 b) 0).toNat, 0)

/-! ### Lane registers (R217) -/

/-- A lane-scope special register (R49). -/
def Group.laneSpecial (x : Group) (r l : Nat) : Word :=
  match r with
  | 0 => BitVec.ofNat 32 l
  | 1 => BitVec.ofNat 32 (x.base + l)
  | _ => (x.flag l).zeroExtend 32

/-- VGET (R217). -/
def vgetBody (f : FmtVget) (s : State) : Body :=
  let x := s.me
  let m := x.execMask f.p.toNat
  if f.r = 2 && s.flagsPending s.cur then .stall s .result
  else
    withRoom s (hitQuarters x.width m).length 0
      (andNext (s.putV s.cur f.d.toNat m (fun l => x.laneSpecial f.r.toNat l)))

/-- VSET (R217). -/
def vsetBody (f : FmtVset) (s : State) : Body :=
  let x := s.me
  if s.flagsPending s.cur then .stall s .result
  else
    let put := fun (fl : Fmap (BitVec 6)) (l : Nat) => Fmap.put 0 fl l ((x.srcV f.a.toNat l).extractLsb' 0 6)
    andNext (s.modGroup s.cur (fun y => { y with flags := (lanesOf (x.execMask f.p.toNat)).foldl put y.flags }))

/-! ### The instructions -/

/-- VADD_F32 (R197). -/
def execVaddF32 (f : FmtV) (s : State) : Out := issue (Instr.info (.vaddF32 f)) (fAdd fp32 f) s

/-- VSUB_F32 (R197). -/
def execVsubF32 (f : FmtV) (s : State) : Out := issue (Instr.info (.vsubF32 f)) (fSub fp32 f) s

/-- VMUL_F32 (R197). -/
def execVmulF32 (f : FmtV) (s : State) : Out := issue (Instr.info (.vmulF32 f)) (fMul fp32 f) s

/-- VFMA_F32 (R197). -/
def execVfmaF32 (f : FmtV) (s : State) : Out := issue (Instr.info (.vfmaF32 f)) (fFma fp32 f) s

/-- VFMS_F32 (R197). -/
def execVfmsF32 (f : FmtV) (s : State) : Out := issue (Instr.info (.vfmsF32 f)) (fFms fp32 f) s

/-- VMIN_F32 (R197). -/
def execVminF32 (f : FmtV) (s : State) : Out := issue (Instr.info (.vminF32 f)) (fMin fp32 f) s

/-- VMAX_F32 (R197). -/
def execVmaxF32 (f : FmtV) (s : State) : Out := issue (Instr.info (.vmaxF32 f)) (fMax fp32 f) s

/-- VDIV_F32 (R198). -/
def execVdivF32 (f : FmtV) (s : State) : Out := issue (Instr.info (.vdivF32 f)) (fDiv fp32 f) s

/-- VABS_F32 (R197). -/
def execVabsF32 (f : FmtV1) (s : State) : Out := issue (Instr.info (.vabsF32 f)) (fAbs fp32 f) s

/-- VNEG_F32 (R197). -/
def execVnegF32 (f : FmtV1) (s : State) : Out := issue (Instr.info (.vnegF32 f)) (fNeg fp32 f) s

/-- VRCP_F32 (R199). -/
def execVrcpF32 (f : FmtV1) (s : State) : Out := issue (Instr.info (.vrcpF32 f)) (fApprox fp32 .rcp f) s

/-- VRSQ_F32 (R199). -/
def execVrsqF32 (f : FmtV1) (s : State) : Out := issue (Instr.info (.vrsqF32 f)) (fApprox fp32 .rsq f) s

/-- VSQRT_F32 (R198). -/
def execVsqrtF32 (f : FmtV1) (s : State) : Out := issue (Instr.info (.vsqrtF32 f)) (fSqrt fp32 f) s

/-- VEXP2_F32 (R199). -/
def execVexp2F32 (f : FmtV1) (s : State) : Out := issue (Instr.info (.vexp2F32 f)) (fApprox fp32 .exp2 f) s

/-- VLOG2_F32 (R199). -/
def execVlog2F32 (f : FmtV1) (s : State) : Out := issue (Instr.info (.vlog2F32 f)) (fApprox fp32 .log2 f) s

/-- VTANH_F32 (R199). -/
def execVtanhF32 (f : FmtV1) (s : State) : Out := issue (Instr.info (.vtanhF32 f)) (fApprox fp32 .tanh f) s

/-- VADD_F16 (R197). -/
def execVaddF16 (f : FmtV) (s : State) : Out := issue (Instr.info (.vaddF16 f)) (fAdd fp16 f) s

/-- VSUB_F16 (R197). -/
def execVsubF16 (f : FmtV) (s : State) : Out := issue (Instr.info (.vsubF16 f)) (fSub fp16 f) s

/-- VMUL_F16 (R197). -/
def execVmulF16 (f : FmtV) (s : State) : Out := issue (Instr.info (.vmulF16 f)) (fMul fp16 f) s

/-- VFMA_F16 (R197). -/
def execVfmaF16 (f : FmtV) (s : State) : Out := issue (Instr.info (.vfmaF16 f)) (fFma fp16 f) s

/-- VFMS_F16 (R197). -/
def execVfmsF16 (f : FmtV) (s : State) : Out := issue (Instr.info (.vfmsF16 f)) (fFms fp16 f) s

/-- VMIN_F16 (R197). -/
def execVminF16 (f : FmtV) (s : State) : Out := issue (Instr.info (.vminF16 f)) (fMin fp16 f) s

/-- VMAX_F16 (R197). -/
def execVmaxF16 (f : FmtV) (s : State) : Out := issue (Instr.info (.vmaxF16 f)) (fMax fp16 f) s

/-- VDIV_F16 (R198). -/
def execVdivF16 (f : FmtV) (s : State) : Out := issue (Instr.info (.vdivF16 f)) (fDiv fp16 f) s

/-- VABS_F16 (R197). -/
def execVabsF16 (f : FmtV1) (s : State) : Out := issue (Instr.info (.vabsF16 f)) (fAbs fp16 f) s

/-- VNEG_F16 (R197). -/
def execVnegF16 (f : FmtV1) (s : State) : Out := issue (Instr.info (.vnegF16 f)) (fNeg fp16 f) s

/-- VRCP_F16 (R199). -/
def execVrcpF16 (f : FmtV1) (s : State) : Out := issue (Instr.info (.vrcpF16 f)) (fApprox fp16 .rcp f) s

/-- VRSQ_F16 (R199). -/
def execVrsqF16 (f : FmtV1) (s : State) : Out := issue (Instr.info (.vrsqF16 f)) (fApprox fp16 .rsq f) s

/-- VSQRT_F16 (R198). -/
def execVsqrtF16 (f : FmtV1) (s : State) : Out := issue (Instr.info (.vsqrtF16 f)) (fSqrt fp16 f) s

/-- VEXP2_F16 (R199). -/
def execVexp2F16 (f : FmtV1) (s : State) : Out := issue (Instr.info (.vexp2F16 f)) (fApprox fp16 .exp2 f) s

/-- VLOG2_F16 (R199). -/
def execVlog2F16 (f : FmtV1) (s : State) : Out := issue (Instr.info (.vlog2F16 f)) (fApprox fp16 .log2 f) s

/-- VTANH_F16 (R199). -/
def execVtanhF16 (f : FmtV1) (s : State) : Out := issue (Instr.info (.vtanhF16 f)) (fApprox fp16 .tanh f) s

/-- VADD_BF16 (R197). -/
def execVaddBf16 (f : FmtV) (s : State) : Out := issue (Instr.info (.vaddBf16 f)) (fAdd bf16 f) s

/-- VSUB_BF16 (R197). -/
def execVsubBf16 (f : FmtV) (s : State) : Out := issue (Instr.info (.vsubBf16 f)) (fSub bf16 f) s

/-- VMUL_BF16 (R197). -/
def execVmulBf16 (f : FmtV) (s : State) : Out := issue (Instr.info (.vmulBf16 f)) (fMul bf16 f) s

/-- VFMA_BF16 (R197). -/
def execVfmaBf16 (f : FmtV) (s : State) : Out := issue (Instr.info (.vfmaBf16 f)) (fFma bf16 f) s

/-- VFMS_BF16 (R197). -/
def execVfmsBf16 (f : FmtV) (s : State) : Out := issue (Instr.info (.vfmsBf16 f)) (fFms bf16 f) s

/-- VMIN_BF16 (R197). -/
def execVminBf16 (f : FmtV) (s : State) : Out := issue (Instr.info (.vminBf16 f)) (fMin bf16 f) s

/-- VMAX_BF16 (R197). -/
def execVmaxBf16 (f : FmtV) (s : State) : Out := issue (Instr.info (.vmaxBf16 f)) (fMax bf16 f) s

/-- VDIV_BF16 (R198). -/
def execVdivBf16 (f : FmtV) (s : State) : Out := issue (Instr.info (.vdivBf16 f)) (fDiv bf16 f) s

/-- VABS_BF16 (R197). -/
def execVabsBf16 (f : FmtV1) (s : State) : Out := issue (Instr.info (.vabsBf16 f)) (fAbs bf16 f) s

/-- VNEG_BF16 (R197). -/
def execVnegBf16 (f : FmtV1) (s : State) : Out := issue (Instr.info (.vnegBf16 f)) (fNeg bf16 f) s

/-- VRCP_BF16 (R199). -/
def execVrcpBf16 (f : FmtV1) (s : State) : Out := issue (Instr.info (.vrcpBf16 f)) (fApprox bf16 .rcp f) s

/-- VRSQ_BF16 (R199). -/
def execVrsqBf16 (f : FmtV1) (s : State) : Out := issue (Instr.info (.vrsqBf16 f)) (fApprox bf16 .rsq f) s

/-- VSQRT_BF16 (R198). -/
def execVsqrtBf16 (f : FmtV1) (s : State) : Out := issue (Instr.info (.vsqrtBf16 f)) (fSqrt bf16 f) s

/-- VEXP2_BF16 (R199). -/
def execVexp2Bf16 (f : FmtV1) (s : State) : Out := issue (Instr.info (.vexp2Bf16 f)) (fApprox bf16 .exp2 f) s

/-- VLOG2_BF16 (R199). -/
def execVlog2Bf16 (f : FmtV1) (s : State) : Out := issue (Instr.info (.vlog2Bf16 f)) (fApprox bf16 .log2 f) s

/-- VTANH_BF16 (R199). -/
def execVtanhBf16 (f : FmtV1) (s : State) : Out := issue (Instr.info (.vtanhBf16 f)) (fApprox bf16 .tanh f) s

/-- VADD_I32 (R200). -/
def execVaddI32 (f : FmtV) (s : State) : Out := issue (Instr.info (.vaddI32 f)) (intBody (plain .add) false f) s

/-- VSUB_I32 (R200). -/
def execVsubI32 (f : FmtV) (s : State) : Out := issue (Instr.info (.vsubI32 f)) (intBody (plain .sub) false f) s

/-- VMUL_I32 (R200). -/
def execVmulI32 (f : FmtV) (s : State) : Out := issue (Instr.info (.vmulI32 f)) (intBody (plain .mul) false f) s

/-- VMAD_I32 (R200). -/
def execVmadI32 (f : FmtV) (s : State) : Out := issue (Instr.info (.vmadI32 f)) (intBody (fun a b d => (a * b + d, 0)) false f) s

/-- VMIN_I32 (R200). -/
def execVminI32 (f : FmtV) (s : State) : Out := issue (Instr.info (.vminI32 f)) (intBody (plain .minI) false f) s

/-- VMAX_I32 (R200). -/
def execVmaxI32 (f : FmtV) (s : State) : Out := issue (Instr.info (.vmaxI32 f)) (intBody (plain .maxI) false f) s

/-- VMULH_I32 (R200). -/
def execVmulhI32 (f : FmtV) (s : State) : Out := issue (Instr.info (.vmulhI32 f)) (intBody (plain .mulhI) false f) s

/-- VADDS_I32 (R200). -/
def execVaddsI32 (f : FmtV) (s : State) : Out := issue (Instr.info (.vaddsI32 f)) (intBody (fun a b _ => clamped (-2147483648) 2147483647 (a.toInt + b.toInt)) false f) s

/-- VSUBS_I32 (R200). -/
def execVsubsI32 (f : FmtV) (s : State) : Out := issue (Instr.info (.vsubsI32 f)) (intBody (fun a b _ => clamped (-2147483648) 2147483647 (a.toInt - b.toInt)) false f) s

/-- VSHL_I32 (R200). -/
def execVshlI32 (f : FmtV) (s : State) : Out := issue (Instr.info (.vshlI32 f)) (intBody (plain .shl) false f) s

/-- VSHR_I32 (R200). -/
def execVshrI32 (f : FmtV) (s : State) : Out := issue (Instr.info (.vshrI32 f)) (intBody (plain .shrI) false f) s

/-- VDIV_I32 (R200). -/
def execVdivI32 (f : FmtV) (s : State) : Out := issue (Instr.info (.vdivI32 f)) (intBody (fun a b _ => (SOp.result .divI a b 0, sdivFlags a b)) true f) s

/-- VREM_I32 (R200). -/
def execVremI32 (f : FmtV) (s : State) : Out := issue (Instr.info (.vremI32 f)) (intBody (fun a b _ => (SOp.result .remI a b 0, divFlags a b)) true f) s

/-- VADD_N32 (R200). -/
def execVaddN32 (f : FmtV) (s : State) : Out := issue (Instr.info (.vaddN32 f)) (intBody (plain .add) false f) s

/-- VSUB_N32 (R200). -/
def execVsubN32 (f : FmtV) (s : State) : Out := issue (Instr.info (.vsubN32 f)) (intBody (plain .sub) false f) s

/-- VMUL_N32 (R200). -/
def execVmulN32 (f : FmtV) (s : State) : Out := issue (Instr.info (.vmulN32 f)) (intBody (plain .mul) false f) s

/-- VMAD_N32 (R200). -/
def execVmadN32 (f : FmtV) (s : State) : Out := issue (Instr.info (.vmadN32 f)) (intBody (fun a b d => (a * b + d, 0)) false f) s

/-- VMIN_N32 (R200). -/
def execVminN32 (f : FmtV) (s : State) : Out := issue (Instr.info (.vminN32 f)) (intBody (plain .minN) false f) s

/-- VMAX_N32 (R200). -/
def execVmaxN32 (f : FmtV) (s : State) : Out := issue (Instr.info (.vmaxN32 f)) (intBody (plain .maxN) false f) s

/-- VMULH_N32 (R200). -/
def execVmulhN32 (f : FmtV) (s : State) : Out := issue (Instr.info (.vmulhN32 f)) (intBody (plain .mulhN) false f) s

/-- VADDS_N32 (R200). -/
def execVaddsN32 (f : FmtV) (s : State) : Out := issue (Instr.info (.vaddsN32 f)) (intBody (fun a b _ => clamped 0 4294967295 ((a.toNat : Int) + b.toNat)) false f) s

/-- VSUBS_N32 (R200). -/
def execVsubsN32 (f : FmtV) (s : State) : Out := issue (Instr.info (.vsubsN32 f)) (intBody (fun a b _ => clamped 0 4294967295 ((a.toNat : Int) - b.toNat)) false f) s

/-- VSHL_N32 (R200). -/
def execVshlN32 (f : FmtV) (s : State) : Out := issue (Instr.info (.vshlN32 f)) (intBody (plain .shl) false f) s

/-- VSHR_N32 (R200). -/
def execVshrN32 (f : FmtV) (s : State) : Out := issue (Instr.info (.vshrN32 f)) (intBody (plain .shrN) false f) s

/-- VDIV_N32 (R200). -/
def execVdivN32 (f : FmtV) (s : State) : Out := issue (Instr.info (.vdivN32 f)) (intBody (fun a b _ => (SOp.result .divN a b 0, divFlags a b)) true f) s

/-- VREM_N32 (R200). -/
def execVremN32 (f : FmtV) (s : State) : Out := issue (Instr.info (.vremN32 f)) (intBody (fun a b _ => (SOp.result .remN a b 0, divFlags a b)) true f) s

/-- VABS_I32 (R200). -/
def execVabsI32 (f : FmtV1) (s : State) : Out := issue (Instr.info (.vabsI32 f)) (int1Body absI f) s

/-- VADD_I64 (R201). -/
def execVaddI64 (f : FmtV) (s : State) : Out := issue (Instr.info (.vaddI64 f)) (int64Body .add f) s

/-- VSUB_I64 (R201). -/
def execVsubI64 (f : FmtV) (s : State) : Out := issue (Instr.info (.vsubI64 f)) (int64Body .sub f) s

/-- VMIN_I64 (R201). -/
def execVminI64 (f : FmtV) (s : State) : Out := issue (Instr.info (.vminI64 f)) (int64Body .minI f) s

/-- VMAX_I64 (R201). -/
def execVmaxI64 (f : FmtV) (s : State) : Out := issue (Instr.info (.vmaxI64 f)) (int64Body .maxI f) s

/-- VMIN_N64 (R201). -/
def execVminN64 (f : FmtV) (s : State) : Out := issue (Instr.info (.vminN64 f)) (int64Body .minN f) s

/-- VMAX_N64 (R201). -/
def execVmaxN64 (f : FmtV) (s : State) : Out := issue (Instr.info (.vmaxN64 f)) (int64Body .maxN f) s

/-- VSHL_I64 (R201). -/
def execVshlI64 (f : FmtV) (s : State) : Out := issue (Instr.info (.vshlI64 f)) (int64Body .shl f) s

/-- VSHR_N64 (R201). -/
def execVshrN64 (f : FmtV) (s : State) : Out := issue (Instr.info (.vshrN64 f)) (int64Body .shrN f) s

/-- VSHR_I64 (R201). -/
def execVshrI64 (f : FmtV) (s : State) : Out := issue (Instr.info (.vshrI64 f)) (int64Body .shrI f) s

/-- VAND (R202). -/
def execVand (f : FmtV) (s : State) : Out := issue (Instr.info (.vand f)) (intBody (plain .and) false f) s

/-- VOR (R202). -/
def execVor (f : FmtV) (s : State) : Out := issue (Instr.info (.vor f)) (intBody (plain .or) false f) s

/-- VXOR (R202). -/
def execVxor (f : FmtV) (s : State) : Out := issue (Instr.info (.vxor f)) (intBody (plain .xor) false f) s

/-- VANDN (R202). -/
def execVandn (f : FmtV) (s : State) : Out := issue (Instr.info (.vandn f)) (intBody (fun a b _ => (a &&& ~~~ b, 0)) false f) s

/-- VNOT (R202). -/
def execVnot (f : FmtV1) (s : State) : Out := issue (Instr.info (.vnot f)) (int1Body (fun a => (~~~ a, 0)) f) s

/-- VMOV (R202). -/
def execVmov (f : FmtV1) (s : State) : Out := issue (Instr.info (.vmov f)) (int1Body (fun a => (a, 0)) f) s

/-- VBS (R202). -/
def execVbs (f : FmtV1) (s : State) : Out := issue (Instr.info (.vbs f)) (fun s => laneWise f.d f.q f.s (s.me.execMask f.p.toNat) (fun _ => (s.me.srcS f.a.toNat, 0)) false s) s

/-- VIMM (R202). -/
def execVimm (f : FmtVimm) (s : State) : Out := issue (Instr.info (.vimm f)) (fun s => laneWise f.d f.q f.s (s.me.execMask f.p.toNat) (fun _ => (s.me.himm.getD 0, 0)) false s) s

/-- VSEL (R202). -/
def execVsel (f : FmtV) (s : State) : Out := issue (Instr.info (.vsel f)) (fun s => laneWise f.d f.q f.s s.me.curMask
    (fun l => (if (s.me.mask f.p.toNat).getLsbD l then s.me.srcV f.a.toNat l else s.me.srcV f.b.toNat l, 0)) false s) s

/-- VPOPC (R202). -/
def execVpopc (f : FmtV1) (s : State) : Out := issue (Instr.info (.vpopc f)) (int1Body (fun a => (SOp.result .popc a a 0, 0)) f) s

/-- VCLZ (R202). -/
def execVclz (f : FmtV1) (s : State) : Out := issue (Instr.info (.vclz f)) (int1Body (fun a => (SOp.result .clz a a 0, 0)) f) s

/-- VCEQ (R203). -/
def execVceq (f : FmtVm) (s : State) : Out := issue (Instr.info (.vceq f)) (compareBody .eq f) s

/-- VCNE (R203). -/
def execVcne (f : FmtVm) (s : State) : Out := issue (Instr.info (.vcne f)) (compareBody .ne f) s

/-- VCLT (R203). -/
def execVclt (f : FmtVm) (s : State) : Out := issue (Instr.info (.vclt f)) (compareBody .lt f) s

/-- VCLE (R203). -/
def execVcle (f : FmtVm) (s : State) : Out := issue (Instr.info (.vcle f)) (compareBody .le f) s

/-- VCGT (R203). -/
def execVcgt (f : FmtVm) (s : State) : Out := issue (Instr.info (.vcgt f)) (compareBody .gt f) s

/-- VCGE (R203). -/
def execVcge (f : FmtVm) (s : State) : Out := issue (Instr.info (.vcge f)) (compareBody .ge f) s

/-- VCUN (R203). -/
def execVcun (f : FmtVm) (s : State) : Out := issue (Instr.info (.vcun f)) (compareBody .un f) s

/-- VCOR (R203). -/
def execVcor (f : FmtVm) (s : State) : Out := issue (Instr.info (.vcor f)) (compareBody .or f) s

/-- MAND (R204). -/
def execMand (f : FmtMk) (s : State) : Out := issue (Instr.info (.mand f)) (maskBody f.d (fun x => x.mask f.a.toNat &&& x.mask f.b.toNat)) s

/-- MOR (R204). -/
def execMor (f : FmtMk) (s : State) : Out := issue (Instr.info (.mor f)) (maskBody f.d (fun x => x.mask f.a.toNat ||| x.mask f.b.toNat)) s

/-- MXOR (R204). -/
def execMxor (f : FmtMk) (s : State) : Out := issue (Instr.info (.mxor f)) (maskBody f.d (fun x => x.mask f.a.toNat ^^^ x.mask f.b.toNat)) s

/-- MANDN (R204). -/
def execMandn (f : FmtMk) (s : State) : Out := issue (Instr.info (.mandn f)) (maskBody f.d (fun x => x.mask f.a.toNat &&& ~~~ x.mask f.b.toNat)) s

/-- MNOT (R204). -/
def execMnot (f : FmtMk1) (s : State) : Out := issue (Instr.info (.mnot f)) (maskBody f.d (fun x => ~~~ x.mask f.a.toNat)) s

/-- MMOV (R204). -/
def execMmov (f : FmtMk1) (s : State) : Out := issue (Instr.info (.mmov f)) (maskBody f.d (fun x => x.mask f.a.toNat)) s

/-- MLDS (R204). -/
def execMlds (f : FmtMlds) (s : State) : Out := issue (Instr.info (.mlds f)) (maskBody f.d (fun x => x.maskGroup f.x.toNat)) s

/-- MSTS (R204). -/
def execMsts (f : FmtMx) (s : State) : Out := issue (Instr.info (.msts f)) (mstsBody f) s

/-- MPOPC (R204). -/
def execMpopc (f : FmtMx) (s : State) : Out := issue (Instr.info (.mpopc f)) (scalarPut f.x (fun x => BitVec.ofNat 32 (countOf (x.mask f.a.toNat)))) s

/-- MFIRST (R204). -/
def execMfirst (f : FmtMx) (s : State) : Out := issue (Instr.info (.mfirst f)) (scalarPut f.x (fun x => firstOf (x.mask f.a.toNat))) s

/-- VBALLOT (R204). -/
def execVballot (f : FmtBallot) (s : State) : Out := issue (Instr.info (.vballot f)) (ballotBody f) s

/-- VSHFL (R215). -/
def execVshfl (f : FmtV) (s : State) : Out := issue (Instr.info (.vshfl f)) (shuffleBody (fun w _ b => b % w) false f) s

/-- VSHFX (R215). -/
def execVshfx (f : FmtV) (s : State) : Out := issue (Instr.info (.vshfx f)) (shuffleBody (fun w i b => i ^^^ (b % w)) false f) s

/-- VROT (R215). -/
def execVrot (f : FmtV) (s : State) : Out := issue (Instr.info (.vrot f)) (shuffleBody (fun w i t => (i + t) % w) true f) s

/-- VBCAST (R215). -/
def execVbcast (f : FmtV) (s : State) : Out := issue (Instr.info (.vbcast f)) (shuffleBody (fun w _ t => t % w) true f) s

/-- VSHUP (R215). -/
def execVshup (f : FmtV) (s : State) : Out := issue (Instr.info (.vshup f)) (shuffleBody (fun _ i t => if t ≤ i then i - t else i) true f) s

/-- VSHDN (R215). -/
def execVshdn (f : FmtV) (s : State) : Out := issue (Instr.info (.vshdn f)) (shuffleBody (fun w i t => if i + t < w then i + t else i) true f) s

/-- VRSUM_F32 (R216). -/
def execVrsumF32 (f : FmtV1) (s : State) : Out := issue (Instr.info (.vrsumF32 f)) (reduceBody (fun rm a b => fp32.add rm a b) 0 f) s

/-- VRMAX_F32 (R216). -/
def execVrmaxF32 (f : FmtV1) (s : State) : Out := issue (Instr.info (.vrmaxF32 f)) (reduceBody (fun _ a b => fp32.minmax true a b) 0xFF800000 f) s

/-- VRMIN_F32 (R216). -/
def execVrminF32 (f : FmtV1) (s : State) : Out := issue (Instr.info (.vrminF32 f)) (reduceBody (fun _ a b => fp32.minmax false a b) 0x7F800000 f) s

/-- VRSUM_I32 (R216). -/
def execVrsumI32 (f : FmtV1) (s : State) : Out := issue (Instr.info (.vrsumI32 f)) (reduceBody (opI .add) 0 f) s

/-- VRMAX_I32 (R216). -/
def execVrmaxI32 (f : FmtV1) (s : State) : Out := issue (Instr.info (.vrmaxI32 f)) (reduceBody (opI .maxI) 0 f) s

/-- VRMIN_I32 (R216). -/
def execVrminI32 (f : FmtV1) (s : State) : Out := issue (Instr.info (.vrminI32 f)) (reduceBody (opI .minI) 0 f) s

/-- VRMAX_N32 (R216). -/
def execVrmaxN32 (f : FmtV1) (s : State) : Out := issue (Instr.info (.vrmaxN32 f)) (reduceBody (opI .maxN) 0 f) s

/-- VRMIN_N32 (R216). -/
def execVrminN32 (f : FmtV1) (s : State) : Out := issue (Instr.info (.vrminN32 f)) (reduceBody (opI .minN) 0 f) s

/-- VSSUM_F32 (R216). -/
def execVssumF32 (f : FmtV1) (s : State) : Out := issue (Instr.info (.vssumF32 f)) (scanBody (fun rm a b => fp32.add rm a b) f) s

/-- VSSUM_I32 (R216). -/
def execVssumI32 (f : FmtV1) (s : State) : Out := issue (Instr.info (.vssumI32 f)) (scanBody (opI .add) f) s

/-- VSMAX_F32 (R216). -/
def execVsmaxF32 (f : FmtV1) (s : State) : Out := issue (Instr.info (.vsmaxF32 f)) (scanBody (fun _ a b => fp32.minmax true a b) f) s

/-- VSMAX_I32 (R216). -/
def execVsmaxI32 (f : FmtV1) (s : State) : Out := issue (Instr.info (.vsmaxI32 f)) (scanBody (opI .maxI) f) s

/-- VGET (R217). -/
def execVget (f : FmtVget) (s : State) : Out := issue (Instr.info (.vget f)) (vgetBody f) s

/-- VSET (R217). -/
def execVset (f : FmtVset) (s : State) : Out := issue (Instr.info (.vset f)) (vsetBody f) s

end Sys2Proof.Machine
end

