-- ==== Sys2Proof/Machine/Block.lean ====
section
/-! DEFINITION. Conversions (R205 to R207) and tagged blocks (R71 to R75, R208 to R213). -/

namespace Sys2Proof.Machine

/-! ### Conversions -/

/-- The element of a type that a lane of a register or pair holds: element `k` of a packed side, else the whole (R76,
R205). -/
def elementOf (t k : Nat) (x : Dword) : Nat :=
  if typeBits t < 32 then x.toNat / 2 ^ (typeBits t * k) % 2 ^ typeBits t
  else if typeBits t = 32 then x.toNat % 4294967296
  else x.toNat

/-- Element `k` of a packed register replaced (R205). -/
def replaceElement (t k : Nat) (old : Word) (v : Nat) : Word :=
  let n := typeBits t
  BitVec.ofNat 32 (old.toNat - old.toNat / 2 ^ (n * k) % 2 ^ n * 2 ^ (n * k) + v % 2 ^ n * 2 ^ (n * k))

/-- VCVT and VCVTQ (R205): `quiet` for VCVTQ, which raises no flag. -/
def convertBody (quiet : Bool) (f : FmtVc) (s : State) : Body :=
  let x := s.me
  let st := f.s.toNat
  let dt := f.t.toNat
  let k := f.e.toNat
  let src := fun l => if typeBits st = 64 then x.readV2 f.a.toNat l else (x.srcV f.a.toNat l).zeroExtend 64
  let v := fun l => convert st dt x.rm (elementOf st k (src l))
  let lo := fun l =>
    if typeBits dt < 32 then replaceElement dt k (x.readV f.d.toNat l) (v l).1 else BitVec.ofNat 32 (v l).1
  let hi := fun l => BitVec.ofNat 32 ((v l).1 / 4294967296)
  vectorResult f.d (if quiet then 1 else 0) f.w (x.execMask f.p.toNat) (if typeBits dt = 64 then [lo, hi] else [lo])
    (fun l => (v l).2) false s

/-- VCVT (R205). -/
def execVcvt (f : FmtVc) (s : State) : Out := issue (Instr.info (.vcvt f)) (convertBody false f) s

/-- VCVTQ (R205). -/
def execVcvtq (f : FmtVc) (s : State) : Out := issue (Instr.info (.vcvtq f)) (convertBody true f) s

/-! ### Segments (R208) -/

/-- The lanes of a segment and the packed bytes of a lane, by the format code of VBLK. -/
def segLanes (fmt : Nat) : Nat := if fmt < 2 then 16 else 32
def laneBytes (fmt : Nat) : Nat := if fmt < 2 then 4 else 2

/-- The type code of R138 for a format code of VBLK: e4m3, e5m2, e2m1, i4x. -/
def blkType (fmt : Nat) : Nat := 3 + fmt

/-- The format code of a block tag (R73, R209). -/
def blkTag (fmt : Nat) : Nat := 4 + fmt

/-- emax of R73. -/
def emaxOf (fmt : Nat) : Int := if fmt = 0 then 8 else if fmt = 1 then 16 else 2

/-- The first lane of the segment that holds lane `l`. -/
def segBase (fmt l : Nat) : Nat := l / segLanes fmt * segLanes fmt

/-- The source elements of a segment, as FP32 codes: +0 from a lane outside the execute mask (R208). -/
def Group.segElements (x : Group) (fmt a : Nat) (m : Mask) (base : Nat) : List Nat :=
  (List.range (segLanes fmt)).flatMap (fun j =>
    (List.range 4).map (fun k => if m.getLsbD (base + j) then (x.readV (a + k) (base + j)).toNat else 0))

/-- Magnitudes placed in a list of magnitudes and indices that descends, with equal ones in ascending index. -/
def placeDesc (p : Nat × Nat) (l : List (Nat × Nat)) : List (Nat × Nat) :=
  match l with
  | [] => [p]
  | q :: t => if q.1 < p.1 then p :: q :: t else q :: placeDesc p t

/-- The elements of finite magnitude, as (magnitude code, index), greatest first (R75, R211). -/
def byMagnitude (xs : List Nat) : List (Nat × Nat) :=
  ((xs.zip (List.range xs.length)).filter (fun p => p.1 % 2147483648 < fp32.infCode)).foldl
    (fun l p => placeDesc (p.1 % 2147483648, p.2) l) []

/-- floor(log2 a) of a finite non-zero FP32 magnitude. -/
def floorLog2 (c : Nat) : Int :=
  match fp32.decode c with
  | .fin _ m e => e + Nat.log2 m
  | _ => 0

/-- The scale code that R75 chooses. Where the elements leave no magnitude to choose (none is finite, or for i4x none beyond the
escape budget), a is 0 and so s = 0x7F (DESIGN CHOICE, log 74). -/
def scaleCode (fmt budget : Nat) (xs : List Nat) : Nat :=
  if xs.any (fun c => (fp32.decode c).isNan) then 255
  else
    let a := ((byMagnitude xs).getD (if fmt = 3 then budget else 0) (0, 0)).1
    if a = 0 then 127
    else
      let t := floorLog2 a - emaxOf fmt + 127
      (max 0 (min 254 t)).toNat

/-- The escape budget: the bundle's immediate, or 0 (R208). -/
def Group.budget (x : Group) : Nat := (x.himm.getD 0).toNat

/-- VBSCALE (R209). -/
def bscaleBody (f : FmtBscale) (s : State) : Body :=
  let x := s.me
  let fmt := f.f.toNat
  let m := x.execMask f.p.toNat
  laneWise f.d 1 f.s m (fun l =>
    (BitVec.ofNat 32 (scaleCode fmt x.budget (x.segElements fmt f.a.toNat m (segBase fmt l)) * 256 + blkTag fmt), 0)) true s

/-- VBSCALE (R209). -/
def execVbscale (f : FmtBscale) (s : State) : Out := issue (Instr.info (.vbscale f)) (bscaleBody f) s

/-! ### VQUANT (R210, R211) -/

/-- The scale code of the segment that begins at lane `base`, from bits [15:8] of B in its lane 0. -/
def Group.scaleOf (x : Group) (b base : Nat) : Nat := (x.srcV b base).toNat / 256 % 256

/-- x / q of an FP32 code, with q = 2^(s − 127), or 1 for s = 0xFF (R210). -/
def divided (s c : Nat) : FVal :=
  match fp32.decode c with
  | .fin n m e => .fin n m (if s = 255 then e else e - ((s : Int) - 127))
  | v => v

/-- The code and the flags of an element converted into the format (R79, R210). -/
def quantised (fmt s : Nat) (rm : BitVec 2) (c : Nat) : Nat × Flags := convertTo (blkType fmt) rm (divided s c)

/-- The escapes that R211 places, as byte numbers, from candidates in their order. -/
def escapes (s : Nat) (rm : BitVec 2) (xs : List Nat) (execLane : Nat → Bool) (cands : List Nat) (esc : List Nat) : List Nat :=
  match cands with
  | [] => esc
  | m :: t =>
    let b := m / 2
    let ok := m % 2 = 0 && b ≤ 62 && (quantised 3 s rm (xs.getD m 0)).2 &&& flagSAT != 0 &&
      execLane (b / 2) && execLane ((b + 1) / 2) && esc.all (fun c => b + 2 ≤ c || c + 2 ≤ b)
    escapes s rm xs execLane t (if ok then b :: esc else esc)

/-- Byte `b` of an i4x block with escapes (R211). -/
def i4xByte (s : Nat) (rm : BitVec 2) (xs : List Nat) (esc : List Nat) (b : Nat) : Nat :=
  let code := fun i => (quantised 3 s rm (xs.getD i 0)).1
  if esc.contains b then code (2 * b + 1) * 16 + 8
  else if 0 < b && esc.contains (b - 1) then (quantised 0 s rm (xs.getD (2 * (b - 1)) 0)).1
  else code (2 * b + 1) * 16 + code (2 * b)

/-- The flags of element `i` of an i4x block with escapes: an escaped element is converted into e4m3, and a non-zero one whose
slot an outlier takes is not stored and sets NX (R211). -/
def i4xFlags (s : Nat) (rm : BitVec 2) (xs : List Nat) (esc : List Nat) (i : Nat) : Flags :=
  let c := xs.getD i 0
  let b := i / 2
  if i % 2 = 0 && esc.contains b then (quantised 0 s rm c).2
  else if 0 < b && esc.contains (b - 1) then flagIf (c % 2147483648 != 0) flagNX
  else (quantised 3 s rm c).2

/-- The packed bytes of lane `j` of a segment and its flags (R208, R210, R211). -/
def quantLane (fmt s : Nat) (rm : BitVec 2) (xs : List Nat) (esc : List Nat) (j : Nat) : Nat × Flags :=
  let four := List.range 4
  if fmt = 3 then
    (i4xByte s rm xs esc (2 * j) + 256 * i4xByte s rm xs esc (2 * j + 1),
     four.foldl (fun a k => a ||| i4xFlags s rm xs esc (4 * j + k)) 0)
  else
    let q := fun k => quantised fmt s rm (xs.getD (4 * j + k) 0)
    let n := if fmt = 2 then 4 else 8
    (four.foldl (fun a k => a + (q k).1 * 2 ^ (n * k)) 0, four.foldl (fun a k => a ||| (q k).2) 0)

/-- VQUANT (R210, R211). -/
def quantBody (f : FmtQuant) (s : State) : Body :=
  let x := s.me
  let fmt := f.f.toNat
  let m := x.execMask f.p.toNat
  let lane := fun l =>
    let base := segBase fmt l
    let xs := x.segElements fmt f.a.toNat m base
    let sc := x.scaleOf f.b.toNat base
    let cands := ((byMagnitude xs).take x.budget).map (·.2)
    let esc := if fmt = 3 then escapes sc x.rm xs (fun j => m.getLsbD (base + j)) cands [] else []
    quantLane fmt sc x.rm xs esc (l - base)
  laneWise f.d f.q f.s m (fun l => (BitVec.ofNat 32 (lane l).1, (lane l).2)) true s

/-- VQUANT (R210). -/
def execVquant (f : FmtQuant) (s : State) : Out := issue (Instr.info (.vquant f)) (quantBody f) s

/-! ### Decoding (R71, R74, R212) -/

/-- A decoded element of a block, and whether its nibble was invalid. -/
structure Elem where
  val : FVal
  bad : Bool
deriving DecidableEq, Repr

/-- Zero. -/
def zeroElem : Elem := ⟨.fin false 0 0, false⟩

/-- A high nibble: the escape code there is invalid (R71). -/
def hiNibble (b : Nat) : Elem := if b / 16 = 8 then ⟨.fin false 0 0, true⟩ else ⟨ofInteger (i4Value (b / 16)), false⟩

/-- The walk of an i4x block (R71): an escape in a low nibble takes the next byte as an e4m3 outlier and gives up that byte's
two slots; an escape in the last byte is invalid. -/
def walkI4x (bytes : List Nat) : List Elem :=
  match bytes with
  | [] => []
  | [b] => (if b % 16 = 8 then ⟨.fin false 0 0, true⟩ else ⟨ofInteger (i4Value (b % 16)), false⟩) :: [hiNibble b]
  | b :: c :: t =>
    if b % 16 = 8 then ⟨e4m3.decode c, false⟩ :: hiNibble b :: zeroElem :: zeroElem :: walkI4x t
    else ⟨ofInteger (i4Value (b % 16)), false⟩ :: hiNibble b :: walkI4x (c :: t)

/-- The elements of a block of a format of VBLK, before scaling (R69 to R71). -/
def blockElements (fmt : Nat) (bytes : List Nat) : List Elem :=
  match fmt with
  | 0 => bytes.map (fun b => ⟨e4m3.decode b, false⟩)
  | 1 => bytes.map (fun b => ⟨e5m2.decode b, false⟩)
  | 2 => bytes.flatMap (fun b => [⟨e2m1.decode (b % 16), false⟩, ⟨e2m1.decode (b / 16), false⟩])
  | _ => walkI4x bytes

/-- An element scaled by 2^(s − 127); a NaN for s = 0xFF (R74). -/
def scaled (s : Nat) (v : FVal) : FVal :=
  if s = 255 then .nan false
  else match v with
    | .fin n m e => .fin n m (e + ((s : Int) - 127))
    | v => v

/-- The block bytes of a segment, from bits of A in each of its lanes (R208, R212). -/
def Group.segBytes (x : Group) (fmt a base : Nat) : List Nat :=
  (List.range (segLanes fmt)).flatMap (fun j =>
    (List.range (laneBytes fmt)).map (fun k => (x.srcV a (base + j)).toNat / 256 ^ k % 256))

/-- VDEQ (R212). -/
def deqBody (f : FmtQuant) (s : State) : Body :=
  let x := s.me
  let fmt := f.f.toNat
  let m := x.execMask f.p.toNat
  let elem := fun l k => (blockElements fmt (x.segBytes fmt f.a.toNat (segBase fmt l))).getD (4 * (l - segBase fmt l) + k) zeroElem
  let v := fun l k => fp32.ofVal x.rm (scaled (x.scaleOf f.b.toNat (segBase fmt l)) (elem l k).val)
  vectorResult f.d f.q f.s m ((List.range 4).map (fun k l => BitVec.ofNat 32 (v l k).1))
    (fun l => (List.range 4).foldl (fun a k => a ||| (v l k).2 ||| flagIf (elem l k).bad flagNV) 0) true s

/-- VDEQ (R212). -/
def execVdeq (f : FmtQuant) (s : State) : Out := issue (Instr.info (.vdeq f)) (deqBody f) s

end Sys2Proof.Machine
end

