-- ==== Sys2Proof/Machine/Access.lean ====
section
/-! DEFINITION. What every memory access of an instruction shares (R219, R220): addresses, the checks in their order, the
stalls that follow them, and the performance of loads and stores (R101, R102, R107, R114, R127, R128, R312). -/

namespace Sys2Proof.Machine

/-- One access: its lane, none for the scalar thread, and its address. -/
structure Access where
  lane : Option Nat
  va : Dword
deriving DecidableEq, Repr

/-- What an access is for: its size and alignment, the kind that translation and records see, whether a root slot or only a
bank is a target, whether it is an atomic, and its scope. -/
structure Use where
  size : Nat
  align : Nat
  acc : Acc
  slotOk : Bool := false
  bank : Bool := false
  atomic : Bool := false
  scope : Nat := 0
deriving DecidableEq, Repr

/-- An access with where it leads. -/
structure Hit where
  lane : Option Nat
  va : Dword
  tgt : Target
deriving DecidableEq, Repr

/-- A trap at an access. -/
def Hit.trap (h : Hit) (t : Trap) : Body := .trap { trap := t, addr := h.va, lane := h.lane }

/-- Where each access leads (R85, R92, R103, R106). -/
def State.hits (s : State) (l : List Access) (a : Acc) : List Hit :=
  l.map (fun x => ⟨x.lane, x.va, s.target s.me.wg x.va a⟩)

/-- The trap of check 6: the scratchpad range and peer membership (R103, R106). -/
def Hit.windowTrap (h : Hit) : Option Trap :=
  match h.tgt with
  | .range => some .scratchRange
  | .exited => some .peerExited
  | _ => none

/-- The cause of check 7. -/
def Hit.cause (h : Hit) : Option Cause :=
  match h.tgt with
  | .fault c _ => some c
  | _ => none

/-- The trap of check 9: a root slot, a bank target, a barrier line, a queue line (R105, R108, R227, R232). -/
def State.kindTrap (s : State) (u : Use) (h : Hit) : Option Trap :=
  match h.tgt with
  | .slot _ => if u.slotOk then none else some .rootSlot
  | .memory pa _ _ _ => if u.bank && !(paKind pa = 1 && paDie pa = s.myDie) then some .bankTarget else none
  | .spad loc _ =>
    if u.bank then some .bankTarget
    else if u.acc = .store && (s.lineAt loc).barrier then some .barrierLine
    else if u.acc = .store && (s.lineAt loc).queue then some .queue
    else none
  | _ => none

/-- The 32-byte sectors of memory that an access touches, with their virtual addresses (R127). -/
def Hit.sectors (h : Hit) (n : Nat) : List (Nat × Dword) :=
  match h.tgt with
  | .memory pa _ _ _ =>
    (List.range ((pa % 32 + n + 31) / 32)).map (fun i =>
      (pa / 32 * 32 + 32 * i, BitVec.ofNat 64 (h.va.toNat / 32 * 32 + 32 * i)))
  | _ => []

/-- The sectors at which an access conflicts (R128). -/
def State.conflicts (s : State) (u : Use) (h : Hit) : List (Nat × Dword) :=
  if (s.ctx s.myCtx).race = 0 then [] else (h.sectors u.size).filter (fun p => s.races s.cur p.1 u.atomic u.scope)

/-- Checks 5 to 9 of R220, each over every access before the next. Accesses that no TLB translates ask for walks, and the
group is stalled until these are done. -/
def State.placed (s : State) (u : Use) (l : List Access) : Except Body (List Hit) :=
  let hs := s.hits l u.acc
  match hs.find? (fun h => h.va.toNat % u.align != 0) with
  | some h => .error (h.trap .misaligned)
  | none =>
  match hs.findSome? (fun h => h.windowTrap.map (fun t => h.trap t)) with
  | some b => .error b
  | none =>
  if hs.any (fun h => h.tgt = .miss) then
    .error (.stall ((hs.filter (fun h => h.tgt = .miss)).foldl (fun s h => s.askWalk s.cur h.va u.acc) s) .walk)
  else
  match hs.findSome? (fun h => h.cause.map (fun c => Body.left (s.translationFault s.cur c u.acc h.va))) with
  | some b => .error b
  | none =>
  match hs.find? (fun h => !(s.core s.myCore).exchange && !h.tgt.home s.myDie) with
  | some h => .error (.trap { trap := .phaseIllegal, lane := h.lane })
  | none =>
  match hs.findSome? (fun h => (s.kindTrap u h).map (fun t => h.trap t)) with
  | some b => .error b
  | none => .ok hs

/-- Checks 5 to 10 of R220. -/
def State.checked (s : State) (u : Use) (l : List Access) : Except Body (List Hit) :=
  match s.placed u l with
  | .error b => .error b
  | .ok hs =>
    match hs.find? (fun h => (s.ctx s.myCtx).race = 1 && !(s.conflicts u h).isEmpty) with
    | some h => .error (h.trap .race)
    | none => .ok hs

/-- Whether a load, atomic or operand read meets an empty scratchpad line (R104). -/
def State.emptyLine (s : State) (hs : List Hit) : Bool :=
  hs.any (fun h => match h.tgt with | .spad loc _ => !(s.lineAt loc).full | _ => false)

/-- The value of `n` bytes at a target; a root slot is read in the issuing die's copy (R224). -/
def State.readAt (s : State) (t : Target) (n : Nat) : Nat :=
  match t with
  | .memory pa _ _ _ => s.natAt pa n
  | .spad loc _ => s.natAt loc n
  | .slot j => s.natAt (slotLoc s.myDie j) n
  | _ => 0

/-- The load before which no line that a load of `n` bytes at `pa` hits may have been filled: the one that its address depends on
(R113), or the group's own last load of one of the bytes past the cache (R112). -/
def State.sinceLoad (s : State) (dep pa n : Nat) : Nat :=
  ((List.range n).map (fun i => Fmap.get 0 s.me.past (pa + i))).foldl max dep

/-- The value that a load of `n` bytes returns, its address depending on load `dep`: the bytes of the core's L1 line where it hits
one, and those of memory otherwise (R101, R113). -/
def State.loadAt (s : State) (dep : Nat) (t : Target) (n : Nat) : Nat :=
  match t with
  | .memory pa cp _ _ =>
    match s.heldLine s.myCore pa (s.me.policy.getD cp) (s.sinceLoad dep pa n) with
    | some l => leNat ((l.data.drop (pa % l1LineBytes)).take n)
    | none => s.natAt pa n
  | _ => s.readAt t n

/-- The first access that would return poisoned bytes (R312). -/
def State.poisonedHit (s : State) (hs : List Hit) (n : Nat) : Option Hit :=
  hs.find? (fun h =>
    match h.tgt with
    | .memory pa _ _ _ => s.poisoned pa n
    | .spad loc _ => s.poisoned loc n
    | .slot j => s.poisoned (slotLoc s.myDie j) n
    | _ => false)

/-- The first load that would return poisoned bytes, of its L1 line where it hits one (R101, R312). -/
def State.poisonedLoad (s : State) (dep : Nat) (hs : List Hit) (n : Nat) : Option Hit :=
  hs.find? (fun h =>
    match h.tgt with
    | .memory pa cp _ _ =>
      match s.heldLine s.myCore pa (s.me.policy.getD cp) (s.sinceLoad dep pa n) with
      | some l => (List.range 16).any (fun k =>
          l.bad.getLsbD k && 8 * k < pa % l1LineBytes + n && pa % l1LineBytes < 8 * k + 8)
      | none => s.poisoned pa n
    | _ => (s.poisonedHit [h] n).isSome)

/-- RACE records of accesses that conflict in mode 2 (R128, R311): SUB is the scope of the earlier write. One record is written
for each conflicting access of a lane and each sector of it (DESIGN CHOICE, log 81). -/
def State.logRaces (s : State) (u : Use) (hs : List Hit) : State :=
  if (s.ctx s.myCtx).race != 2 then s
  else
    (hs.flatMap (s.conflicts u)).foldl (fun t p =>
      t.recordG s.cur 11 (match s.shadowAt p.1 with | some h => h.scope | none => 0) u.acc.code p.2.toNat s.me.trapPc.toNat) s

/-- The lines that loads look up and fill in L1, under the policy of an HMOD or of the page (R101). `since` gives the
load before which the line at a location may not have been filled. -/
def State.fillLines (s : State) (since : Nat → Nat) (hs : List Hit) : State :=
  hs.foldl (fun s h => match h.tgt with
    | .memory pa cp _ _ => s.fillL1 s.myCore pa (s.me.policy.getD cp) (since pa)
    | _ => s) s

/-- The bytes of DRAM that loads of `n` bytes read past the cache: those of a load that no cache serves, `always`, and else those
under policy BYPASS (R101). -/
def State.passedBytes (s : State) (always : Bool) (n : Nat) (hs : List Hit) : List Nat :=
  hs.flatMap (fun h => match h.tgt with
    | .memory pa cp _ _ => if paKind pa = 0 && (always || s.me.policy.getD cp = 2) then (List.range n).map (pa + ·) else []
    | _ => [])

/-- The group has read bytes past the cache with load `k`: it takes none of them from a line that was filled before (R112). -/
def Group.passing (x : Group) (k : Nat) (l : List Nat) : Group := { x with past := l.foldl (fun m a => Fmap.insert m a k) x.past }

/-- The issuing group performs loads of `n` bytes: what it writes from now on can depend on them (R113), and what they read past
the cache it does not read older again (R112). -/
def State.noteLoad (s : State) (always : Bool) (n : Nat) (hs : List Hit) : State :=
  s.modGroup s.cur (fun x => { x.passing (s.nextId + 1) (s.passedBytes always n hs) with lastLoad := s.nextId + 1 })

/-- What makes a release wait (R102): at cluster scope or wider, the group's unacknowledged stores. -/
def State.releaseWaits (s : State) (scope : Nat) : Bool := 2 ≤ scope && s.storesOut s.cur

/-- One store performed (R107, R127): the bytes, the dirty marks and the shadow. -/
def State.storeHit (s : State) (u : Use) (h : Hit) (bs : List Byte) : State :=
  (s.writeTarget s.myCore s.myCtx h.va h.tgt bs).shade s.cur h.tgt u.size u.atomic u.scope

/-- The places that acknowledge a store (R102, R106): memory, or a cluster peer's core; none for the own scratchpad. -/
def State.ackPlaces (s : State) (hs : List Hit) : List (Option Nat) :=
  let peers := distinct (hs.filterMap (fun h => match h.tgt with
    | .spad _ w => if w = s.me.wg then none else some w
    | _ => none))
  (if hs.any (fun h => match h.tgt with | .memory _ _ _ _ => true | .slot _ => true | _ => false) then [none] else []) ++
    peers.map some

/-- The stores of an instruction that are not acknowledged yet. -/
def State.addStores (s : State) (hs : List Hit) : State :=
  (s.ackPlaces hs).foldl (fun s p =>
    { s with stores := Fmap.insert s.stores s.nextId ⟨s.cur, s.me.wg, s.myCore, p⟩, nextId := s.nextId + 1 }) s

/-- A group's interval after a release (R127). -/
def State.released (s : State) : State := s.modGroup s.cur Group.nextInterval

/-! ### Loads and stores (R221 to R224) -/

/-- The scope and the order of VLD, VST, SLD and SST (R223): `ar` is AR. -/
def loadUse (n scope : Nat) : Use := { size := n, align := n, acc := .load, slotOk := n = 8, scope := scope }
def storeUse (n scope : Nat) : Use := { size := n, align := n, acc := .store, scope := scope }

/-- A loaded element extended to a register or pair (R221). -/
def extended (n : Nat) (sx : Bool) (x : Nat) : Dword :=
  if n = 1 then (if sx then (BitVec.ofNat 8 x).signExtend 64 else BitVec.ofNat 64 x)
  else if n = 2 then (if sx then (BitVec.ofNat 16 x).signExtend 64 else BitVec.ofNat 64 x)
  else BitVec.ofNat 64 x

/-- The value that the access of lane `l` returned. -/
def laneValue (l : Nat) (vs : List (Option Nat × Nat)) : Nat := ((vs.find? (fun p => p.1 = some l)).map (·.2)).getD 0

/-- The displacement of VLD and VST (R134, R219). -/
def Group.disp (x : Group) : Dword := (x.himm.getD 0).signExtend 64

/-- The addresses of VLD and VST (R219): a base with an index per lane, or with a stride. -/
def laneAddr (x : Group) (a i : BitVec 6) (strided : Bool) (l : Nat) : Dword :=
  let base := x.readS2 a.toNat
  if strided then base + BitVec.ofNat 64 l * (x.srcS i.toNat).signExtend 64 + x.disp
  else base + (x.srcV i.toNat l).zeroExtend 64 + x.disp

/-- The load that the addresses of VLD can depend on (R113). -/
def laneDep (x : Group) (a i : BitVec 6) (strided : Bool) : Nat :=
  max (max (x.depS a.toNat) (x.depS (a.toNat + 1))) (if strided then x.depS i.toNat else x.depV i.toNat)

/-- The accesses of the executing lanes. -/
def laneAccesses (m : Mask) (addr : Nat → Dword) : List Access := (lanesOf m).map (fun l => ⟨some l, addr l⟩)

/-- What follows the checks of a load-like access: the stalls, and the consumption of poison at the access `bad` (R104, R303,
R312). -/
def State.consume (s : State) (hs : List Hit) (bad : Option Hit) (nv ns : Nat) (k : Body) : Body :=
  if s.emptyLine hs then .stall s .line
  else if !s.room s.me.wg nv ns then .stall s (.pool nv ns)
  else match bad with
    | some h => .left (s.uncorrectable s.cur 1 h.va.toNat)
    | none => k

/-- After the loads of an instruction (R101, R102, R128). `since` is as `State.fillLines` has it. -/
def State.afterLoads (s : State) (u : Use) (ar : Bool) (since : Nat → Nat) (hs : List Hit) : State :=
  let t := (s.logRaces u hs).fillLines since hs
  if ar then t.acquire u.scope else t

/-- VLD (R221). -/
def vldBody (f : FmtVld) (s : State) : Body :=
  let x := s.me
  let m := x.execMask f.p.toNat
  let n := 2 ^ f.z.toNat
  let u := loadUse n x.scope
  if m = 0 then andNext s
  else match s.checked u (laneAccesses m (laneAddr x f.a f.i (f.t = 1))) with
    | .error b => b
    | .ok hs =>
      let regs := if n = 8 then 2 else 1
      let dep := laneDep x f.a f.i (f.t = 1)
      s.consume hs (s.poisonedLoad dep hs n) (regs * (hitQuarters x.width m).length) 0
        (let vs := hs.map (fun h => (h.lane, s.loadAt dep h.tgt n))
         let v := fun l => extended n (f.x = 1) (laneValue l vs)
         let t := (s.noteLoad false n hs).putVs s.cur f.d.toNat m (if n = 8 then [fun l => loOf (v l), fun l => hiOf (v l)] else [fun l => loOf (v l)])
         let t := t.addPend ⟨.load, s.cur, x.wg, s.myCore, t.me.idsVs f.d.toNat regs m, []⟩
         andNext (t.afterLoads u (f.r = 1) (fun pa => s.sinceLoad dep pa n) hs))

/-- VLD (R221). -/
def execVld (f : FmtVld) (s : State) : Out := issue (Instr.info (.vld f)) (vldBody f) s

/-- Stores of an instruction performed one after another, so that at one byte the last remains (R88). -/
def State.storeAll (s : State) (u : Use) (l : List (Hit × List Byte)) : State :=
  l.foldl (fun s p => s.storeHit u p.1 p.2) s

/-- VST (R221). The shadow records of a release store carry the interval that its release ends (DESIGN CHOICE, log 93). -/
def vstBody (f : FmtVst) (s : State) : Body :=
  let x := s.me
  let m := x.execMask f.p.toNat
  let n := 2 ^ f.z.toNat
  let u := storeUse n (if f.r = 1 then x.scope else 0)
  if m = 0 then andNext s
  else match s.checked u (laneAccesses m (laneAddr x f.a f.i (f.t = 1))) with
    | .error b => b
    | .ok hs =>
      if f.r = 1 && s.releaseWaits x.scope then .stall s .order
      else
        let value := fun l => if n = 8 then (x.readV2 f.d.toNat l).toNat else (x.srcV f.d.toNat l).toNat
        let t := (s.logRaces u hs).storeAll u (hs.map (fun h => (h, leBytes n (value (h.lane.getD 0)))))
        let t := t.addStores hs
        andNext (if f.r = 1 then t.released else t)

/-- VST (R221). -/
def execVst (f : FmtVst) (s : State) : Out := issue (Instr.info (.vst f)) (vstBody f) s

/-- The address of SLD and SST (R219). -/
def scalarAddr (x : Group) (a : BitVec 6) (o : BitVec 10) : Dword :=
  x.readS2 a.toNat + (match x.himm with | some v => v.signExtend 64 | none => o.signExtend 64)

/-- The load that the address of SLD can depend on (R113). -/
def scalarDep (x : Group) (a : BitVec 6) : Nat := max (x.depS a.toNat) (x.depS (a.toNat + 1))

/-- A scalar result that arrives later: written to D, or to the pair, without a shift of the chain. -/
def State.scalarArrives (s : State) (kind : PendKind) (d : Nat) (wide : Bool) (v : Dword) : State :=
  let t := if wide then s.putS2 s.cur d v else s.putS s.cur d (loOf v)
  t.addPend ⟨kind, s.cur, s.me.wg, s.myCore, [], t.me.idS d ++ (if wide then t.me.idS (d + 1) else [])⟩

/-- SLD (R222). -/
def sldBody (f : FmtSld) (s : State) : Body :=
  let x := s.me
  let n := 2 ^ f.z.toNat
  let u := loadUse n x.scope
  match s.checked u [⟨none, scalarAddr x f.a f.o⟩] with
  | .error b => b
  | .ok hs =>
    let dep := scalarDep x f.a
    s.consume hs (s.poisonedLoad dep hs n) 0 (if n = 8 then 2 else 1)
      (let v := extended n (f.x = 1) (hs.foldl (fun _ h => s.loadAt dep h.tgt n) 0)
       andNext (((s.noteLoad false n hs).scalarArrives .load f.d.toNat (n = 8) v).afterLoads u (f.r = 1) (fun pa => s.sinceLoad dep pa n) hs))

/-- SLD (R222). -/
def execSld (f : FmtSld) (s : State) : Out := issue (Instr.info (.sld f)) (sldBody f) s

/-- SST (R222). The shadow record of a release store is as VST's (DESIGN CHOICE, log 93). -/
def sstBody (f : FmtSst) (s : State) : Body :=
  let x := s.me
  let n := 2 ^ f.z.toNat
  let u := storeUse n (if f.r = 1 then x.scope else 0)
  match s.checked u [⟨none, scalarAddr x f.a f.o⟩] with
  | .error b => b
  | .ok hs =>
    if f.r = 1 && s.releaseWaits x.scope then .stall s .order
    else
      let v := if n = 8 then (x.readS2 f.d.toNat).toNat else (x.srcS f.d.toNat).toNat
      let t := ((s.logRaces u hs).storeAll u (hs.map (fun h => (h, leBytes n v)))).addStores hs
      andNext (if f.r = 1 then t.released else t)

/-- SST (R222). -/
def execSst (f : FmtSst) (s : State) : Out := issue (Instr.info (.sst f)) (sstBody f) s

/-! ### Completions -/

/-- An operation in flight that ends: its result is there for readers from now on (R57). -/
def State.land (s : State) (op : Nat) (k : PendKind) : Out :=
  match Fmap.find s.pend op with
  | some p => .next (if p.kind = k then { s with pend := Fmap.erase s.pend op } else s)
  | none => .next s

/-- LOAD_COMPLETION (R221). -/
def execLoadCompletion (op : Nat) (s : State) : Out := s.land op .load

/-- ATOMIC_COMPLETION (R226). -/
def execAtomicCompletion (op : Nat) (s : State) : Out := s.land op .atomic

/-- VARIABLE_LATENCY_RESULT (R160, R196). -/
def execVariableLatencyResult (op : Nat) (s : State) : Out := s.land op .slow

/-- STORE_ACKNOWLEDGED (R102). -/
def execStoreAcknowledged (op : Nat) (s : State) : Out := .next { s with stores := Fmap.erase s.stores op }

end Sys2Proof.Machine
end

