-- ==== Sys2Proof/Machine/Atomic.lean ====
section
/-! DEFINITION. Atomics and bank-unit operations (R225 to R228), tags, full bits and stage queues (R229 to R233). -/

namespace Sys2Proof.Machine

/-! ### Operations (R225) -/

/-- The operations of the table of R225. -/
inductive AOp where
  | add | fadd | minI | maxI | minN | maxN | and | or | xor | xchg | cas | inc | maxp
deriving DecidableEq, Repr

/-- The order of scores of BMAXP (R228): −0 below +0, and every NaN below −∞. -/
def scoreKey (c : Nat) : Int :=
  if (fp32.decode c).isNan then -4294967296
  else if c < 2147483648 then (c : Int) else -((c : Int) - 2147483648) - 1

/-- key(x) > key(o) of R228, for 64-bit words. -/
def keyAbove (x o : Nat) : Bool :=
  let p := scoreKey (x / 4294967296)
  let q := scoreKey (o / 4294967296)
  q < p || (p = q && x % 4294967296 < o % 4294967296)

/-- The new value and the flags of an n-bit operation with old value `o`, operand `b` and compare value `c`. -/
def AOp.apply (op : AOp) (n : Nat) (rm : BitVec 2) (o b c : Nat) : Nat × Flags :=
  let via := fun (f : SOp) => ((f.result (BitVec.ofNat n o) (BitVec.ofNat n b) 0).toNat, (0 : Flags))
  match op with
  | .add => via .add
  | .fadd => fp32.add rm o b
  | .minI => via .minI
  | .maxI => via .maxI
  | .minN => via .minN
  | .maxN => via .maxN
  | .and => via .and
  | .or => via .or
  | .xor => via .xor
  | .xchg => (b, 0)
  | .cas => (if o = c then b else o, 0)
  | .inc => (if o < b then (o + 1) % 2 ^ n else o, 0)
  | .maxp => (if keyAbove b o then b else o, 0)

/-- What one atomic of an instruction left: its lane, the old value, its flags. -/
structure Old where
  lane : Option Nat
  old : Nat
  fl : Flags
deriving DecidableEq, Repr

/-- One atomic performed where its target lies (R101, R226): the old value is read and the new one written. -/
def State.atomicHit (s : State) (u : Use) (op : AOp) (rm : BitVec 2) (h : Hit) (b c : Nat) : State × Old :=
  let o := s.readAt h.tgt u.size
  let r := op.apply (8 * u.size) rm o b c
  let t := s.storeHit u h (leBytes u.size r.1)
  let t := match h.tgt with
    | .memory pa _ _ _ => t.dropL1 t.myCore pa
    | _ => t
  (t, ⟨h.lane, o, r.2⟩)

/-- The atomics of an instruction, one after another in ascending lanes (R88). -/
def State.atomics (s : State) (u : Use) (op : AOp) (rm : BitVec 2) (l : List (Hit × Nat × Nat)) : State × List Old :=
  match l with
  | [] => (s, [])
  | p :: t =>
    let r := s.atomicHit u op rm p.1 p.2.1 p.2.2
    let q := r.1.atomics u op rm t
    (q.1, r.2 :: q.2)

/-- The use of an atomic of n bytes at a scope. -/
def atomicUse (n scope : Nat) (bank : Bool) : Use :=
  { size := n, align := n, acc := .store, bank := bank, atomic := true, scope := scope }

/-- The operand and the compare value that B gives in a lane (R225): b_new lies in the lower registers. -/
def vectorOperand (x : Group) (b : BitVec 6) (wide : Bool) (l : Nat) : Nat × Nat :=
  if wide then ((x.readV2 b.toNat l).toNat, (x.readV2 (b.toNat + 2) l).toNat)
  else ((x.srcV b.toNat l).toNat, (x.srcV (b.toNat + 1) l).toNat)

/-- The operand and the compare value that B gives the scalar thread. -/
def scalarOperand (x : Group) (b : BitVec 6) (wide : Bool) : Nat × Nat :=
  if wide then ((x.readS2 b.toNat).toNat, (x.readS2 (b.toNat + 2)).toNat)
  else ((x.srcS b.toNat).toNat, (x.srcS (b.toNat + 1)).toNat)

/-- VATOM and BANK (R225 to R227): `bank` for BANK, which is indivisible at die scope and rounds RNE. A float add
of VATOM or SATOM on a tier word, which a bank's unit performs, rounds by the current mode too (DEDUCED, log 92). -/
def vatomBody (op : AOp) (bank wide : Bool) (d a b : BitVec 6) (q : BitVec 1) (p : BitVec 2) (s : State) : Body :=
  let x := s.me
  let m := x.execMask p.toNat
  let n := if wide then 8 else 4
  let u := atomicUse n (if bank then 3 else x.scope) bank
  if m = 0 then andNext s
  else match s.checked u (laneAccesses m (fun l => x.readV2 a.toNat l)) with
    | .error e => e
    | .ok hs =>
      let regs := if wide then 2 else 1
      s.consume hs (s.poisonedHit hs n) (regs * (hitQuarters x.width m).length) 0
        (let r := (s.logRaces u hs).atomics u op (if bank then 0 else x.rm)
           (hs.map (fun h => (h, vectorOperand x b wide (h.lane.getD 0))))
         let vs := r.2.map (fun o => (o.lane, o.old))
         let lo := fun l => BitVec.ofNat 32 (laneValue l vs)
         let hi := fun l => BitVec.ofNat 32 (laneValue l vs / 4294967296)
         let t := r.1.putVs s.cur d.toNat m (if wide then [lo, hi] else [lo])
         let t := t.addPend ⟨.atomic, s.cur, x.wg, s.myCore, t.me.idsVs d.toNat regs m, []⟩
         let fl := fun l => ((r.2.find? (fun o => o.lane = some l)).map (·.fl)).getD 0
         andNext (if q = 0 then t.modGroup s.cur (fun y => y.orFlags m fl) else t))

/-- SATOM (R225, R226): its flags go to every lane of the group. -/
def satomBody (op : AOp) (wide : Bool) (d a b : BitVec 6) (q : BitVec 1) (s : State) : Body :=
  let x := s.me
  let n := if wide then 8 else 4
  let u := atomicUse n x.scope false
  match s.checked u [⟨none, x.readS2 a.toNat⟩] with
  | .error e => e
  | .ok hs =>
    s.consume hs (s.poisonedHit hs n) 0 (if wide then 2 else 1)
      (let r := (s.logRaces u hs).atomics u op x.rm (hs.map (fun h => (h, scalarOperand x b wide)))
       let o := r.2.head?.getD ⟨none, 0, 0⟩
       let t := r.1.scalarArrives .atomic d.toNat wide (BitVec.ofNat 64 o.old)
       andNext (if q = 0 then t.modGroup s.cur (fun y => y.orFlags (fullMask y.width) (fun _ => o.fl)) else t))

/-! ### The instructions -/

/-- VATOM_ADD (R226). -/
def execVatomAdd (f : FmtAt) (s : State) : Out := issue (Instr.info (.vatomAdd f)) (vatomBody .add false (f.l = 1) f.d f.a f.b f.q f.p) s

/-- VATOM_ADD_F32 (R225). -/
def execVatomAddF32 (f : FmtAt1) (s : State) : Out := issue (Instr.info (.vatomAddF32 f)) (vatomBody .fadd false false f.d f.a f.b f.q f.p) s

/-- VATOM_MIN_I (R226). -/
def execVatomMinI (f : FmtAt) (s : State) : Out := issue (Instr.info (.vatomMinI f)) (vatomBody .minI false (f.l = 1) f.d f.a f.b f.q f.p) s

/-- VATOM_MAX_I (R226). -/
def execVatomMaxI (f : FmtAt) (s : State) : Out := issue (Instr.info (.vatomMaxI f)) (vatomBody .maxI false (f.l = 1) f.d f.a f.b f.q f.p) s

/-- VATOM_MIN_N (R226). -/
def execVatomMinN (f : FmtAt) (s : State) : Out := issue (Instr.info (.vatomMinN f)) (vatomBody .minN false (f.l = 1) f.d f.a f.b f.q f.p) s

/-- VATOM_MAX_N (R226). -/
def execVatomMaxN (f : FmtAt) (s : State) : Out := issue (Instr.info (.vatomMaxN f)) (vatomBody .maxN false (f.l = 1) f.d f.a f.b f.q f.p) s

/-- VATOM_AND (R226). -/
def execVatomAnd (f : FmtAt) (s : State) : Out := issue (Instr.info (.vatomAnd f)) (vatomBody .and false (f.l = 1) f.d f.a f.b f.q f.p) s

/-- VATOM_OR (R226). -/
def execVatomOr (f : FmtAt) (s : State) : Out := issue (Instr.info (.vatomOr f)) (vatomBody .or false (f.l = 1) f.d f.a f.b f.q f.p) s

/-- VATOM_XOR (R226). -/
def execVatomXor (f : FmtAt) (s : State) : Out := issue (Instr.info (.vatomXor f)) (vatomBody .xor false (f.l = 1) f.d f.a f.b f.q f.p) s

/-- VATOM_XCHG (R226). -/
def execVatomXchg (f : FmtAt) (s : State) : Out := issue (Instr.info (.vatomXchg f)) (vatomBody .xchg false (f.l = 1) f.d f.a f.b f.q f.p) s

/-- VATOM_CAS (R226). -/
def execVatomCas (f : FmtAt) (s : State) : Out := issue (Instr.info (.vatomCas f)) (vatomBody .cas false (f.l = 1) f.d f.a f.b f.q f.p) s

/-- SATOM_ADD (R226). -/
def execSatomAdd (f : FmtSat) (s : State) : Out := issue (Instr.info (.satomAdd f)) (satomBody .add (f.l = 1) f.d f.a f.b f.q) s

/-- SATOM_ADD_F32 (R225). -/
def execSatomAddF32 (f : FmtSat1) (s : State) : Out := issue (Instr.info (.satomAddF32 f)) (satomBody .fadd false f.d f.a f.b f.q) s

/-- SATOM_MIN_I (R226). -/
def execSatomMinI (f : FmtSat) (s : State) : Out := issue (Instr.info (.satomMinI f)) (satomBody .minI (f.l = 1) f.d f.a f.b f.q) s

/-- SATOM_MAX_I (R226). -/
def execSatomMaxI (f : FmtSat) (s : State) : Out := issue (Instr.info (.satomMaxI f)) (satomBody .maxI (f.l = 1) f.d f.a f.b f.q) s

/-- SATOM_MIN_N (R226). -/
def execSatomMinN (f : FmtSat) (s : State) : Out := issue (Instr.info (.satomMinN f)) (satomBody .minN (f.l = 1) f.d f.a f.b f.q) s

/-- SATOM_MAX_N (R226). -/
def execSatomMaxN (f : FmtSat) (s : State) : Out := issue (Instr.info (.satomMaxN f)) (satomBody .maxN (f.l = 1) f.d f.a f.b f.q) s

/-- SATOM_AND (R226). -/
def execSatomAnd (f : FmtSat) (s : State) : Out := issue (Instr.info (.satomAnd f)) (satomBody .and (f.l = 1) f.d f.a f.b f.q) s

/-- SATOM_OR (R226). -/
def execSatomOr (f : FmtSat) (s : State) : Out := issue (Instr.info (.satomOr f)) (satomBody .or (f.l = 1) f.d f.a f.b f.q) s

/-- SATOM_XOR (R226). -/
def execSatomXor (f : FmtSat) (s : State) : Out := issue (Instr.info (.satomXor f)) (satomBody .xor (f.l = 1) f.d f.a f.b f.q) s

/-- SATOM_XCHG (R226). -/
def execSatomXchg (f : FmtSat) (s : State) : Out := issue (Instr.info (.satomXchg f)) (satomBody .xchg (f.l = 1) f.d f.a f.b f.q) s

/-- SATOM_CAS (R226). -/
def execSatomCas (f : FmtSat) (s : State) : Out := issue (Instr.info (.satomCas f)) (satomBody .cas (f.l = 1) f.d f.a f.b f.q) s

/-- BADD (R227). -/
def execBadd (f : FmtAt1) (s : State) : Out := issue (Instr.info (.badd f)) (vatomBody .add true false f.d f.a f.b f.q f.p) s

/-- BADD_F32 (R227). -/
def execBaddF32 (f : FmtAt1) (s : State) : Out := issue (Instr.info (.baddF32 f)) (vatomBody .fadd true false f.d f.a f.b f.q f.p) s

/-- BMIN_I32 (R227). -/
def execBminI32 (f : FmtAt1) (s : State) : Out := issue (Instr.info (.bminI32 f)) (vatomBody .minI true false f.d f.a f.b f.q f.p) s

/-- BMAX_I32 (R227). -/
def execBmaxI32 (f : FmtAt1) (s : State) : Out := issue (Instr.info (.bmaxI32 f)) (vatomBody .maxI true false f.d f.a f.b f.q f.p) s

/-- BMIN_N32 (R227). -/
def execBminN32 (f : FmtAt1) (s : State) : Out := issue (Instr.info (.bminN32 f)) (vatomBody .minN true false f.d f.a f.b f.q f.p) s

/-- BMAX_N32 (R227). -/
def execBmaxN32 (f : FmtAt1) (s : State) : Out := issue (Instr.info (.bmaxN32 f)) (vatomBody .maxN true false f.d f.a f.b f.q f.p) s

/-- BINC (R228). -/
def execBinc (f : FmtAt1) (s : State) : Out := issue (Instr.info (.binc f)) (vatomBody .inc true false f.d f.a f.b f.q f.p) s

/-- BMAXP (R228). -/
def execBmaxp (f : FmtAt1) (s : State) : Out := issue (Instr.info (.bmaxp f)) (vatomBody .maxp true true f.d f.a f.b f.q f.p) s

/-- BXCHG (R227). -/
def execBxchg (f : FmtAt) (s : State) : Out := issue (Instr.info (.bxchg f)) (vatomBody .xchg true (f.l = 1) f.d f.a f.b f.q f.p) s

/-- BCAS (R227). -/
def execBcas (f : FmtAt) (s : State) : Out := issue (Instr.info (.bcas f)) (vatomBody .cas true (f.l = 1) f.d f.a f.b f.q f.p) s

/-- BOR (R227). -/
def execBor (f : FmtAt1) (s : State) : Out := issue (Instr.info (.bor f)) (vatomBody .or true false f.d f.a f.b f.q f.p) s

/-- BAND (R227). -/
def execBand (f : FmtAt1) (s : State) : Out := issue (Instr.info (.band f)) (vatomBody .and true false f.d f.a f.b f.q f.p) s

/-! ### Tags and full bits (R229, R231) -/

/-- TAGLD (R229): a load of the tag of a 64-byte block. No cache holds tags, so that it returns the newest one, and as it counts as an
access to every byte of the block, later loads of the group take none of them from an older line (R112). -/
def execTagld (f : FmtDa) (s : State) : Out :=
  issue (Instr.info (.tagld f)) (fun s =>
    let u : Use := { size := 64, align := 64, acc := .load }
    match s.checked u [⟨none, s.me.readS2 f.a.toNat⟩] with
    | .error e => e
    | .ok hs =>
      if s.emptyLine hs then .stall s .line
      else if !s.room s.me.wg 0 1 then .stall s (.pool 0 1)
      else
        match hs.head?.bind (fun h => h.tgt.loc?.map (fun l => (h, l))) with
        | none => andNext s
        | some (h, loc) =>
          if Fmap.get false s.tagPoison (loc / 64) then .left (s.uncorrectable s.cur 1 h.va.toNat)
          else andNext (((s.noteLoad true 64 hs).logRaces u hs).scalarArrives .load f.d.toNat false ((s.tagAt loc).zeroExtend 64))) s

/-- TAGST (R229): a store of the tag of a 64-byte block. -/
def execTagst (f : FmtAb) (s : State) : Out :=
  issue (Instr.info (.tagst f)) (fun s =>
    let u : Use := { size := 64, align := 64, acc := .store }
    match s.checked u [⟨none, s.me.readS2 f.a.toNat⟩] with
    | .error e => e
    | .ok hs =>
      let tag := (s.me.srcS f.b.toNat).extractLsb' 0 16
      let put := fun (t : State) (h : Hit) =>
        match h.tgt with
        | .memory pa _ mir _ =>
          let t := (t.setTag pa tag).shade t.cur h.tgt 64 false 0
          if mir then t.markTag t.myCore t.myCtx h.va pa else t
        | .spad loc _ => t.setTag loc tag
        | _ => t
      andNext ((hs.foldl put (s.logRaces u hs)).addStores hs)) s

/-- SETE and SETF (R104, R231): a line of either scratchpad window made empty or full. -/
def fullBitBody (full : Bool) (f : FmtA) (s : State) : Body :=
  let va := s.me.readS2 f.a.toNat
  let t := s.target s.me.wg va .store
  let h : Hit := ⟨none, va, t⟩
  match t with
  | .exited => h.trap .peerExited
  | .spad loc _ =>
    let l := s.lineAt loc
    if l.barrier then h.trap .barrierLine
    else if l.queue then h.trap .queue
    else andNext (s.setLine loc { l with full := full })
  | _ => h.trap .scratchRange

/-- SETE (R231). -/
def execSete (f : FmtA) (s : State) : Out := issue (Instr.info (.sete f)) (fullBitBody false f) s

/-- SETF (R231). -/
def execSetf (f : FmtA) (s : State) : Out := issue (Instr.info (.setf f)) (fullBitBody true f) s

/-! ### Stage queues (R232, R233) -/

/-- The check of a queue address, check 9 of R220, which no race check follows (R108, R128, R232, R233): the location of the
issuer's own queue line, whose capacity `n` does not pass. Any byte of the line is its address (DESIGN CHOICE, log 100). -/
def State.queueLine (s : State) (va : Dword) (n : Nat) : Except Body Nat :=
  match s.placed { size := 1, align := 1, acc := .load } [⟨none, va⟩] with
  | .error e => .error e
  | .ok hs =>
    let bad := Body.trap { trap := .queue, addr := va }
    match regionOf va, hs with
    | .own _, [⟨_, _, .spad l _⟩] =>
      let loc := l / 128 * 128
      if !(s.lineAt loc).queue || s.qCap loc < n then .error bad else .ok loc
    | _, _ => .error bad

/-- QPUSH (R233). -/
def qpushBody (n : Info) (f : FmtQpush) (s : State) : Body :=
  let x := s.me
  let m := x.execMask f.p.toNat
  if m = 0 then andNext s
  else match s.queueLine (x.readS2 f.a.toNat) (countOf m) with
    | .error e => e
    | .ok loc =>
      let vals := (lanesOf m).map (fun l => x.srcV f.b.toNat l)
      if (s.pushWaiters loc).isEmpty && s.qUsed loc + vals.length ≤ s.qCap loc then
        andNext (((s.pushed x.wg loc vals).serveAll loc).modGroup s.cur Group.nextInterval)
      else .left ({ s with nextId := s.nextId + 1 }.waits n (.qpush loc s.nextId vals))

/-- QPUSH (R233). -/
def execQpush (f : FmtQpush) (s : State) : Out := issue (Instr.info (.qpush f)) (qpushBody (Instr.info (.qpush f)) f) s

/-- QPOP (R233). A waiting QPOP holds the slices of its destination, with their old values. -/
def qpopBody (n : Info) (f : FmtQpop) (s : State) : Body :=
  let x := s.me
  let m := x.execMask f.p.toNat
  if m = 0 then andNext s
  else match s.queueLine (x.readS2 f.a.toNat) (countOf m) with
    | .error e => e
    | .ok loc =>
      withRoom s (hitQuarters x.width m).length 0
        (if (s.popWaiters loc).isEmpty && countOf m ≤ s.qUsed loc then
           if s.frontBad x.wg loc (countOf m) then .left (s.uncorrectable s.cur 1 (x.readS2 f.a.toNat).toNat) else
           let vals := s.front x.wg loc (countOf m)
           andNext ((((s.popped loc (countOf m)).putV s.cur f.d.toNat m (spread m vals)).learn s.cur).serveAll loc)
         else
           let t := s.putV s.cur f.d.toNat m (fun l => x.readV f.d.toNat l)
           .left ({ t with nextId := t.nextId + 1 }.waits n (.qpop loc t.nextId f.d m)))

/-- QPOP (R233). -/
def execQpop (f : FmtQpop) (s : State) : Out := issue (Instr.info (.qpop f)) (qpopBody (Instr.info (.qpop f)) f) s

end Sys2Proof.Machine
end

