-- ==== Sys2Proof/Machine/Engine.lean ====
section
/-! DEFINITION. Engine operations and futures (R97, R98, R104, R230, R234 to R242): CPY, GATH, SCAT, PFD, the instructions on
futures, and the elements, completions, parks and copy faults of operations in flight. The elements of X-class transfers
(R249) are performed here too. -/

namespace Sys2Proof.Machine

/-! ### Operations in flight -/

/-- An element: its lane, its destination, its source and its bytes. -/
structure Element where
  lane : Nat
  dst : Dword
  src : Dword
  unit : Nat
deriving DecidableEq, Repr

/-- Element `k` of an operation. -/
def EngOp.element (o : EngOp) (k : Nat) : Option Element :=
  (o.runs.find? (fun r => r.first ≤ k && k < r.first + r.count)).map (fun r =>
    let off := BitVec.ofNat 64 (r.unit * (k - r.first))
    ⟨r.lane, r.dst + off, r.src + off, r.unit⟩)

/-- The element indices of an operation. -/
def EngOp.indices (o : EngOp) : List Nat := o.runs.flatMap (fun r => (List.range r.count).map (r.first + ·))

/-- The elements not performed, in ascending order (R238). -/
def EngOp.left (o : EngOp) : List Nat := o.indices.filter (fun k => !o.performed.contains k)

/-- X-class transfers are no engine operations (R234, R249). -/
def EngKind.xclass (k : EngKind) : Bool := k = .xput || k = .xget

/-- Operation `op` changed by `f`. -/
def State.modEng (s : State) (op : Nat) (f : EngOp → EngOp) : State := { s with engs := Fmap.adjust s.engs op f }

/-- Operation `op` completes with a word (R234): the counts that it holds on lines are released (R104), and its future has the
word. -/
def State.endEng (s : State) (op : Nat) (o : EngOp) (word : Word) : State :=
  let t := s.releaseLines o
  { t with engs := Fmap.erase t.engs op, done := Fmap.insert t.done op word }

/-- The context and core of an operation. -/
def State.engCtx (s : State) (o : EngOp) : Nat := (s.wg o.wg).ctx
def State.engCore (s : State) (o : EngOp) : Nat := (s.wg o.wg).core

/-! ### The checks of an element (R97, R98, R220, R249) -/

/-- How an element that may not be performed ends: a copy fault with SUB and the address (R311), or a park with its cause. -/
inductive ElementEnd where
  | fault (sub : Nat) (va : Dword)
  | park (c : Cause) (va : Dword)
deriving DecidableEq, Repr

/-- One of the two addresses of an element: whether it is the destination, and where it leads. -/
structure Side where
  write : Bool
  va : Dword
  tgt : Target
deriving DecidableEq, Repr

/-- The sides of an element, the source first. -/
def State.sides (s : State) (o : EngOp) (e : Element) : List Side :=
  [⟨false, e.src, s.target o.wg e.src .engineRead⟩, ⟨true, e.dst, s.target o.wg e.dst .engineWrite⟩]

/-- Alignment (R87, R236). -/
def alignEnd (unit : Nat) (x : Side) : Option ElementEnd :=
  if x.va.toNat % unit = 0 then none else some (.fault 3 x.va)

/-- Scratchpad range and peer membership (R103, R106). -/
def windowEnd (x : Side) : Option ElementEnd :=
  match x.tgt with
  | .range => some (.fault 5 x.va)
  | .exited => some (.fault 9 x.va)
  | _ => none

/-- Translation: a park of CPY, GATH or SCAT where the page has RES = 1, else a copy fault (R97, R249). -/
def translationEnd (k : EngKind) (x : Side) : Option ElementEnd :=
  match x.tgt with
  | .fault c res =>
    if res && (c = .notmapped || c = .permission) && (k = .cpy || k = .gath || k = .scat) then some (.park c x.va)
    else some (.fault 1 x.va)
  | _ => none

/-- Home (R36, R98, R99, R249): asked of an engine element in every superstep, and of the source of XPUT and the destination of
XGET. -/
def homeEnd (k : EngKind) (d : Nat) (x : Side) : Option ElementEnd :=
  let asked := match k with
    | .xput => !x.write
    | .xget => x.write
    | _ => true
  if asked && !x.tgt.home d then some (.fault 2 x.va) else none

/-- Target kinds: a root slot, for X-class also mirror data and a peer window; a barrier or queue line written (R98, R105,
R108, R249). -/
def State.kindEnd (s : State) (k : EngKind) (x : Side) : Option ElementEnd :=
  match x.tgt with
  | .slot _ => some (.fault 7 x.va)
  | .memory _ _ mir _ => if k.xclass && mir then some (.fault 7 x.va) else none
  | .spad loc _ =>
    if k.xclass && (match regionOf x.va with | .peer _ _ => true | _ => false) then some (.fault 7 x.va)
    else if x.write && (s.lineAt loc).barrier then some (.fault 4 x.va)
    else if x.write && (s.lineAt loc).queue then some (.fault 6 x.va)
    else none
  | _ => none

/-- The first check that the sides of an element of core `c` fail, each check made over every side before the next
(R220). -/
def State.sidesEnd (s : State) (k : EngKind) (c unit : Nat) (xs : List Side) : Option ElementEnd :=
  (xs.findSome? (alignEnd unit)).or ((xs.findSome? windowEnd).or ((xs.findSome? (translationEnd k)).or
    ((xs.findSome? (homeEnd k (dieOfCore c))).or (xs.findSome? (s.kindEnd k)))))

/-- The first check that an element fails (R220). -/
def State.elementEnd (s : State) (o : EngOp) (e : Element) : Option ElementEnd :=
  s.sidesEnd o.kind (s.engCore o) e.unit (s.sides o e)

/-! ### Performing an element -/

/-- The parts of an element that lie in one block each, as an offset and a length. -/
def blockParts (unit : Nat) : List (Nat × Nat) := if unit ≤ 64 then [(0, unit)] else [(0, 64), (64, 64)]

/-- Whether a higher lane has written the destination of an element of a lane already, so that its bytes stay (R236). -/
def EngOp.behind (o : EngOp) (dst lane : Nat) : Bool :=
  match Fmap.find o.wrote dst with
  | some p => lane < p.lane
  | none => false

/-- The operation after it has copied an element from `src` to `dst`. -/
def EngOp.copied (o : EngOp) (e : Element) (src dst : Nat) : EngOp :=
  { o with wrote := Fmap.insert o.wrote dst ⟨e.lane, src⟩ }

/-- Whether an element other than `k` will yet change a byte of block `b` of memory, by whichever address its destination is
reached: another page of the same frame, or the other scratchpad window (R230, log 103). -/
def State.willWrite (s : State) (o : EngOp) (k b : Nat) : Bool :=
  o.left.any (fun j => j != k && (o.element j).any (fun e =>
    match (s.target o.wg e.dst .engineWrite).loc? with
    | some l => l < 64 * b + 64 && 64 * b < l + e.unit && !o.behind l e.lane
    | none => false))

/-- The source block from which every byte of block `b` was copied, each from its own offset, if there is one (R230). -/
def EngOp.wholeFrom (o : EngOp) (unit b : Nat) : Option Nat :=
  let word := fun (i : Nat) =>
    let d := (64 * b + 4 * i) / unit * unit
    (Fmap.find o.wrote d).map (fun p => p.src + (64 * b + 4 * i - d))
  match word 0 with
  | some a => if a % 64 = 0 && (List.range 16).all (fun i => word i = some (a + 4 * i)) then some (a / 64) else none
  | none => none

/-- The tags that element `k`, whose bytes operation `o` has just copied to `dst`, takes along with the last byte of a block: the
offset in the element, the destination block and the source block (R230; with overlapping elements DESIGN CHOICE, log 103). -/
def State.tagsDue (s : State) (o : EngOp) (k : Nat) (e : Element) (dst : Nat) : List (Nat × Nat × Nat) :=
  (blockParts e.unit).filterMap (fun p =>
    let b := (dst + p.1) / 64
    if s.willWrite o k b then none else (o.wholeFrom e.unit b).map (fun a => (p.1, b, a)))

/-- Whether an element takes along a poisoned tag (R312). -/
def State.poisonedTag (s : State) (o : EngOp) (k : Nat) (e : Element) (src dst : Nat) : Bool :=
  !o.behind dst e.lane && (s.tagsDue (o.copied e src dst) k e dst).any (fun p => Fmap.get false s.tagPoison p.2.2)

/-- The tags that an element's bytes take along, written with the block's last byte (R230). -/
def State.carryTags (s : State) (o : EngOp) (k : Nat) (e : Element) (dst : Nat) (mir : Bool) : State :=
  (s.tagsDue o k e dst).foldl (fun s p =>
    let t := s.setTag (64 * p.2.1) (s.tagAt (64 * p.2.2))
    if mir then t.markTag (s.engCore o) (s.engCtx o) (e.dst + BitVec.ofNat 64 p.1) (64 * p.2.1) else t) s

/-- RACE records of an element of group `g` that conflicts, in either mode (R128, R311). -/
def State.logElement (s : State) (g : Nat) (x : Side) (unit : Nat) : State :=
  if (s.ctx (s.ctxOf g)).race = 0 then s
  else
    (((⟨none, x.va, x.tgt⟩ : Hit).sectors unit).filter (fun p => s.races g p.1 false 0)).foldl (fun t p =>
      t.recordG g 11 (match s.shadowAt p.1 with | some h => h.scope | none => 0) 3 p.2.toNat 0) s

/-- The dies whose memory an X-class element reaches join the context's touched dies (R318). -/
def State.touch (s : State) (k d : Nat) : State :=
  s.setCtx k { s.ctx k with touch := (s.ctx k).touch ||| BitVec.ofNat 4 (2 ^ d) }
def State.touchTarget (s : State) (k : Nat) (t : Target) : State :=
  match t with | .memory pa _ _ _ => s.touch k (paDie pa) | _ => s
def State.touchSides (s : State) (o : EngOp) (xs : List Side) : State :=
  if !o.kind.xclass then s else xs.foldl (fun s x => s.touchTarget (s.engCtx o) x.tgt) s

/-- Whether a target's page is a mirror page. -/
def Target.mirror (t : Target) : Bool := match t with | .memory _ _ m _ => m | _ => false

/-- The count that an operation holds on the line of `loc` goes down with the last of its elements there (R104). -/
def State.arriveLine (s : State) (op : Nat) (o : EngOp) (loc : Nat) : State :=
  match Fmap.find o.lines (loc / 128) with
  | none => s
  | some n =>
    if n ≤ 1 then (s.modEng op (fun y => { y with lines := Fmap.erase y.lines (loc / 128) })).releaseLine loc
    else s.modEng op (fun y => { y with lines := Fmap.insert y.lines (loc / 128) (n - 1) })

/-- Element `k` performed (R238): its bytes are copied unless a higher lane has written the destination already (R236). An X-class
element whose memory lies on a die that is lost is performed as any other (DESIGN CHOICE, log 128). -/
def State.performElement (s : State) (op k : Nat) (o : EngOp) (e : Element) (a b : Side) (src dst : Nat) : State :=
  let s := (s.logElement o.g a e.unit).logElement o.g b e.unit
  let s :=
    if o.behind dst e.lane then s
    else
      let t := (s.writeTarget (s.engCore o) (s.engCtx o) e.dst b.tgt (s.bytesAt src e.unit)).shade o.g b.tgt e.unit false 0
      (t.carryTags (o.copied e src dst) k e dst b.tgt.mirror).modEng op (fun y => y.copied e src dst)
  let s := (s.touchSides o [a, b]).arriveLine op o dst
  s.modEng op (fun y => { y with performed := y.performed ++ [k], issued := y.issued.filter (fun i => i != k) })

/-! ### Parks and copy faults -/

/-- An operation parks (R97, R238, R311): RESUMABLE carries its sequence number, its handle and the lowest element not
performed. -/
def State.park (s : State) (op : Nat) (o : EngOp) (c : Cause) (va : Dword) : State :=
  let k := s.engCtx o
  let q := (s.ctx k).seq
  let low := o.left.head?.getD 0
  let s := s.recordG o.g 4 c.code 3 va.toNat (q * 17592186044416 + o.handle * 4294967296 + low)
  (s.setCtx k { s.ctx k with seq := (q + 1) % 1048576 }).modEng op (fun y => { y with parkSeq := some q })

/-- Operation `op` is no more, if its workgroup's termination has not stopped it: one of a workgroup that has ended before
(R188, R242). -/
def State.dropEng (s : State) (op : Nat) (o : EngOp) : State :=
  if (Fmap.find s.engs op).isSome then s.endEng op o 1 else s

/-- A copy fault outside a region (R98): COPY_FAULT is written, and the workgroup is terminated. -/
def State.copyFatal (s : State) (op : Nat) (o : EngOp) (sub : Nat) (va : Dword) : State :=
  ((s.recordG o.g 5 sub 3 va.toNat (if o.kind.xclass then 0 else o.handle)).terminate o.wg).dropEng op o

/-- A copy fault (R98): inside a region the group is rolled back and the operation completes as CANCELLED; outside, it is fatal. The
consumption of an uncorrectable error, SUB 8, counts among the rollbacks of R313 and is limited as these are, with site 1 (R312,
R315). A PFD is dropped (R239). -/
def State.copyFault (s : State) (op k : Nat) (o : EngOp) (sub : Nat) (va : Dword) : State :=
  if o.kind = .pfd then
    s.modEng op (fun y => { y with cancelled := true, issued := y.issued.filter (fun i => i != k) })
  else if (s.group o.g).region.isSome && (s.group o.g).status = .live then
    (if sub = 8 then s.rollbackOr o.g 1 (fun t => t.copyFatal op o sub va) else s.rollback o.g).dropEng op o
  else s.copyFatal op o sub va

/-- Whether a fill's line leads from DRAM of the issuing die to its tier (R239). -/
def fillOk (d : Nat) (src dst : Target) : Bool :=
  match src, dst with
  | .memory p _ _ _, .memory q _ _ _ => paKind p = 0 && paDie p = d && paKind q = 1 && paDie q = d
  | _, _ => false

/-- An element is checked, and performed, parked or faulted (R98, R238). One whose source line is empty waits (R104). -/
def State.runElement (s : State) (op k : Nat) (o : EngOp) (e : Element) : State :=
  match s.elementEnd o e with
  | some (.park c va) => s.park op o c va
  | some (.fault sub va) => s.copyFault op k o sub va
  | none =>
    match s.sides o e with
    | [a, b] =>
      match a.tgt.loc?, b.tgt.loc? with
      | some src, some dst =>
        if o.kind = .pfd && !fillOk (dieOfCore (s.engCore o)) a.tgt b.tgt then s.copyFault op k o 1 e.src
        else if s.emptyLine [⟨none, e.src, a.tgt⟩] then s
        else if s.poisoned src e.unit || s.poisonedTag o k e src dst then s.copyFault op k o 8 e.src
        else s.performElement op k o e a b src dst
      | _, _ => s
    | _ => s

/-- Element `k` of operation `o`, unless it is performed, held back, cancelled, or of a workgroup that is saved (R238, R298). A
PFD's lines are those that its die has issued (R240). -/
def State.engineElement (s : State) (op k : Nat) (o : EngOp) : State :=
  let due := if o.kind = .pfd then o.issued.contains k else !o.cancelled
  if o.parkSeq.isSome || !due || o.performed.contains k || (s.wg o.wg).state = .saved then s
  else match o.element k with
    | none => s
    | some e => s.runElement op k o e

/-- ENGINE_COMPLETION (R234, R241): an operation with every element performed is DONE; a cancelled one, CANCELLED once none of
its elements is in flight. -/
def execEngineCompletion (op : Nat) (s : State) : Out :=
  .next (match Fmap.find s.engs op with
    | none => s
    | some o =>
      if o.kind.xclass then s
      else if o.cancelled then (if o.issued.isEmpty then s.endEng op o 1 else s)
      else if o.left.isEmpty then s.endEng op o 0 else s)

/-- The parked operation of context `k` with a sequence number goes on (R95, R97); a number that names none is ignored. An
operation of a saved workgroup performs its elements once the workgroup is restored. -/
def State.resumeParked (s : State) (k : Nat) (v : Word) : State :=
  { s with
    engs := Fmap.mapVals (fun _ (o : EngOp) =>
      if s.engCtx o = k && o.parkSeq = some v.toNat then { o with parkSeq := none } else o) s.engs }

/-- CXM_RESUME (R95). -/
def execCxmResume (k : Nat) (v : Word) (s : State) : Out := .next (s.resumeParked k v)

/-! ### Issue -/

/-- Uncompleted engine operations of group `g` (R234). -/
def State.heldBy (s : State) (g : Nat) : Nat := (s.engs.filter (fun p => !p.2.kind.xclass && p.2.g = g)).length

/-- The uncompleted engine operations that core `c` holds: those of a saved workgroup are on no core (R234, R298). -/
def State.engsOn (s : State) (c : Nat) : Fmap EngOp :=
  s.engs.filter (fun p => !p.2.kind.xclass && s.engCore p.2 = c && (s.wg p.2.wg).state != .saved)
def State.heldOn (s : State) (c : Nat) : Nat := (s.engsOn c).length

/-- A handle number outside `used` (R234, log 8). -/
def State.pickHandle (s : State) (used : List Nat) : Nat :=
  (((List.range 4096).map (fun i => (Config.handlePick s.free + i) % 4096)).find? (fun h => !used.contains h)).getD 0

/-- A handle number that no uncompleted operation of core `c` has (R234). -/
def State.freshHandle (s : State) (c : Nat) : Nat := s.pickHandle ((s.engsOn c).map (·.2.handle))

/-- The handle word of an uncompleted operation (R234). -/
def handleWord (h : Nat) : Word := BitVec.ofNat 32 (2147483648 + h)

/-- The scratchpad line of a byte that an operation of workgroup `k` has as a destination, and whose state it changes (R104): for
a transfer, one of the own window only (R249). -/
def State.lineOf (s : State) (k : Nat) (xclass : Bool) (va : Dword) : Option Nat :=
  let line : Option Nat := match s.target k va .engineWrite with
    | .spad loc _ => some (loc / 128)
    | _ => none
  match regionOf va with
  | .own _ => line
  | .peer _ _ => if xclass then none else line
  | _ => none

/-- The lines of an element: one, or two where it is misaligned and so will be a copy fault. -/
def State.linesUnder (s : State) (k : Nat) (xclass : Bool) (e : Element) : List Nat :=
  distinct ([e.dst, e.dst + BitVec.ofNat 64 (e.unit - 1)].filterMap (s.lineOf k xclass))

/-- The destination lines of an operation, each with the number of its elements there. -/
def State.linesOf (s : State) (k : Nat) (o : EngOp) : Fmap Nat :=
  (o.indices.filterMap o.element).foldl (fun m e =>
    (s.linesUnder k o.kind.xclass e).foldl (fun m l => Fmap.insert m l (Fmap.get 0 m l + 1)) m) []

/-- Whether one more count fits on every line (R104). -/
def State.linesFit (s : State) (m : Fmap Nat) : Bool := (Fmap.keys m).all (fun l => (s.lineAt (128 * l)).count < 15)

/-- The counts of an operation taken and the lines made empty (R104). -/
def State.takeLines (s : State) (m : Fmap Nat) : State :=
  (Fmap.keys m).foldl (fun s l =>
    s.setLine (128 * l) { s.lineAt (128 * l) with count := (s.lineAt (128 * l)).count + 1, full := false }) s

/-- An operation of the issuing group before it has a handle. -/
def newOp (kind : EngKind) (g k : Nat) (runs : List Run) : EngOp :=
  { kind := kind, g := g, wg := k, handle := 0, runs := runs, performed := [], lines := [], wrote := []
    parkSeq := none, cancelled := false, deadline := 0, issued := [] }

/-- An engine operation issued (R234): limits and line counts stall, then the handle is written to sD, which becomes bound. -/
def launchEng (s : State) (d : BitVec 6) (o : EngOp) : Body :=
  let m := s.linesOf o.wg o
  if 64 ≤ s.heldBy s.cur || 4096 ≤ s.heldOn s.myCore || !s.linesFit m then .stall s .limit
  else
    withRoom s 0 1
      (let h := s.freshHandle s.myCore
       let t := (s.drawn.takeLines m).putFuture s.cur d.toNat (handleWord h) s.nextId
       let t := { t with engs := Fmap.insert t.engs s.nextId { o with handle := h, lines := m }, nextId := s.nextId + 1 }
       andNext t)

/-- A copy under a zero execute mask (R236): DONE to sD with no binding. -/
def emptyCopy (s : State) (d : BitVec 6) : Body := withRoom s 0 1 (andNext (s.putS s.cur d.toNat 0))

/-- Checks 5 and 6 of R220 on a scalar address at issue. -/
def State.scalarCheck (s : State) (align : Nat) (va : Dword) : Option Body :=
  if va.toNat % align != 0 then some (.trap { trap := .misaligned, addr := va })
  else match s.target s.me.wg va .engineRead with
    | .range => some (.trap { trap := .scratchRange, addr := va })
    | .exited => some (.trap { trap := .peerExited, addr := va })
    | _ => none

/-- The checks of scalar addresses, each over all of them before the next. -/
def State.scalarChecks (s : State) (align : Nat) (vas : List Dword) : Option Body :=
  match vas.find? (fun va => va.toNat % align != 0) with
  | some va => s.scalarCheck align va
  | none => vas.findSome? (s.scalarCheck align)

/-- CPY (R236). -/
def cpyBody (f : FmtCpy) (s : State) : Body :=
  let x := s.me
  let m := x.execMask f.p.toNat
  if m = 0 then emptyCopy s f.d
  else
    let run := fun l => (⟨l, l, 1, 4 * 2 ^ f.z.toNat, x.readV2 f.a.toNat l, x.readV2 f.b.toNat l⟩ : Run)
    launchEng s f.d (newOp .cpy s.cur x.wg ((lanesOf m).map run))

/-- CPY (R236). -/
def execCpy (f : FmtCpy) (s : State) : Out := issue (Instr.info (.cpy f)) (cpyBody f) s

/-- The descriptor group of GATH and SCAT (R237). -/
structure RowCopy where
  t : Dword
  p : Dword
  rb : Nat
  pitch : Nat
deriving DecidableEq, Repr

/-- The descriptor group that starts at `a` (R237). -/
def Group.rowCopy (x : Group) (a : Nat) : RowCopy := ⟨x.readS2 a, x.readS2 (a + 2), (x.readS (a + 4)).toNat, (x.readS (a + 5)).toNat⟩

/-- The constraints of R237. -/
def RowCopy.ok (r : RowCopy) : Bool :=
  r.t.toNat % 4 = 0 && r.p.toNat % 4 = 0 && r.rb % 4 = 0 && 4 ≤ r.rb && r.rb ≤ 65536 && r.pitch % 4 = 0

/-- GATH and SCAT (R237): `out` for SCAT. -/
def rowBody (out : Bool) (f : FmtGath) (s : State) : Body :=
  let x := s.me
  let m := x.execMask f.p.toNat
  let r := x.rowCopy f.a.toNat
  if !r.ok then .trap { trap := .engineOperand }
  else if m = 0 then emptyCopy s f.d
  else match s.scalarChecks 4 [r.t, r.p] with
    | some b => b
    | none =>
      let run := fun l =>
        let row := r.t + BitVec.ofNat 64 ((x.srcV f.b.toNat l).toNat * r.pitch)
        let pack := r.p + BitVec.ofNat 64 (l * r.rb)
        (⟨l, l * (r.rb / 4), r.rb / 4, 4, if out then row else pack, if out then pack else row⟩ : Run)
      launchEng s f.d (newOp (if out then .scat else .gath) s.cur x.wg ((lanesOf m).map run))

/-- GATH (R237). -/
def execGath (f : FmtGath) (s : State) : Out := issue (Instr.info (.gath f)) (rowBody false f) s

/-- SCAT (R237). -/
def execScat (f : FmtGath) (s : State) : Out := issue (Instr.info (.scat f)) (rowBody true f) s

/-- PFD (R239). -/
def pfdBody (f : FmtDab) (s : State) : Body :=
  let x := s.me
  let src := x.readS2 f.a.toNat
  let dst := x.readS2 f.b.toNat
  let w := (x.readS f.d.toNat).toNat
  if w / 1048576 = 0 || src.toNat % 128 != 0 || dst.toNat % 128 != 0 then .trap { trap := .engineOperand }
  else match s.scalarChecks 128 [src, dst] with
    | some b => b
    | none =>
      launchEng s f.d { newOp .pfd s.cur x.wg [⟨0, 0, w / 1048576, 128, dst, src⟩] with
        deadline := (s.die s.myDie).ck.toNat + 16 * (w % 1048576) }

/-- PFD (R239). -/
def execPfd (f : FmtDab) (s : State) : Out := issue (Instr.info (.pfd f)) (pfdBody f) s

/-! ### Futures (R235, R241) -/

/-- The operation that the source name of a futures instruction is bound to; a latch is bound to none. -/
def Group.boundTo (x : Group) (a : BitVec 6) : Option Nat := if a.toNat < 60 then x.futOf a.toNat else none

/-- FWAIT (R241): an ordinary read of sA, written to sD. -/
def execFwait (f : FmtDa) (s : State) : Out :=
  issue (Instr.info (.fwait f)) (fun s =>
    withRoom s 0 1 (andNext (s.putS s.cur f.d.toNat (s.me.srcS f.a.toNat)))) s

/-- FTEST (R241): 2 while the operation is pending; else as FWAIT, and sA holds the completion word, unbound. -/
def execFtest (f : FmtDa) (s : State) : Out :=
  issue (Instr.info (.ftest f)) (fun s =>
    let pending := match s.me.boundTo f.a with | some op => (Fmap.find s.done op).isNone | none => false
    withRoom s 0 1
      (if pending then andNext (s.putS s.cur f.d.toNat 2)
       else
         let t := if f.a.toNat < 60 then s.modGroup s.cur (fun x => x.resolve s.done f.a.toNat) else s
         andNext (t.putS s.cur f.d.toNat (t.me.srcS f.a.toNat)))) s

/-- Cancellation of operation `op` (R241): no further element is issued; a parked operation completes at once. -/
def State.cancelEng (s : State) (op : Nat) : State :=
  match Fmap.find s.engs op with
  | none => s
  | some o =>
    if o.left.isEmpty then s
    else if o.parkSeq.isSome then s.endEng op o 1
    else s.modEng op (fun y => { y with cancelled := true })

/-- FCANCEL (R241). -/
def execFcancel (f : FmtA) (s : State) : Out :=
  issue (Instr.info (.fcancel f)) (fun s =>
    andNext (match s.me.boundTo f.a with | some op => s.cancelEng op | none => s)) s

/-- A name no longer bound, with its word kept (R241). -/
def Group.unbind (x : Group) (n : Nat) : Group := { x with s := Fmap.adjust x.s n (fun e => { e with fut := none }) }

/-- FPASS (R241): the handle and the binding go from sA to sD; where the two are one name, it ends up bound (DESIGN CHOICE,
log 101). -/
def execFpass (f : FmtDa) (s : State) : Out :=
  issue (Instr.info (.fpass f)) (fun s =>
    withRoom s 0 1
      (match s.me.boundTo f.a with
       | some op =>
         let w := s.me.readS f.a.toNat
         andNext ((s.modGroup s.cur (fun x => x.unbind f.a.toNat)).putFuture s.cur f.d.toNat w op)
       | none => andNext (s.putS s.cur f.d.toNat (s.me.srcS f.a.toNat)))) s

/-! ### The PFD schedule (R240) -/

/-- The fills of a die, in the order of their issue. -/
def State.fills (s : State) (d : Nat) : List (Nat × EngOp) :=
  s.engs.filter (fun p => p.2.kind = .pfd && dieOfCore (s.engCore p.2) = d)

/-- The lines of a fill that are not issued. -/
def EngOp.unissued (o : EngOp) : List Nat := o.left.filter (fun k => !o.issued.contains k)

/-- The fills that can no longer meet their deadline are cancelled (R240). -/
def State.cancelLate (s : State) (d : Nat) : State :=
  let ck := (s.die d).ck.toNat
  (s.fills d).foldl (fun s p =>
    if !p.2.left.isEmpty && p.2.deadline < ck + 4 * p.2.unissued.length then s.modEng p.1 (fun y => { y with cancelled := true })
    else s) s

/-- The fill with the earliest deadline, the earlier issue first among equals. -/
def earliest (l : List (Nat × EngOp)) : Option (Nat × EngOp) :=
  l.foldl (fun b p => match b with
    | none => some p
    | some q => if p.2.deadline < q.2.deadline then some p else some q) none

/-- Whether a context has budget left in a die's window; 0 means no limit (R240). -/
def State.budgetLeft (s : State) (d k : Nat) : Bool :=
  let b := (s.ctx k).pfd.toNat % 65536
  b = 0 || Fmap.get 0 (s.die d).pfdUsed k < b

/-- A window of 1,024 local cycles that has ended gives way to the next one, and every budget renews (R240). Windows begin at the
multiples of 1,024 of ck.local (DESIGN CHOICE, log 109). -/
def State.windowNow (s : State) (d : Nat) : State :=
  let x := s.die d
  if x.pfdWindow + 1024 ≤ x.ck.toNat then s.setDie d { x with pfdUsed := [], pfdWindow := x.ck.toNat / 1024 * 1024 } else s

/-- PFD_LINE_ISSUE (R240): late fills are cancelled, and the next line of the earliest-deadline fill with budget in the window of
this local cycle is issued. -/
def execPfdLineIssue (d : Nat) (s : State) : Out :=
  let s := (s.windowNow d).cancelLate d
  .next (match earliest ((s.fills d).filter (fun p =>
      !p.2.cancelled && !p.2.unissued.isEmpty && s.budgetLeft d (s.engCtx p.2))) with
    | none => s
    | some p =>
      let k := s.engCtx p.2
      let t := s.modEng p.1 (fun y => { y with issued := y.issued ++ (p.2.unissued.take 1) })
      let x := t.die d
      t.setDie d { x with pfdUsed := Fmap.insert x.pfdUsed k (Fmap.get 0 x.pfdUsed k + 1) })

/-- PFD_BUDGET_WINDOW (R240). -/
def execPfdBudgetWindow (d : Nat) (s : State) : Out := .next (s.windowNow d)

end Sys2Proof.Machine
end

