-- ==== Sys2Proof/Machine/Rcu.lean ====
section
/-! DEFINITION. Read-copy-update (R123, R124, R243 to R248): PUB, RETIRE, and the block pools. -/

namespace Sys2Proof.Machine

/-! ### PUB (R243) -/

/-- A write that every core of the issuing die sees at once: it updates the L1 lines of all of them that it hits (R123). -/
def State.showDie (s : State) (t : Target) (bs : List Byte) : State :=
  match t with
  | .memory pa _ _ _ => ((List.range 12).map (12 * s.myDie + ·)).foldl (fun s c => s.updateL1 c pa bs) s
  | _ => s

/-- A value published at a target: a root slot is written in the writer's die's copy and marked dirty (R108); any other
location as a store at package scope that its die sees at once (R123). -/
def State.publish (s : State) (u : Use) (h : Hit) (x : Dword) : State :=
  match h.tgt with
  | .slot j => (s.storeCells (cellsOf (slotLoc s.myDie j) (leBytes 8 x.toNat))).markSlot s.myCore s.myCtx h.va j
  | _ => (s.storeHit u h (leBytes 8 x.toNat)).showDie h.tgt (leBytes 8 x.toNat)

/-- PUB (R243): a release at package scope, then the write, which still belongs to the interval before the release (DESIGN
CHOICE, log 93). -/
def pubBody (f : FmtAb) (s : State) : Body :=
  let u : Use := { size := 8, align := 8, acc := .store, slotOk := true, scope := 4 }
  match s.checked u [⟨none, s.me.readS2 f.a.toNat⟩] with
  | .error e => e
  | .ok hs =>
    if s.releaseWaits 4 then .stall s .order
    else
      let x := s.me.readS2 f.b.toNat
      andNext (((hs.foldl (fun s h => s.publish u h x) (s.logRaces u hs)).addStores hs).released)

/-- PUB (R243). -/
def execPub (f : FmtAb) (s : State) : Out := issue (Instr.info (.pub f)) (pubBody f) s

/-! ### Block pools (R247) -/

/-- The number of pool `p` of context `k` among a die's pools. -/
def poolKey (k p : Nat) : Nat := 16 * k + p

/-- Pool `p` of context `k` on die `d`. -/
def State.pool (s : State) (d k p : Nat) : Pool := Fmap.get Pool.reset (s.die d).pools (poolKey k p)

/-- The state with that pool as `v`. -/
def State.setPool (s : State) (d k p : Nat) (v : Pool) : State :=
  s.setDie d { s.die d with pools := Fmap.insert (s.die d).pools (poolKey k p) v }

/-- The fields of a pool's registers (R247). -/
def Pool.baseVa (x : Pool) : Dword := BitVec.ofNat 64 (x.base.toNat / 64 % 18014398509481984 * 64)
def Pool.count (x : Pool) : Nat := x.cfg.toNat / 4294967296
def Pool.bytes (x : Pool) : Nat := 64 * (x.cfg.toNat / 64 % 67108864)

/-- A pool is configured when BASE, COUNT and BSIZE are all non-zero (R247). -/
def Pool.configured (x : Pool) : Bool := x.baseVa != 0 && x.count != 0 && x.bytes != 0

/-- The address of block `j` (R247). -/
def Pool.blockVa (x : Pool) (j : Nat) : Dword := x.baseVa + BitVec.ofNat 64 (x.bytes * j)

/-- POOL_FREE.FREE (R247). -/
def Pool.freeCount (x : Pool) : Nat := x.stack.length + (x.count - x.next)

/-- The allocated block that starts at an address (R244, R248). -/
def Pool.allocatedAt (x : Pool) (va : Dword) : Option Nat :=
  let off := (va - x.baseVa).toNat
  if x.bytes = 0 || off % x.bytes != 0 then none
  else
    let j := off / x.bytes
    if j < x.next && !x.stack.contains j then some j else none

/-- The top of the free stack taken (R248). -/
def Pool.pop (x : Pool) : Option (Nat × Pool) :=
  match x.stack with
  | j :: t => some (j, { x with stack := t })
  | [] => if x.next < x.count then some (x.next, { x with next := x.next + 1 }) else none

/-- Block `j` freed and pushed (R248). -/
def Pool.push (x : Pool) (j : Nat) : Pool :=
  { x with stack := j :: x.stack, freed := Fmap.insert x.freed j (Fmap.get 0 x.freed j + 1) }

/-- A pool reinitialised with a new POOL_CFG value (R247): every block is free, block 0 on top. -/
def Pool.init (x : Pool) (v : Dword) : Pool :=
  { x with cfg := BitVec.ofNat 64 (v.toNat / 64 * 64), stack := [], next := 0, freed := [] }

/-- Whether a pool is in use, so that a write to POOL_CFG is ignored (R247): a resident workgroup of the context on the die,
or a retire entry that names the pool. -/
def State.poolBusy (s : State) (d k p : Nat) : Bool :=
  s.wgs.any (fun w => w.2.ctx = k && dieOfCore w.2.core = d && w.2.state.onCore) ||
    (s.die d).retireQ.any (fun e => e.ctx = k && e.kind = 0 && e.arg = p)

/-- A write to POOL_CFG (R247): ignored while the pool is in use. -/
def State.writePoolCfg (s : State) (d k p : Nat) (v : Dword) : State :=
  if s.poolBusy d k p then s else s.setPool d k p ((s.pool d k p).init v)

/-- POOL_CFG (R247). -/
def execPoolCfg (d k p : Nat) (v : Dword) (s : State) : Out := .next (s.writePoolCfg d k p v)

/-- The pool that a register names, if its upper bits are zero and the pool is configured (R248). -/
def State.poolNamed (s : State) (x : Word) : Option Nat :=
  if x.toNat < 16 && (s.pool s.myDie s.myCtx x.toNat).configured then some x.toNat else none

/-- POOLA (R248): the block that it returns was released by the POOLF or POOL action that freed it, and POOLA acquires it at
die scope. -/
def poolaBody (f : FmtDa) (s : State) : Body :=
  match s.poolNamed (s.me.srcS f.a.toNat) with
  | none => .trap { trap := .rcuOperand }
  | some p =>
    withRoom s 0 2
      (let x := s.pool s.myDie s.myCtx p
       match x.pop with
       | none => andNext (s.putS2 s.cur f.d.toNat 0)
       | some (j, y) => andNext (((s.setPool s.myDie s.myCtx p y).acquire 3).putS2 s.cur f.d.toNat (x.blockVa j)))

/-- POOLA (R248). -/
def execPoola (f : FmtDa) (s : State) : Out := issue (Instr.info (.poola f)) (poolaBody f) s

/-- POOLF (R248): a release at die scope. -/
def poolfBody (f : FmtAb) (s : State) : Body :=
  match s.poolNamed (s.me.srcS f.b.toNat) with
  | none => .trap { trap := .rcuOperand }
  | some p =>
    let x := s.pool s.myDie s.myCtx p
    match x.allocatedAt (s.me.readS2 f.a.toNat) with
    | none => .trap { trap := .rcuOperand }
    | some j =>
      if s.releaseWaits 3 then .stall s .order
      else andNext ((s.setPool s.myDie s.myCtx p (x.push j)).released)

/-- POOLF (R248). -/
def execPoolf (f : FmtAb) (s : State) : Out := issue (Instr.info (.poolf f)) (poolfBody f) s

/-! ### RETIRE (R244) -/

/-- Whether an action word is legal (R244). -/
def actionOk (w : Nat) : Bool :=
  let kind := w / 268435456
  let arg := w % 65536
  kind < 3 && w / 65536 % 4096 = 0 && (kind != 0 || arg < 16) && (kind != 2 || arg < 16384)

/-- How often the block of a POOL action has been freed; none when its pointer starts no allocated block (R244). -/
def State.retireMark (s : State) (ptr : Dword) (w : Nat) : Option Nat :=
  if w / 268435456 != 0 then some 0
  else
    let x := s.pool s.myDie s.myCtx (w % 65536)
    (x.allocatedAt ptr).map (Fmap.get 0 x.freed)

/-- Entries of a retire queue (R124). -/
def retireCapacity : Nat := 65536

/-- RETIRE (R244). An entry that is queued needs a boundary before it is eligible, and so asks for one (R40). -/
def retireBody (f : FmtDab) (s : State) : Body :=
  let x := s.me
  let ptr := x.readS2 f.a.toNat
  let w := (x.readS (f.b.toNat + 1)).toNat
  if !actionOk w then .trap { trap := .rcuOperand }
  else match s.retireMark ptr w with
    | none => .trap { trap := .rcuOperand }
    | some n =>
      withRoom s 0 1
        (let d := s.die s.myDie
         if retireCapacity ≤ d.retireQ.length then andNext (s.putS s.cur f.d.toNat 1)
         else
           let e : Retire :=
             ⟨s.myCtx, ptr, x.readS f.b.toNat, w / 268435456, w % 65536, (s.core s.myCore).ph.toNat, n⟩
           andNext (((s.setDie s.myDie { d with retireQ := d.retireQ ++ [e] }).request .boundary).putS s.cur f.d.toNat 0))

/-- RETIRE (R244). -/
def execRetire (f : FmtDab) (s : State) : Out := issue (Instr.info (.retire f)) (retireBody f) s

end Sys2Proof.Machine
end

