-- ==== Sys2Proof/Machine/Xfer.lean ====
section
/-! DEFINITION. Exchange transfers and collectives (R249 to R253, R318, R321): XPUT, XGET, COLL and CABORT, the elements and
completions of transfers, and the arrival and completion of collective instances. -/

namespace Sys2Proof.Machine

/-! ### Exchange slots (R144, R154) -/

/-- The slot that an XFR names, in the table as read at launch (R154). -/
def State.slot (s : State) (k : BitVec 6) : Option XSlot := s.myWg.kern.slots[k.toNat]?

/-- The instruction `n` with a slot whose kind meets `p` as a condition of its encoding (R144, R146). -/
def Info.withSlot (n : Info) (s : State) (k : BitVec 6) (p : XSlot → Bool) : Info :=
  { n with legal := fun i => n.legal i && (match s.slot k with | some x => p x | none => false) }

/-- The TYPE codes of collectives (R250). -/
def collTypeOk (t : Nat) : Bool := t ≤ 2 || (11 ≤ t && t ≤ 14)

/-- Whether a slot is one of a collective (R154). -/
def XSlot.collective (x : XSlot) : Bool := 2 ≤ x.kind && x.kind ≤ 6

/-! ### Transfers (R249) -/

/-- XPUT and XGET (R249). -/
def xferBody (kind : EngKind) (f : FmtX) (s : State) : Body :=
  let x := s.me
  let dst := x.readS2 f.a.toNat
  let src := x.readS2 f.b.toNat
  let n := (x.srcS f.c.toNat).toNat
  let bound := match s.slot f.s with | some e => e.max | none => 0
  if bound < n || n % 4 != 0 then .trap { trap := .xferBound }
  else match s.scalarChecks 4 [dst, src] with
    | some b => b
    | none =>
      if n = 0 then andNext s
      else
        let o := newOp kind s.cur x.wg [⟨0, 0, n / 4, 4, dst, src⟩]
        let m := s.linesOf x.wg o
        if !s.linesFit m then .stall s .limit
        else
          let t := s.takeLines m
          andNext { t with engs := Fmap.insert t.engs t.nextId { o with lines := m }, nextId := t.nextId + 1 }

/-- XPUT (R249). -/
def execXput (f : FmtX) (s : State) : Out :=
  issue ((Instr.info (.xput f)).withSlot s f.s (fun x => x.kind = 0)) (xferBody .xput f) s

/-- XGET (R249). -/
def execXget (f : FmtX) (s : State) : Out :=
  issue ((Instr.info (.xget f)).withSlot s f.s (fun x => x.kind = 1)) (xferBody .xget f) s

/-- XFER_COMPLETION (R249): a transfer whose every element is performed is complete. -/
def execXferCompletion (op : Nat) (s : State) : Out :=
  .next (match Fmap.find s.engs op with
    | none => s
    | some o => if o.kind.xclass && o.left.isEmpty then s.endEng op o 0 else s)

/-! ### Contributions (R250, R252) -/

/-- NPART and FSET of a context (R250). NPART keeps 257 to 511 as written, and an instance of so many ranks, which a RANK of 8 bits
cannot name, never completes (DESIGN CHOICE, log 111). -/
def Ctx.npart (c : Ctx) : Nat := c.coll.toNat % 512
def Ctx.fset (c : Ctx) : Nat := c.coll.toNat / 16777216

/-- The attempt of a slot of a context (R250). -/
def Ctx.attempt (c : Ctx) (k : Nat) : BitVec 16 := Fmap.get 0 c.att k

/-- The COUNT rule of a slot's kind (R251). -/
def XSlot.countOk (x : XSlot) (n npart : Nat) : Bool :=
  match x.kind with
  | 2 => n % (typeBits x.type / 8) = 0
  | 5 => n % (4 * npart) = 0
  | 6 => n = 0
  | _ => n % 4 = 0

/-- The instance that the next COLL of a rank on a slot belongs to, from 1 in each attempt (R250, R321). -/
def Ctx.nextInstance (c : Ctx) (slot rank : Nat) : Nat := Fmap.get 0 c.collCount (256 * slot + rank) + 1

/-- COLL (R250). -/
def collBody (f : FmtX) (s : State) : Body :=
  let x := s.me
  let dst := x.readS2 f.a.toNat
  let src := x.readS2 f.b.toNat
  let w := (x.srcS f.c.toNat).toNat
  let rank := w / 16777216
  let n := w % 16777216
  let c := s.ctx s.myCtx
  let e := (s.slot f.s).getD ⟨0, 0, 0, 0⟩
  if c.npart = 0 || c.npart ≤ rank || e.max < n || !e.countOk n c.npart then .trap { trap := .xferBound }
  else match s.scalarChecks 4 [dst, src] with
    | some b => b
    | none =>
      let k := f.s.toNat
      let inst := c.nextInstance k rank
      let p : Contribution :=
        { id := s.nextId, ctx := s.myCtx, fset := c.fset, slot := k, attempt := c.attempt k, inst := inst, rank := rank, count := n
          data := none, here := some ⟨s.cur, x.wg, src, dst, c.npart, e⟩ }
      let t := s.setCtx s.myCtx { c with collCount := Fmap.insert c.collCount (256 * k + rank) inst }
      andNext { t with colls := t.colls ++ [p], nextId := t.nextId + 1 }

/-- COLL (R250). -/
def execColl (f : FmtX) (s : State) : Out :=
  issue ((Instr.info (.coll f)).withSlot s f.s (fun x => x.collective && collTypeOk x.type)) (collBody f) s

/-- CABORT (R252): the slot's attempt goes up, its instance counts restart (R321), and the package's contributions of the
older attempt end. -/
def cabortBody (f : FmtCabort) (s : State) : Body :=
  let k := s.myCtx
  let c := s.ctx k
  let j := f.s.toNat
  let t := s.setCtx k { c with att := Fmap.insert c.att j (c.attempt j + 1)
                               collCount := Fmap.select c.collCount (fun i _ => i / 256 != j) }
  andNext { t with colls := t.colls.filter (fun p => !(p.ctx = k && p.slot = j && p.attempt = c.attempt j)) }

/-- CABORT (R252). -/
def execCabort (f : FmtCabort) (s : State) : Out :=
  issue ((Instr.info (.cabort f)).withSlot s f.s XSlot.collective) (cabortBody f) s

/-! ### Sending a contribution -/

/-- The elements of `n` bytes: words, or halves where a sum of 16-bit values ends in one. -/
def collElements (n : Nat) : List (Nat × Nat) :=
  (List.range (n / 4)).map (fun i => (4 * i, 4)) ++ (if n % 4 = 0 then [] else [(n / 4 * 4, n % 4)])

/-- A copy fault of a participant (R98, R311): its workgroup is terminated. -/
def State.collFault (s : State) (l : Local) (e : ElementEnd) : State :=
  match e with
  | .fault sub va => (s.recordG l.g 5 sub 3 va.toNat 0).terminate l.wg
  | .park _ va => (s.recordG l.g 5 1 3 va.toNat 0).terminate l.wg

/-- One side of an element of a participant. -/
def State.collSide (s : State) (l : Local) (write : Bool) (va : Dword) : Side :=
  ⟨write, va, s.target l.wg va (if write then .engineWrite else .engineRead)⟩

/-- The source bytes of a contribution read and sent (R249, R250): each element is home and legal; one that meets an empty
line waits (R104). -/
def State.sendContribution (s : State) (c : Contribution) (l : Local) : State :=
  let es := (collElements c.count).map (fun p => (p.2, s.collSide l false (l.src + BitVec.ofNat 64 p.1)))
  let core := (s.wg l.wg).core
  match es.findSome? (fun p => s.sidesEnd .xput core p.1 [p.2]) with
  | some e => s.collFault l e
  | none =>
    if s.emptyLine (es.map (fun p => ⟨none, p.2.va, p.2.tgt⟩)) then s
    else
      match es.find? (fun p => match p.2.tgt.loc? with | some loc => s.poisoned loc p.1 | none => false) with
      | some p => s.collFault l (.fault 8 p.2.va)
      | none =>
        let bs := es.flatMap (fun p => match p.2.tgt.loc? with | some loc => s.bytesAt loc p.1 | none => [])
        let t := es.foldl (fun t p => (t.logElement l.g p.2 p.1).touchTarget c.ctx p.2.tgt) s
        { t with colls := t.colls.filter (fun d => d.id != c.id) ++ [{ c with data := some bs }] }

/-- ENGINE_ELEMENT (R238): element `k` of operation `op`; for a contribution to a collective, the reading of its source. -/
def execEngineElement (op k : Nat) (s : State) : Out :=
  .next (match Fmap.find s.engs op with
    | some o => s.engineElement op k o
    | none =>
      match s.colls.find? (fun c => c.id = op && c.data.isNone) with
      | some c => (match c.here with | some l => s.sendContribution c l | none => s)
      | none => s)

/-- Whether context `k` takes part in fabric set `f`: by its CXM_COLL, or by a COLL issued under an earlier value of it
(R250). -/
def State.inFset (s : State) (k : Nat) (x : Ctx) (f : Nat) : Bool :=
  x.fset = f || s.colls.any (fun c => c.ctx = k && c.here.isSome && c.fset = f)

/-- COLLECTIVE_INGRESS (R279, R321): a packet of a peer that takes part in the fabric set joins the instance of every context
of that set, unless its attempt is older than the slot's; one of a later attempt is held until the slot reaches it. -/
def execCollectiveIngress (pkt : CollPacket) (s : State) : Out :=
  let allowed := s.acl.any (fun p =>
    let e := p.2.toNat
    e % 2 = 1 && e / 4 % 2 = 1 && e / 281474976710656 = pkt.peer.toNat && e / 1099511627776 % 256 = pkt.fset.toNat)
  let j := pkt.slot.toNat
  let ctxs := s.ctxs.filter (fun p =>
    p.2.state != .free && s.inFset p.1 p.2 pkt.fset.toNat && (p.2.attempt j - pkt.attempt = 0 || 32768 ≤ (p.2.attempt j - pkt.attempt).toNat))
  .next (if !allowed then s
    else
      { s with
        colls := s.colls ++ ctxs.map (fun p =>
          { id := s.nextId, ctx := p.1, fset := pkt.fset.toNat, slot := j, attempt := pkt.attempt, inst := pkt.inst, rank := pkt.rank.toNat
            count := pkt.data.length, data := some pkt.data, here := none })
        nextId := s.nextId + 1 })

/-! ### Completion of an instance (R250, R251) -/

/-- Whether two contributions belong to one instance. -/
def Contribution.same (a b : Contribution) : Bool :=
  a.ctx = b.ctx && a.fset = b.fset && a.slot = b.slot && a.attempt = b.attempt && a.inst = b.inst

/-- Two elements combined by OP of a slot in its TYPE (R83, R251): sum, max or min, with RNE and no flags. OP codes 3 to 255,
to which R154 gives no meaning, act as min (DESIGN CHOICE, log 84). -/
def combineOp (type op a b : Nat) : Nat :=
  let n := typeBits type
  let fl := fun (f : FFmt) =>
    (match op with | 0 => f.add 0 a b | 1 => f.minmax true a b | _ => f.minmax false a b).1
  let int := fun (v : Nat → Int) =>
    match op with
    | 0 => (a + b) % 2 ^ n
    | 1 => if v a < v b then b else a
    | _ => if v b < v a then b else a
  match type with
  | 0 => fl fp32
  | 1 => fl fp16
  | 2 => fl bf16
  | 11 => int (signedOf 32)
  | 13 => int (signedOf 64)
  | _ => int (fun x => (x : Int))

/-- Bytes as numbers of `n` bytes each. -/
def numbers (n : Nat) (bs : List Byte) (count : Nat) : List Nat :=
  (List.range count).map (fun i => leNat ((bs.drop (n * i)).take n))

/-- An element of a TYPE with a NaN made canonical (R251). -/
def canonElement (type a : Nat) : Nat :=
  let nan := fun (f : FFmt) => if (f.decode a).isNan then f.nanCode else a
  match type with
  | 0 => nan fp32
  | 1 => nan fp16
  | 2 => nan bf16
  | _ => a

/-- allreduce over the contributions in order of arrival. -/
def reduceAll (x : XSlot) (count : Nat) (ds : List (List Byte)) : List Byte :=
  let n := typeBits x.type / 8
  let vs := ds.map (fun d => numbers n d (count / n))
  match vs with
  | [] => []
  | v :: rest => (rest.foldl (fun a b => a.zipWith (combineOp x.type x.op) b) (v.map (canonElement x.type))).flatMap (leBytes n)

/-- What a participant receives (R251). -/
def collResult (l : Local) (rank count : Nat) (ms : List Contribution) : List Byte :=
  let dataOf := fun r => ((ms.find? (fun c => c.rank = r)).bind (·.data)).getD []
  match l.slot.kind with
  | 2 => reduceAll l.slot count (ms.map (fun c => c.data.getD []))
  | 3 => (List.range l.npart).flatMap dataOf
  | 4 => dataOf 0
  | 5 => (List.range l.npart).flatMap (fun r => ((dataOf r).drop (rank * (count / l.npart))).take (count / l.npart))
  | _ => []

/-- One element of a result written for a participant. -/
def State.collWrite (s : State) (l : Local) (va : Dword) (bs : List Byte) : State :=
  let w := s.wg l.wg
  if w.state = .terminated then s
  else
    let x := s.collSide l true va
    match s.sidesEnd .xget w.core bs.length [x] with
    | some e => s.collFault l e
    | none =>
      (((s.logElement l.g x bs.length).writeTarget w.core w.ctx va x.tgt bs).shade l.g x.tgt bs.length false 0).touchTarget w.ctx x.tgt

/-- Tag 0x7F00 on every destination block written whole (R230). -/
def State.collTags (s : State) (l : Local) (n : Nat) : State :=
  let first := (l.dst.toNat + 63) / 64
  if (s.wg l.wg).state = .terminated then s
  else
    (List.range ((l.dst.toNat + n) / 64 - first)).foldl (fun s i =>
      let va := BitVec.ofNat 64 (64 * (first + i))
      match (s.collSide l true va).tgt.loc? with
      | some loc => s.setTag loc 0x7F00
      | none => s) s

/-- The result written to a participant's destination. -/
def State.deliver (s : State) (c : Contribution) (ms : List Contribution) : State :=
  match c.here with
  | none => s
  | some l =>
    let r := collResult l c.rank c.count ms
    let t := (collElements r.length).foldl (fun s p =>
      s.collWrite l (l.dst + BitVec.ofNat 64 p.1) ((r.drop p.1).take p.2)) s
    t.collTags l r.length

/-- COLLECTIVE_COMPLETION (R250, R251): the instance of contribution `id`, once every rank has contributed to its current
attempt. Differing COUNT values write nothing but the record COLL_MISMATCH.
No group's interval number rises with it (DESIGN CHOICE, log 79). -/
def execCollectiveCompletion (id : Nat) (s : State) : Out :=
  .next (match s.colls.find? (fun c => c.id = id) with
    | none => s
    | some c =>
      match c.here with
      | none => s
      | some l =>
        let ms := s.colls.filter (fun d => d.same c && d.data.isSome)
        if c.attempt != (s.ctx c.ctx).attempt c.slot || !((List.range l.npart).all (fun r => ms.any (fun d => d.rank = r))) then s
        else
          let t := { s with colls := s.colls.filter (fun d => !(d.same c)) }
          if ms.any (fun d => d.count != c.count) then t.record c.ctx 14 c.slot noCore 0 noWg 0 c.attempt.toNat
          else ms.foldl (fun t d => t.deliver d ms) t)

end Sys2Proof.Machine
end

