-- ==== Sys2Proof/Machine/Fetch.lean ====
section
/-! DEFINITION. Which group may issue (R29, R30, R37, R39), the fetch of its next word (R90, R93, R96, R129), what follows an
issue, and one clk (R30, R34, R66). -/

namespace Sys2Proof.Machine

/-! ### Whether a group may issue -/

/-- Whether a group is halted as phase-passive: from its core's token for a compute-end wave to the release that starts the
next compute superstep (R39). -/
def State.halted (s : State) (g : Nat) : Bool :=
  let c := s.core (s.coreOf g)
  !(s.ctx (s.ctxOf g)).phased && (c.token || c.exchange)

/-- Whether a group stays stalled on the pool after a rollback that freed registers (R64). -/
def State.poolHeld (s : State) (g : Nat) : Bool :=
  match (s.group g).poolHold with
  | some (v, e) => s.vfree (s.coreOf g) < v || s.sfree (s.coreOf g) < e
  | none => false

/-- Whether the die of group `g` runs: in service, and its clock not stopped (R319, R335). -/
def State.dieRuns (s : State) (d : Nat) : Bool := !(s.die d).lost && s.root.power = .d0

/-- Whether group `g` is live, scheduled, and waits for nothing that another agent must end (R29). -/
def State.unblocked (s : State) (g : Nat) : Bool :=
  let x := s.group g
  (Fmap.find s.groups g).isSome && x.status = .live && x.parked.isNone && x.wait.isNone && !x.rollbackDue &&
    (s.wgOf g).state = .resident && !s.halted g && !s.poolHeld g && s.dieRuns (s.dieOf g)

/-- Issue slots of a core in one clk (R30). -/
def issueSlots : Nat := 16

/-- Whether group `g` may issue in this clk (R29, R30). A stalled group tries again, and stalls again while its reason
lasts. -/
def State.canIssue (s : State) (g : Nat) : Bool :=
  s.unblocked g && !(s.group g).issued && (s.core (s.coreOf g)).slots < issueSlots

/-! ### Fetch -/

/-- What a fetch gives: the four bytes at the program counter, or the state in which the group cannot go on. -/
inductive Fetched where
  | bytes (bs : List Byte)
  | stop (s : State)

/-- The word at the program counter of group `g` (R90, R96, R129): a miss asks for a walk, and a translation fault ends the
workgroup. A PC that is not a multiple of 4, which only ENTRY can give, fetches the four bytes there (log 77). -/
def State.fetch (s : State) (g : Nat) : Fetched :=
  let x := s.group g
  match s.target x.wg x.pc .fetch with
  | .memory pa _ _ _ => .bytes (s.bytesAt pa 4)
  | .fault c _ => .stop (s.translationFault g c .fetch x.pc)
  | .miss => .stop ((s.askWalk g x.pc .fetch).modGroup g (fun y => { y with stall := some .walk }))
  | _ => .stop (s.translationFault g .notmapped .fetch x.pc)

/-- An undefined word (R146). -/
def State.illegalWord (s : State) : State := s.preciseTrap s.cur { trap := .illegalOp }

/-! ### After an issue -/

/-- The candidate of a group on its core: its workgroup and stage (R30). -/
def candidateKey (wg stage : Nat) : Nat := 8 * wg + stage

/-- The candidate that group `g` belongs to. -/
def State.keyOf (s : State) (g : Nat) : Nat := candidateKey (s.group g).wg (s.group g).stage

/-- One issue slot of core `c` used by group `g` (R30). -/
def State.slotUsed (s : State) (c g : Nat) : State :=
  s.setCore c { s.core c with slots := (s.core c).slots + 1, guard := (s.core c).guard.filter (fun i => i != g) }

/-- The issue slot that group `g` used on core `c`: it has issued in this clk (R30), also where it has fused into another group,
and counts as ready anew from the next one (DESIGN CHOICE, log 97). A group that stalled has not issued; its run
ends, and so does that of one that has come to wait (R32). -/
def State.counted (s : State) (c g : Nat) : State :=
  match Fmap.find s.groups g with
  | none => s.slotUsed c g
  | some x =>
    let next := (s.die (dieOfCore c)).ck.toNat + 1
    if x.stall.isSome then s.setGroup g { x with hrun := 0, readySince := next }
    else (s.setGroup g
      { x with issued := true, poolHold := none, readySince := max x.readySince next,
               hrun := if x.wait.isSome then 0 else x.hrun }).slotUsed c g

/-- A group that has come to wait with an asynchronous trap pending abandons its wait at once (R302, R306). -/
def State.settleWait (s : State) (g : Nat) : State :=
  let x := s.group g
  if x.wait.isSome && !x.pendTraps.isEmpty && !x.handler then (s.leaveWait g).modGroup g Group.toBoundary else s

/-- What follows an issue of group `g` on core `c`, whatever came of it. -/
def afterIssue (c g : Nat) (o : Out) : Out :=
  match o with
  | .next s => .next ((s.settleWait g).counted c g)
  | .fault r => .fault r
  | .refused r => .refused r

/-! ### One clk -/

/-- Whether a die's clock is at half its speed: die 0 in reduced service (R327). -/
def State.halfSpeed (s : State) (d : Nat) : Bool := d = 0 && s.root.stage != .full

/-- Whether a die's clock ticks in this clk (R34, R333): at its speed, but for as many sixteenths of its ticks as it is
throttled by. -/
def State.ticks (s : State) (d : Nat) : Bool :=
  let x := s.die d
  let n := if s.halfSpeed d then s.root.ticks / 2 else s.root.ticks
  x.alive && s.dieRuns d && x.throt ≤ n % 16 && !(s.halfSpeed d && s.root.ticks % 2 = 1)

/-- A group at the end of a clk: without an issue its latches become invalid (R66) and its run ends (R32). -/
def Group.endClk (x : Group) : Group :=
  if x.issued then { x with issued := false } else { x.dropLatches with hrun := 0 }

/-- The end of one clk: the clocks that run advance, and every core has its issue slots again (R30, R34). -/
def State.clockEdge (s : State) : State :=
  let on := fun (d : Nat) => s.ticks d
  let dies := (List.range 4).foldl (fun m d =>
    if on d then Fmap.insert m d { Fmap.get Die.reset m d with ck := (Fmap.get Die.reset m d).ck + 1 } else m) s.dies
  { s with
      dies := dies
      groups := Fmap.mapVals (fun _ x => if on (dieOfCore (s.wg x.wg).core) && x.status = .live then x.endClk else x) s.groups
      cores := Fmap.mapVals (fun c k => if on (dieOfCore c) then { k with slots := 0 } else k) s.cores
      root := if s.root.power = .d0 then { s.root with ticks := s.root.ticks + 1 } else s.root }

end Sys2Proof.Machine
end

