-- ==== Sys2Proof/Machine/Matrix.lean ====
section
/-! DEFINITION. Matrix instructions (R254 to R274): the operations on accumulator tiles, batches, quadrants and their
self-tests. An operation is checked and queued at issue, and has its effect at MATRIX_OPERATION_COMPLETION. -/

namespace Sys2Proof.Machine

/-! ### Rows (R254, R255, R260) -/

/-- A decoded 64-byte row: its elements, none after a tag fault, and whether it met a decode fault. -/
structure Row where
  elems : Option (List FVal)
  bad : Bool
deriving DecidableEq, Repr

/-- The nibbles of bytes, low first (R71). -/
def nibbles (bs : List Byte) : List Nat := bs.flatMap (fun b => [b.toNat % 16, b.toNat / 16])

/-- 16-bit elements of bytes. -/
def halves (bs : List Byte) : List Nat := numbers 2 bs 32

/-- A row of a format of TA and TB (R139, R254, R255). -/
def untagged (t : Nat) (bs : List Byte) : Row :=
  match t with
  | 0 => ⟨some ((halves bs).map bf16.decode), false⟩
  | 1 => ⟨some ((halves bs).map fp16.decode), false⟩
  | 2 => ⟨some (bs.map (fun b => e4m3.decode b.toNat)), false⟩
  | 3 => ⟨some (bs.map (fun b => e5m2.decode b.toNat)), false⟩
  | 4 => ⟨some ((nibbles bs).map e2m1.decode), false⟩
  | 5 =>
    let es := walkI4x (bs.map BitVec.toNat)
    ⟨some (es.map (·.val)), es.any (·.bad)⟩
  | _ => ⟨some (bs.map (fun b => ofInteger (signedOf 8 b.toNat))), false⟩

/-- The format of TA and TB that an FMT code selects, if the matrix engine decodes it (R73). -/
def fmtType (fmt : Nat) : Option Nat :=
  match fmt with
  | 2 => some 1
  | 3 => some 0
  | 4 => some 2
  | 5 => some 3
  | 6 => some 4
  | 7 => some 5
  | 8 => some 6
  | _ => none

/-- Elements of a row of a format (R254). -/
def elementsOf (t : Nat) : Nat := if t ≤ 1 then 32 else if t = 4 || t = 5 then 128 else 64

/-- A row decoded by its tag (R74, R260): a tag fault unless its format has `k` elements. -/
def tagged (tag : BitVec 16) (k : Nat) (bs : List Byte) : Row :=
  match fmtType (tag.toNat % 256) with
  | none => ⟨none, false⟩
  | some t =>
    if elementsOf t != k then ⟨none, false⟩
    else
      let r := untagged t bs
      { r with elems := r.elems.map (fun es => es.map (scaled (tag.toNat / 256))) }

/-! ### The sum (R81) -/

/-- Whether a value is negative. -/
def FVal.neg (v : FVal) : Bool :=
  match v with
  | .inf n => n
  | .fin n _ _ => n
  | .nan _ => false

/-- Whether a product is infinite, for operands that are no NaN and not zero times infinity. -/
def infProduct (x y : FVal) : Bool :=
  match x, y with
  | .inf _, _ => true
  | _, .inf _ => true
  | _, _ => false

/-- The exact product of two finite values. -/
def dyProduct (x y : FVal) : Dy :=
  match x, y with
  | .fin n m e, .fin n' m' e' => dyOf (n != n') (m * m') (e + e')
  | _, _ => ⟨0, 0⟩

/-- Whether a product is an exact zero. -/
def zeroProduct (x y : FVal) : Bool :=
  match x, y with
  | .fin _ m _, .fin _ m' _ => m * m' = 0
  | _, _ => false

/-- The exact sum of the products of two rows and an accumulator, rounded once to FP32 (R81). A zero product of integer elements has
the sign that its factors' signs give, with an integer zero positive (DESIGN CHOICE, log 119). -/
def dotRound (rm : BitVec 2) (a b : List FVal) (acc : Nat) : Nat × Flags :=
  let c := fp32.decode acc
  let ps := a.zip b
  let zti := ps.any (fun p => zeroTimesInf p.1 p.2)
  let infs := (ps.filter (fun p => !p.1.isNan && !p.2.isNan && !zeroTimesInf p.1 p.2 && infProduct p.1 p.2)).map (fun p => p.1.neg != p.2.neg)
  let infs := match c with | .inf n => n :: infs | _ => infs
  let opposite := infs.contains true && infs.contains false
  let snan := c.snan || ps.any (fun p => p.1.snan || p.2.snan)
  if c.isNan || zti || opposite || ps.any (fun p => p.1.isNan || p.2.isNan) then fp32.nanIf (snan || zti || opposite)
  else match infs with
    | n :: _ => (fp32.signed n fp32.infCode, 0)
    | [] =>
      let start := match c with | .fin n m e => dyOf n m e | _ => ⟨0, 0⟩
      let sum := ps.foldl (fun s p => s.add (dyProduct p.1 p.2)) start
      let zeros := start.i = 0 && ps.all (fun p => zeroProduct p.1 p.2)
      let signs := c.neg :: ps.map (fun p => p.1.neg != p.2.neg)
      let zneg := if zeros && signs.all (fun n => n) then true else if zeros && signs.all (fun n => !n) then false else rm = 3
      fp32.roundDy rm sum zneg

/-! ### Scratchpad operands (R257) -/

/-- A descriptor that names nothing. -/
def noDesc : MDesc := ⟨0, 0, 0, 0, 0, 0⟩

/-- The location at which row `r` of an operand begins (R257). -/
def MDesc.row (d : MDesc) (r : Nat) : Nat := d.loc + r % 8 * d.rowp + r / 8 * 64 * d.tilep

/-- The bytes of row `r`, its words rotated over the banks (R257). -/
def State.rowBytes (s : State) (d : MDesc) (r : Nat) : List Byte :=
  (List.range 16).flatMap (fun k => s.bytesAt (d.row r + 4 * ((k + r * d.rot) % 16)) 4)

/-- A descriptor pair before it is checked: base and layout word. -/
structure RawDesc where
  base : Nat
  layout : Nat
deriving DecidableEq, Repr

/-- The descriptor pair that starts at scalar `n`. -/
def Group.rawDesc (x : Group) (n : Nat) : RawDesc := ⟨(x.readS n).toNat, (x.readS (n + 1)).toNat⟩

def RawDesc.rowp (d : RawDesc) : Nat := d.layout / 65536
def RawDesc.tilep (d : RawDesc) : Nat := d.layout / 16 % 4096
def RawDesc.rot (d : RawDesc) : Nat := d.layout % 16

/-- The window address of a base (R85, R257). -/
def RawDesc.va (d : RawDesc) : Dword := windowAddr d.base

/-- The workgroup and the offset that a base names (R257): none outside the two windows or at a rank that no member has. -/
def State.baseTarget (s : State) (base : Nat) : Option (Nat × Nat) :=
  if base < 1048576 then some (s.me.wg, base)
  else if 4194304 ≤ base && base < 8388608 then
    (s.myWg.members[(base - 4194304) / 1048576]?).map (fun k => (k, base % 1048576))
  else none

/-- Window, membership and range of the rows of an operand (R257, R264); that a peer that has exited comes before the range is a
DESIGN CHOICE (log 112). -/
def State.place (s : State) (d : RawDesc) (rows : List Nat) : Except Body MDesc :=
  let out := Body.trap { trap := .scratchRange, addr := d.va }
  match s.baseTarget d.base with
  | none => .error out
  | some (k, off) =>
    if 4194304 ≤ d.base && s.hasExited k then .error (.trap { trap := .peerExited, addr := d.va })
    else
      let w := s.wg k
      let m : MDesc := ⟨k, spadLoc w.core (128 * w.line0 + off), d.va, d.rowp, d.tilep, d.rot⟩
      if rows.any (fun r => 128 * w.lines < m.row r - m.loc + off + 64) then .error out else .ok m

/-- Checks 4 to 6 of R264 on the descriptors of an operation, each over all of them before the next; check 6 is made whole on one
descriptor before the next (DESIGN CHOICE, log 112). A trap reports the window address of the base (DEDUCED, log 23). -/
def State.descs (s : State) (mmat : Bool) (l : List (RawDesc × List Nat)) : Except Body (List MDesc) :=
  if l.any (fun p => p.1.rowp % 64 != 0 || (mmat && p.1.rot != 0)) then .error (.trap { trap := .matrixOperand })
  else match l.find? (fun p => p.1.base % 64 != 0) with
    | some p => .error (.trap { trap := .misaligned, addr := p.1.va })
    | none => l.mapM (fun p => s.place p.1 p.2)

/-! ### Tiles (R56, R182, R266) -/

/-- Whether a key of a vector map is one of tile `a`. -/
def tileKey (a k : Nat) : Bool := 64 + 32 * a ≤ k / 16 && k / 16 < 96 + 32 * a

/-- The keys of tile `a` in the quarters of a mask that need a new slice: unallocated, or still the pinned one of the open
region (R56, R182). -/
def Group.tileNeeds (x : Group) (a : Nat) (m : Mask) : List Nat :=
  ((hitQuarters x.width m).flatMap (fun q => (List.range 32).map (fun c => vkey (tileName a c) q))).filter (fun k =>
    match Fmap.find x.v k with
    | none => true
    | some sl => match x.region with
      | some r => (match Fmap.find r.v k with | some p => p.id = sl.id | none => false)
      | none => false)

/-- Tile `a` allocated for the lanes of a mask: a copy of a pinned quarter, or a quarter of zeros (R182, R266). -/
def State.allocTile (s : State) (g a : Nat) (m : Mask) : State :=
  let x := s.group g
  let ks := x.tileNeeds a m
  let ids := freshIds (s.usedSlices (s.coreOf g)) ks.length
  let put := fun (v : Fmap Slice) (p : Nat × Nat) =>
    match Fmap.find x.v p.1 with
    | some sl => Fmap.insert v p.1 { sl with id := p.2 }
    | none => Fmap.insert v p.1 ⟨p.2, List.replicate 8 0, 0, x.lastLoad⟩
  s.setGroup g { x with v := (ks.zip ids).foldl put x.v }

/-- The columns that an operation reads or writes: one for MRD and MWR, and else all (R265). -/
def MOp.columns (o : MOp) : List Nat := if o.kind = .mrd || o.kind = .mwr then [o.col] else List.range 32

/-- Rows of a tile rewritten in a vector map: lane `l` of each column `c` of `cols` takes `f l c` in the lanes of a mask (R262,
R265). -/
def writeTile (v : Fmap Slice) (a : Nat) (cols : List Nat) (m : Mask) (f : Nat → Nat → Word) : Fmap Slice :=
  Fmap.mapVals (fun k sl =>
    let q := k % 16
    let c := k / 16 - 64 - 32 * a
    if tileKey a k && cols.contains c then
      { sl with
          val := (List.range 8).map (fun l => if m.getLsbD (8 * q + l) then f (8 * q + l) c else sl.val.getD l 0)
          bad := sl.bad &&& ~~~ (m.extractLsb' (8 * q) 8) }
    else sl) v

/-- Rows of tile `a` of group `g` updated; an operation older than the open region updates the pinned rows as well (R182). -/
def State.updateTile (s : State) (o : MOp) (f : Nat → Nat → Word) : State :=
  s.modGroup o.g (fun x =>
    { x with v := writeTile x.v o.acc o.columns o.exec f
             region := if o.inRegion then x.region
               else x.region.map (fun r => { r with v := writeTile r.v o.acc o.columns o.exec f }) })

/-- Tile `a` freed once an operation with its last-read bit has read it (R58, R266): quarters that a later operation on the
tile will write keep their slices, with zero rows. -/
def State.freeTile (s : State) (op : Nat) (o : MOp) : State :=
  let later := s.mops.filter (fun p => op < p.1 && p.2.g = o.g && p.2.acc = o.acc && p.2.kind != .mst && p.2.kind != .mrd)
  let kept := fun (q : Nat) => later.any (fun p => (hitQuarters 128 p.2.exec).contains q)
  s.modGroup o.g (fun x =>
    { x with v := Fmap.mapVals (fun k sl => if tileKey o.acc k then { sl with val := List.replicate 8 0, bad := 0 } else sl)
               (Fmap.select x.v (fun k _ => !(tileKey o.acc k) || kept (k % 16))) })

/-- Whether an element of a tile that an operation reads holds an uncorrectable error (R312). -/
def Group.badTile (x : Group) (o : MOp) : Bool :=
  (lanesOf o.exec).any (fun l => o.columns.any (fun c => x.badV (tileName o.acc c) l))

/-! ### Quadrants (R24, R271) -/

/-- The quadrants of the gang of a group (R24); a group of width 32 or less uses any one. -/
def gangOf (width base : Nat) : List Nat :=
  if width = 128 then [0, 1, 2, 3] else if width = 64 then (if base / 64 % 2 = 0 then [0, 1] else [2, 3]) else []

/-- Whether quadrant `q` of a core is healthy. -/
def Core.healthy (c : Core) (q : Nat) : Bool := !c.fenced.getLsbD q

/-- The healthy quadrants of a core. -/
def Core.healthyQuads (c : Core) : List Nat := (List.range 4).filter c.healthy

/-- The quadrants that run an operation (R24, R271): those of its gang that are healthy; where there is none, any one healthy
quadrant. `none` while one that must run it has not had its first self-test (R272); the list is empty when no quadrant of the
core is healthy. -/
def State.quadsFor (s : State) (o : MOp) : Option (List Nat) :=
  let x := s.group o.g
  let c := s.core (s.wg o.wg).core
  let tested := fun (q : Nat) => !c.firstTest.getLsbD q
  let gang := (gangOf x.width x.base).filter c.healthy
  if !gang.isEmpty then (if gang.all tested then some gang else none)
  else if c.healthyQuads.isEmpty then some []
  else
    let ok := c.healthyQuads.filter tested
    if ok.isEmpty then none else some ((ok[Config.quadPick s.free % ok.length]?).toList)

/-- What quadrants have performed of a batch (R272). -/
def State.recordQuads (s : State) (o : MOp) (qs : List Nat) : State :=
  match o.batch with
  | none => s
  | some b =>
    let c := (s.wg o.wg).core
    let k := s.core c
    let add := fun (m : Fmap (List QuadUse)) (q : Nat) =>
      let old := (Fmap.get [] m q).filter (fun u => !(u.g = o.g && u.batch = b))
      Fmap.insert m q (old ++ [⟨o.g, b, false⟩])
    s.setCore c { k with quadUse := qs.foldl add k.quadUse }

/-! ### Batches (R267, R268) -/

/-- Status bits joined to a batch of a group (R263, R268): the open batch's are kept until it closes. -/
def Group.addStatus (x : Group) (b : Word) (st : Word) : Group :=
  if x.batchOpen && x.nb = b then { x with openStatus := x.openStatus ||| st }
  else { x with batches := x.batches.map (fun c => if c.n = b && !c.done then { c with status := c.status ||| st } else c) }

/-- Whether every operation of batch `b` of group `g` is complete, and every self-test that its quadrants owe has run, on
whichever core they stand (R268, R299). -/
def State.batchReady (s : State) (g : Nat) (b : Word) : Bool :=
  !(s.mops.any (fun p => p.2.g = g && p.2.batch = some b)) &&
    !(s.cores.any (fun c => c.2.quadUse.any (fun p => p.2.any (fun u => u.g = g && u.batch = b && !u.tested))))

/-- Closed batches completed in order: one is complete only after every earlier one (R268). -/
def settleBatches (ready : Word → Bool) (l : List Batch) : List Batch :=
  match l with
  | [] => []
  | b :: t => if b.done then b :: settleBatches ready t else if ready b.n then { b with done := true } :: settleBatches ready t else b :: t

/-- The batches of group `g` that have become complete. -/
def State.settle (s : State) (g : Nat) : State :=
  match Fmap.find s.groups g with
  | none => s
  | some x => s.setGroup g { x with batches := settleBatches (s.batchReady g) x.batches }

/-! ### Completion of an operation (R262, R265) -/

/-- The empty-line, poison and order conditions speak of the memory that an operation accesses: pairs of a location and a
length, and whether it writes. -/
def MOp.places (o : MOp) : List (Nat × Nat) :=
  let ex := lanesOf o.exec
  let rows : MDesc → List Nat → List (Nat × Nat) := fun d l => l.map (fun r => (d.row r, 64))
  match o.kind with
  | .mmas | .mmat => if ex.isEmpty then [] else rows o.descA ex ++ rows o.descB (List.range 32)
  | .mmax =>
    rows o.descA ex ++ (if ex.any (· < o.bound) then rows o.descB (List.range 32) else []) ++
      (if ex.any (fun i => o.bound ≤ i) then rows o.descC (List.range 32) else [])
  | .mld | .mst => ex.map (fun i => (o.descA.loc + 128 * i, 128))
  | _ => []

/-- Whether two lists of places meet. -/
def placesMeet (a b : List (Nat × Nat)) : Bool := a.any (fun p => b.any (fun q => p.1 < q.1 + q.2 && q.1 < p.1 + p.2))

/-- Whether an earlier operation of the group must come first (R270): one on the same tile, or one at a common location of
which one writes. -/
def State.mopBlocked (s : State) (op : Nat) (o : MOp) : Bool :=
  s.mops.any (fun p => p.1 < op && p.2.g = o.g &&
    (p.2.acc = o.acc || ((p.2.kind = .mst || o.kind = .mst) && placesMeet p.2.places o.places)))

/-- Whether an operand row of an operation lies on an empty line (R104, R257). -/
def State.mopEmpty (s : State) (o : MOp) : Bool :=
  o.kind != .mst && o.places.any (fun p => !(s.lineAt p.1).full)

/-- Whether an operand of an operation is poisoned (R312), as bytes or as a tag that it decodes by. -/
def State.mopPoisoned (s : State) (o : MOp) : Bool :=
  o.kind != .mst && o.places.any (fun p => s.poisoned p.1 p.2 || (o.kind = .mmat && Fmap.get false s.tagPoison (p.1 / 64)))

/-- Row `i` of A and column row `j` of the buffer that row `i` uses, decoded (R255, R256, R260, R261). `k` is the operation's K
for tagged rows. -/
def State.rowA (s : State) (o : MOp) (k i : Nat) : Row :=
  match o.kind with
  | .mma => untagged o.ta (o.rowsA.getD i [])
  | .mmat => tagged (s.tagAt (o.descA.row i)) k (s.rowBytes o.descA i)
  | _ => untagged o.ta (s.rowBytes o.descA i)
def State.rowB (s : State) (o : MOp) (k : Nat) (second : Bool) (j : Nat) : Row :=
  match o.kind with
  | .mma => untagged o.tb (o.rowsB.getD j [])
  | .mmat => tagged (s.tagAt (o.descB.row j)) k (s.rowBytes o.descB j)
  | .mmax => untagged o.tb (s.rowBytes (if second then o.descC else o.descB) j)
  | _ => untagged o.tb (s.rowBytes o.descB j)

/-- K of an operation (R254, R260): for tagged rows, the element count of column row 0; none after a tag fault there. -/
def State.mopK (s : State) (o : MOp) : Option Nat :=
  if o.kind = .mmat then (fmtType ((s.tagAt (o.descB.row 0)).toNat % 256)).map elementsOf else some (elementsOf o.ta)

/-- One element of an updated row with its flags: the old value where a row has a tag fault (R262). -/
def updated (rm : BitVec 2) (a b : Row) (acc : Word) : Word × Flags :=
  match a.elems, b.elems with
  | some x, some y =>
    let r := dotRound rm x y acc.toNat
    (BitVec.ofNat 32 r.1, r.2)
  | _, _ => (acc, 0)

/-- The status bits of faults (R268). -/
def stSuspect : Word := 1
def stTagFault : Word := 2
def stDecode : Word := 4
def stNoEngine : Word := 8

/-- One of the four operations performed (R262): the rows of the executing lanes, their flags, and its status bits (R263). A decode
fault of a column row counts as used also where the row of A that reads it has a tag fault (DESIGN CHOICE, log 114); after a tag
fault in column row 0 no decode fault does (DESIGN CHOICE, log 120). -/
def State.performProduct (s : State) (o : MOp) : State :=
  let ex := lanesOf o.exec
  let x := s.group o.g
  match s.mopK o with
  | none =>
    (s.modGroup o.g (fun y => if o.quiet then y else y.orFlags o.exec (fun _ => flagNV))).modGroup o.g
      (fun y => y.addStatus (o.batch.getD 0) (if ex.isEmpty then 0 else stTagFault))
  | some k =>
    let colsOf := fun second => (List.range 32).map (s.rowB o k second)
    let b0 := colsOf false
    let b1 := if o.kind = .mmax then colsOf true else []
    let cols := fun (i : Nat) => if o.kind = .mmax && o.bound ≤ i then b1 else b0
    let rows := ex.map (fun i =>
      let a := s.rowA o k i
      (i, a, (cols i).zipIdx.map (fun p => updated o.rm a p.1 (x.readAcc o.acc i p.2))))
    let bad := fun (r : Row) => r.bad || r.elems.isNone
    let val := fun l c => (((rows.find? (fun r => r.1 = l)).bind (fun r => r.2.2[c]?)).map (·.1)).getD 0
    let fl := fun l => match rows.find? (fun r => r.1 = l) with
      | some r => (r.2.2.foldl (fun a p => a ||| p.2) 0) ||| flagIf (bad r.2.1 || (cols l).any bad) flagNV
      | none => 0
    let used := rows.flatMap (fun r => r.2.1 :: cols r.1)
    let st := (if used.any (·.elems.isNone) then stTagFault else 0) ||| (if used.any (·.bad) then stDecode else 0)
    let t := s.updateTile o val
    (t.modGroup o.g (fun y => if o.quiet then y else y.orFlags o.exec fl)).modGroup o.g (fun y => y.addStatus (o.batch.getD 0) st)

/-- The bytes of row `i` of a tile (R265). -/
def Group.rowOfTile (x : Group) (a i : Nat) : List Byte := (List.range 32).flatMap (fun c => leBytes 4 (x.readAcc a i c).toNat)

/-- Whether row `i` of an MST lies on a line that became a barrier or queue line after issue (R265). -/
def State.rowShut (s : State) (o : MOp) (i : Nat) : Bool :=
  (s.lineAt (o.descA.loc + 128 * i)).barrier || (s.lineAt (o.descA.loc + 128 * i)).queue

/-- MST performed (R265): its rows, but for those that are shut, which keep no other row from memory (DESIGN CHOICE, log 121). -/
def State.performMst (s : State) (o : MOp) : State :=
  s.storeCells (((lanesOf o.exec).filter (fun i => !s.rowShut o i)).flatMap (fun i =>
    cellsOf (o.descA.loc + 128 * i) ((s.group o.g).rowOfTile o.acc i)))

/-- The copy fault of an MST with a row that is shut (R98, R265). ACC of its record is that of an engine element (DESIGN CHOICE,
log 122). -/
def State.mstFault (s : State) (o : MOp) : State :=
  match (lanesOf o.exec).find? (s.rowShut o) with
  | none => s
  | some i =>
    if (s.group o.g).region.isSome && (s.group o.g).status = .live then s.rollback o.g
    else (s.recordG o.g 5 (if (s.lineAt (o.descA.loc + 128 * i)).barrier then 4 else 6) 3 (o.descA.va.toNat + 128 * i) 0).terminate o.wg

/-- The slices of a vector map with given numbers filled in the lanes of a mask; `quarterOf` gives the quarter that a slice
number stands for. -/
def fillSlices (fills : List (Nat × Nat)) (m : Mask) (f : Nat → Word) (v : Fmap Slice) : Fmap Slice :=
  Fmap.mapVals (fun k sl =>
    match fills.find? (fun p => p.2 = sl.id) with
    | some (q, _) =>
      if k / 16 < 64 then
        { sl with val := (List.range 8).map (fun l => if m.getLsbD (8 * q + l) then f (8 * q + l) else sl.val.getD l 0) }
      else sl
    | none => sl) v

/-- MRD performed (R265, R270): the slices allocated at issue take the column. -/
def State.performMrd (s : State) (op : Nat) (o : MOp) : State :=
  let x := s.group o.g
  let f := fun l => x.readAcc o.acc l o.col
  let t := s.modGroup o.g (fun y =>
    { y with v := fillSlices o.fills o.exec f y.v
             region := y.region.map (fun r => { r with v := fillSlices o.fills o.exec f r.v }) })
  { t with pend := Fmap.erase t.pend op }

/-- What an operation does when it completes, without the end of its batch. -/
def State.performMop (s : State) (op : Nat) (o : MOp) : State :=
  match o.kind with
  | .mma | .mmas | .mmat | .mmax => s.performProduct o
  | .mzero => s.updateTile o (fun _ _ => 0)
  | .mld => s.updateTile o (fun l c => BitVec.ofNat 32 (s.natAt (o.descA.loc + 128 * l + 4 * c) 4))
  | .mst => s.performMst o
  | .mrd => s.performMrd op o
  | .mwr => s.updateTile o (fun l _ => o.vals.getD l 0)

/-- Whether an operation is one of the four that run on quadrants (R271). -/
def MOpKind.product (k : MOpKind) : Bool := k = .mma || k = .mmas || k = .mmat || k = .mmax

/-- Whether an operation reads its tile's rows. -/
def MOpKind.readsTile (k : MOpKind) : Bool := k.product || k = .mst || k = .mrd

/-- After an operation is gone: a due rollback of its group takes place, an exited group's tiles are freed, and batches
complete (R188, R268, R314). -/
def State.afterMop (s : State) (g : Nat) : State :=
  let t := s.settle g
  if t.matrixBusy g then t
  else
    let t := if (t.group g).rollbackDue then t.rollbackNow g else t
    match Fmap.find t.groups g with
    | some x => if x.status = .exited then t.setGroup g { x with v := [] } else t
    | none => t

/-- Operation `op` out of the queue. -/
def State.dequeue (s : State) (op : Nat) : State := { s with mops := Fmap.erase s.mops op, pend := Fmap.erase s.pend op }

/-- The tile of an operation with a last-read bit freed (R266). -/
def State.freeIf (s : State) (op : Nat) (o : MOp) : State := if o.frees then s.freeTile op o else s

/-- Whether an operation consumes an uncorrectable error: of its operands in memory, or of its tile (R312). -/
def State.mopBad (s : State) (o : MOp) : Bool := s.mopPoisoned o || (o.kind.readsTile && (s.group o.g).badTile o)

/-- Operation `op` completes: it has its effect, or, with no healthy quadrant, sets NOENGINE (R271); an uncorrectable error
that it consumes, or the copy fault of an MST, acts on its group (R98, R313). The tile is freed before that, so that what a rollback
restores stays (R314). -/
def State.completeMop (s : State) (op : Nat) (o : MOp) (qs : List Nat) : State :=
  let gone := s.dequeue op
  let idle := lanesOf o.exec = []
  let t :=
    if o.kind.product && qs.isEmpty && !idle then
      (gone.modGroup o.g (fun y => y.addStatus (o.batch.getD 0) stNoEngine)).freeIf op o
    else if s.mopPoisoned o then (gone.freeIf op o).uncorrectable o.g 1 o.descA.va.toNat
    else if s.mopBad o then (gone.freeIf op o).uncorrectable o.g 2 0
    else
      let t := gone.performMop op o
      let t := if o.kind.product && !idle then { t.recordQuads o qs with free := if 1 < qs.length then t.free else t.free + 1 } else t
      if o.kind = .mst then (t.freeIf op o).mstFault o else t.freeIf op o
  t.afterMop o.g

/-- An operation completes if nothing holds it back: an earlier operation, an empty line, a quadrant's first self-test. One
that was issued when its core's last healthy quadrant was fenced runs on none (R271). -/
def State.tryMop (s : State) (op : Nat) : State :=
  match Fmap.find s.mops op with
  | none => s
  | some o =>
    if s.mopBlocked op o || s.mopEmpty o then s
    else if !o.kind.product || lanesOf o.exec = [] then s.completeMop op o []
    else if o.noEngine then s.completeMop op o []
    else match s.quadsFor o with
      | none => s
      | some qs => s.completeMop op o qs

/-- MATRIX_OPERATION_COMPLETION (R262). Reads of tiles by MRD that waited for it follow at once. -/
def execMatrixOperationCompletion (op : Nat) (s : State) : Out :=
  .next (match Fmap.find s.mops op with
    | none => s
    | some o =>
      let t := s.tryMop op
      (t.mops.filter (fun p => p.2.g = o.g && p.2.kind = .mrd)).foldl (fun t p => t.tryMop p.1) t)

/-! ### Issue (R264 to R267) -/

/-- Whether the issue limits leave room for an operation of the issuing group (R267). -/
def State.mopLimit (s : State) : Bool :=
  64 ≤ (s.mops.filter (fun p => p.2.g = s.cur)).length || 1024 ≤ (s.mops.filter (fun p => (s.wg p.2.wg).core = s.myCore)).length

/-- An operation of the issuing group with nothing but its kind, tile and execute mask. -/
def State.newMop (s : State) (kind : MOpKind) (acc : BitVec 2) (m : Mask) : MOp :=
  { kind := kind, g := s.cur, wg := s.me.wg, acc := acc.toNat, exec := m, quiet := false, rm := s.me.rm, ta := 0, tb := 0
    rowsA := [], rowsB := [], descA := noDesc, descB := noDesc, descC := noDesc, bound := 0, col := 0, vals := [], fills := []
    batch := some s.me.nb, frees := false, inRegion := s.me.region.isSome, noEngine := false }

/-- Whether the last-read bit of the instruction marks its tile (R132, R266). -/
def Group.freesTile (x : Group) : Bool := match x.hlr.head? with | some b => b.getLsbD 2 | none => false

/-- An operation joins the open batch and the queue; with a zero execute mask it joins the batch only (R17, R267). The tile of
an instruction that writes it is allocated (R266). -/
def enqueue (s : State) (writes : Bool) (o : MOp) : Body :=
  let joined := s.modGroup s.cur (fun x => { x with batchOpen := true })
  if lanesOf o.exec = [] then andNext joined
  else if s.mopLimit then .stall s .limit
  else
    withRoom s (if writes then (s.me.tileNeeds o.acc o.exec).length else 0) 0
      (let t := if writes then joined.allocTile s.cur o.acc o.exec else joined
       andNext { t with mops := Fmap.insert t.mops t.nextId o, nextId := t.nextId + 1 })

/-- Check 8 of R264. -/
def State.allFenced (s : State) : Bool := (s.core s.myCore).fenced = 15

/-- The rows of a register group, for lanes or columns (R256). -/
def Group.regRows (x : Group) (n rows : Nat) : List (List Byte) :=
  (List.range rows).map (fun i => (List.range 16).flatMap (fun r => leBytes 4 (x.readV (n + r) i).toNat))

/-- MMA (R256, R258). -/
def execMma (f : FmtMma) (s : State) : Out :=
  issue (Instr.info (.mma f)) (fun s =>
    let x := s.me
    let m := x.execMask f.p.toNat
    let o := { s.newMop .mma f.c m with quiet := f.q = 1, ta := f.x.toNat, tb := f.y.toNat }
    if m = 0 then enqueue s true o
    else if s.allFenced then .trap { trap := .matrixFenced }
    else enqueue s true { o with rowsA := x.regRows f.a.toNat x.width, rowsB := x.regRows f.b.toNat 32 }) s

/-- The body of an operation on scratchpad operands, with the descriptors it uses and how it stores them. -/
def descBody (mmat : Bool) (o : MOp) (ds : List (RawDesc × List Nat)) (fill : MOp → List MDesc → MOp) (s : State) : Body :=
  if o.exec = 0 then enqueue s true o
  else match s.descs mmat ds with
    | .error b => b
    | .ok l => if s.allFenced then .trap { trap := .matrixFenced } else enqueue s true (fill o l)

/-- Two operands, A and B. -/
def fillTwo (o : MOp) (l : List MDesc) : MOp :=
  match l with
  | [a, b] => { o with descA := a, descB := b }
  | _ => o

/-- MMAS (R259). -/
def execMmas (f : FmtMma) (s : State) : Out :=
  issue (Instr.info (.mmas f)) (fun s =>
    let x := s.me
    let m := x.execMask f.p.toNat
    descBody false { s.newMop .mmas f.c m with quiet := f.q = 1, ta := f.x.toNat, tb := f.y.toNat }
      [(x.rawDesc f.a.toNat, lanesOf m), (x.rawDesc f.b.toNat, List.range 32)] fillTwo s) s

/-- MMAT (R260). -/
def execMmat (f : FmtMmat) (s : State) : Out :=
  issue (Instr.info (.mmat f)) (fun s =>
    let x := s.me
    let m := x.execMask f.p.toNat
    descBody true { s.newMop .mmat f.c m with quiet := f.q = 1 }
      [(x.rawDesc f.a.toNat, lanesOf m), (x.rawDesc f.b.toNat, List.range 32)] fillTwo s) s

/-- MMAX (R261): a buffer that no executing row uses is neither checked nor read. -/
def execMmax (f : FmtMma) (s : State) : Out :=
  issue (Instr.info (.mmax f)) (fun s =>
    let x := s.me
    let m := x.execMask f.p.toNat
    let b := f.b.toNat
    let bnd := (x.readS (b + 4)).toNat
    let first := (lanesOf m).any (· < bnd)
    let second := (lanesOf m).any (fun i => bnd ≤ i)
    let ds := (x.rawDesc f.a.toNat, lanesOf m) :: ((if first then [(x.rawDesc b, List.range 32)] else []) ++
      (if second then [(x.rawDesc (b + 2), List.range 32)] else []))
    let fill := fun (o : MOp) (l : List MDesc) =>
      match l with
      | [a, p] => { o with descA := a, descB := if first then p else noDesc, descC := if first then noDesc else p }
      | [a, p, q] => { o with descA := a, descB := p, descC := q }
      | _ => o
    descBody false { s.newMop .mmax f.c m with quiet := f.q = 1, ta := f.x.toNat, tb := f.y.toNat, bound := bnd } ds fill s) s

/-- MZERO (R265). -/
def execMzero (f : FmtMzero) (s : State) : Out :=
  issue (Instr.info (.mzero f)) (fun s => enqueue s true (s.newMop .mzero f.c (s.me.execMask f.p.toNat))) s

/-- The rows of MLD and MST (R265): alignment, window and membership, the range of each executing lane's row, and for MST the
lines it may not write. A trap reports the address, or that of the first row that fails (DEDUCED, log 23). -/
def State.tileRows (s : State) (va : Dword) (m : Mask) (store : Bool) : Except Body MDesc :=
  let out := Body.trap { trap := .scratchRange, addr := va }
  if va.toNat % 128 != 0 then .error (.trap { trap := .misaligned, addr := va })
  else
    let base := va.toNat - 0x0F00000000000000
    let inWindow := match regionOf va with | .own _ => true | .peer _ _ => true | _ => false
    match (if inWindow then s.baseTarget base else none) with
    | none => .error out
    | some (k, off) =>
      let w := s.wg k
      let loc := spadLoc w.core (128 * w.line0 + off)
      let row := fun i => va + BitVec.ofNat 64 (128 * i)
      if 4194304 ≤ base && s.hasExited k then .error (.trap { trap := .peerExited, addr := va })
      else match (lanesOf m).find? (fun i => 128 * w.lines < off + 128 * i + 128) with
        | some i => .error (.trap { trap := .scratchRange, addr := row i, lane := some i })
        | none =>
          match (if store then (lanesOf m).find? (fun i => (s.lineAt (loc + 128 * i)).barrier || (s.lineAt (loc + 128 * i)).queue) else none) with
          | some i =>
            .error (.trap { trap := if (s.lineAt (loc + 128 * i)).barrier then .barrierLine else .queue, addr := row i, lane := some i })
          | none => .ok ⟨k, loc, va, 0, 0, 0⟩

/-- MLD (R265). -/
def execMld (f : FmtMldst) (s : State) : Out :=
  issue (Instr.info (.mld f)) (fun s =>
    let m := s.me.execMask f.p.toNat
    let o := s.newMop .mld f.c m
    if m = 0 then enqueue s true o
    else match s.tileRows (s.me.readS2 f.x.toNat) m false with
      | .error b => b
      | .ok d => enqueue s true { o with descA := d }) s

/-- What a meaning declares of itself without its tile operand, whose last read the queued operation carries out (R266). -/
def Info.tileLater (n : Info) : Info := { n with srcs := n.srcs.filter (fun o => o.file != .tile) }

/-- The last read of tile `a` by an MST or MRD whose execute mask is zero (R58, R266): the tile is freed once the group's earlier
operations on it have completed. -/
def State.lastReadTile (s : State) (a : Nat) : State :=
  if !s.me.freesTile then s
  else match (Fmap.keys (s.mops.filter (fun p => p.2.g = s.cur && p.2.acc = a))).getLast? with
    | some op => { s with mops := Fmap.adjust s.mops op (fun o => { o with frees := true }) }
    | none => s.modGroup s.cur (fun x => x.freeReg (2, a))

/-- MST (R265). -/
def execMst (f : FmtMldst) (s : State) : Out :=
  issue (Instr.info (.mst f)).tileLater (fun s =>
    let m := s.me.execMask f.p.toNat
    let o := { s.newMop .mst f.c m with frees := s.me.freesTile }
    if m = 0 then enqueue (s.lastReadTile f.c.toNat) false o
    else match s.tileRows (s.me.readS2 f.x.toNat) m true with
      | .error b => b
      | .ok d => enqueue s false { o with descA := d }) s

/-- MRD (R265, R270): vX is allocated at issue, and written once every earlier instruction on the tile has completed. Where none is
left and the column holds an uncorrectable error, the MRD itself meets it, as every register read does, and has no other effect
(R312, R316). It joins no batch, but counts among the issued matrix operations of R267 (DESIGN CHOICE, log 113). -/
def mrdBody (f : FmtMrw) (s : State) : Body :=
  let x := s.me
  let m := x.execMask f.p.toNat
  let c := (x.srcS f.y.toNat).toNat
  if m = 0 then andNext (s.lastReadTile f.c.toNat)
  else if 31 < c then .trap { trap := .matrixOperand }
  else if s.mopLimit then .stall s .limit
  else
    withRoom s (hitQuarters x.width m).length 0
      (let t := s.putV s.cur f.x.toNat m (fun l => x.readV f.x.toNat l)
       let ids := t.me.idsV f.x.toNat m
       let o := { s.newMop .mrd f.c m with col := c, batch := none, fills := (hitQuarters x.width m).zip ids, frees := x.freesTile }
       let id := t.nextId
       let t := { t with mops := Fmap.insert t.mops id o, pend := Fmap.insert t.pend id ⟨.slow, s.cur, x.wg, s.myCore, ids, []⟩, nextId := id + 1 }
       if !s.mopBlocked id o && s.mopBad o then .left (s.uncorrectable s.cur 2 0) else andNext (t.tryMop id))

/-- MRD (R265). -/
def execMrd (f : FmtMrw) (s : State) : Out := issue (Instr.info (.mrd f)).tileLater (mrdBody f) s

/-- MWR (R265). -/
def execMwr (f : FmtMrw) (s : State) : Out :=
  issue (Instr.info (.mwr f)) (fun s =>
    let x := s.me
    let m := x.execMask f.p.toNat
    let c := (x.srcS f.y.toNat).toNat
    let o := { s.newMop .mwr f.c m with col := c, vals := (List.range x.width).map (x.srcV f.x.toNat) }
    if m != 0 && 31 < c then .trap { trap := .matrixOperand } else enqueue s true o) s

/-- nb after a batch is closed (R267): 0 becomes 1. -/
def nextBatch (nb : Word) : Word := if nb + 1 = 0 then 1 else nb + 1

/-- MFENCE (R267). -/
def execMfence (f : FmtMw) (s : State) : Out :=
  issue (Instr.info (.mfence f)) (fun s =>
    let x := s.me
    if 8 ≤ (x.batches.filter (fun b => !b.done)).length then .stall s .limit
    else
      withRoom s 0 1
        (let t := s.modGroup s.cur (fun y =>
           { y with nb := nextBatch y.nb, batchOpen := false, openStatus := 0
                    batches := y.batches ++ [⟨y.nb, if y.batchOpen then y.openStatus else 0, false⟩] })
         andNext ((t.settle s.cur).putS s.cur f.x.toNat x.nb))) s

/-- later(x, y) of R269. -/
def laterBatch (nb x y : Word) : Bool := (nb - x).toNat < (nb - y).toNat

/-- MWAIT (R269). -/
def mwaitBody (f : FmtMw) (s : State) : Body :=
  let x := s.me
  let n := x.srcS f.x.toNat
  let d := (x.nb - n).toNat
  if n = 0 || d = 0 || 2147483648 < d then .trap { trap := .matrixOperand }
  else if x.batches.any (fun b => b.n = n && !b.done) then .stall s .result
  else
    withRoom s 0 1
      (let told := fun (b : Batch) => laterBatch x.nb b.n x.wm && !laterBatch x.nb b.n n
       let st := (x.batches.filter told).foldl (fun a b => a ||| b.status) 0
       let t := s.modGroup s.cur (fun y =>
         { y with batches := y.batches.filter (fun b => !told b), wm := if laterBatch y.nb n y.wm then n else y.wm })
       if st.getLsbD 0 && x.region.isSome then
         (if x.rollbacks < 15 then .left (t.rollbackOr s.cur 4 (fun t => t))
          else andNext ((t.rollbackOr s.cur 4 (fun t => t)).putS s.cur f.x.toNat st))
       else andNext (t.putS s.cur f.x.toNat st))

/-- MWAIT (R269). -/
def execMwait (f : FmtMw) (s : State) : Out := issue (Instr.info (.mwait f)) (mwaitBody f) s

/-- MXSTAT of a core (R271). -/
def Core.mxstat (c : Core) : Word :=
  BitVec.ofNat 32 (c.fails.toNat * 16777216 + (if c.fenced = 0 then 1024 else 0) + (if c.fenced &&& 12 = 0 then 512 else 0) +
    (if c.fenced &&& 3 = 0 then 256 else 0) + c.lastFail.toNat * 16 + c.fenced.toNat)

/-- MSTAT (R271). -/
def execMstat (f : FmtMw) (s : State) : Out :=
  issue (Instr.info (.mstat f)) (fun s => withRoom s 0 1 (andNext (s.putS s.cur f.x.toNat (s.core s.myCore).mxstat))) s

/-! ### Self-tests and fences (R271, R272, R322) -/

/-- A bit of a quadrant mask set or cleared. -/
def quadBit (m : BitVec 4) (q : Nat) (on : Bool) : BitVec 4 :=
  if on then m ||| BitVec.ofNat 4 (2 ^ q) else m &&& ~~~ (BitVec.ofNat 4 (2 ^ q))

/-- Whether quadrant `q` owes a self-test (R272): its first after reset, one requested, or one for a closed batch whose
operations are complete. -/
def State.testDue (s : State) (c q : Nat) : Bool :=
  let k := s.core c
  k.firstTest.getLsbD q || k.testPending.getLsbD q ||
    (Fmap.get [] k.quadUse q).any (fun u => !u.tested &&
      (s.group u.g).batches.any (fun b => b.n = u.batch && !b.done) && !(s.mops.any (fun p => p.2.g = u.g && p.2.batch = some u.batch)))

/-- SUSPECT set in every batch that holds an operation which `q` performed since its last passing test (R272). -/
def State.suspect (s : State) (c q : Nat) : State :=
  (Fmap.get [] (s.core c).quadUse q).foldl (fun s u =>
    match Fmap.find s.groups u.g with
    | some x => s.setGroup u.g (x.addStatus u.batch stSuspect)
    | none => s) s

/-- Failed tests counted (R271). -/
def satByte (b : Byte) (n : Nat) : Byte := BitVec.ofNat 8 (min 255 (b.toNat + n))

/-- QUAD_FENCED to every context with a workgroup resident on the core (R322). -/
def State.reportFence (s : State) (c q : Nat) : State :=
  (distinct ((s.wgsOn c).map (fun p => p.2.ctx))).foldl (fun t k => t.record k 20 q c 0 noWg 0 (s.core c).fails.toNat) s

/-- Once core `c` has no healthy quadrant, the operations issued there run on none (R271). -/
def State.stranded (s : State) (c : Nat) : State :=
  if (s.core c).fenced = 15 then
    { s with mops := Fmap.mapVals (fun _ o => if (s.wg o.wg).core = c then { o with noEngine := true } else o) s.mops }
  else s

/-- The state after the self-test of quadrant `q` (R272): `pass1` the first run, `pass2` the repetition of a failed one. One that
passes while a batch is open serves for the close of that batch too, unless the quadrant performs more for it (DESIGN CHOICE,
log 115), and one whose repetition passes has passed, also for RETEST (R271; DESIGN CHOICE, log 123). -/
def State.tested (s : State) (c q : Nat) (pass1 pass2 : Bool) : State :=
  let t := if pass1 then s else s.suspect c q
  let k := t.core c
  let pass := pass1 || pass2
  let was := k.testPending.getLsbD q
  let uses := Fmap.get [] k.quadUse q
  let fencing := !pass && k.healthy q
  let t := t.setCore c
    { k with
        firstTest := quadBit k.firstTest q false
        testPending := quadBit k.testPending q false
        fails := satByte k.fails (if pass1 then 0 else if pass2 then 1 else 2)
        lastFail := quadBit k.lastFail q (!pass)
        fenced := if !pass then quadBit k.fenced q true else if was then quadBit k.fenced q false else k.fenced
        quadUse := Fmap.insert k.quadUse q (if pass then [] else uses.map (fun u => { u with tested := true })) }
  let t := if fencing then (t.reportFence c q).stranded c else t
  (distinct (uses.map (·.g))).foldl State.settle t

/-- SELF_TEST (R272). -/
def execSelfTest (c q : Nat) (pass1 pass2 : Bool) (s : State) : Out :=
  .next (if q < 4 && c < 48 && s.testDue c q then s.tested c q pass1 pass2 else s)

/-- Quadrants fenced by the host (R271): at once, with no record (R322). -/
def State.fenceQuads (s : State) (c : Nat) (v : BitVec 4) : State :=
  (s.setCore c { s.core c with fenced := (s.core c).fenced ||| v }).stranded c

/-- Self-tests requested by the host (R271). -/
def State.retestQuads (s : State) (c : Nat) (v : BitVec 4) : State :=
  s.setCore c { s.core c with testPending := (s.core c).testPending ||| v }

/-- MXCTL_FENCE (R271): quadrants fenced at once, with no record (R322). -/
def execMxctlFence (c : Nat) (v : BitVec 4) (s : State) : Out := .next (s.fenceQuads c v)

/-- RETEST (R271): self-tests requested. -/
def execRetest (c : Nat) (v : BitVec 4) (s : State) : Out := .next (s.retestQuads c v)

end Sys2Proof.Machine
end

