-- ==== Sys2Proof/Machine/Launch.lean ====
section
/-! DEFINITION. Launch (R185, R186, R280 to R294, R301): packets, kernel descriptors, launch records, graph nodes, the
dispatch of clusters, the end of workgroups and grids, and DLAUNCH. -/

namespace Sys2Proof.Machine

/-! ### Packets (R280, R281) -/

/-- `n` bytes of a packet, a descriptor or a table entry at an offset, as a number (R3). -/
def fieldAt (bs : List Byte) (off n : Nat) : Nat := leNat ((bs.drop off).take n)

/-- Whether the bytes from offset `a` up to `b` are zero. -/
def zeroIn (bs : List Byte) (a b : Nat) : Bool := ((bs.drop a).take (b - a)).all (fun x => x = 0)

/-- TYPE (R280). -/
def pktType (p : List Byte) : Nat := fieldAt p 0 1

/-- FLAGS of a LAUNCH packet (R281): IND, SIG and RMEN. -/
def pktInd (p : List Byte) : Bool := fieldAt p 1 1 % 2 = 1
def pktSig (p : List Byte) : Bool := fieldAt p 1 1 / 2 % 2 = 1
def pktRmen (p : List Byte) : Bool := fieldAt p 1 1 / 4 % 2 = 1

/-- Whether the type is one of R280 and every byte and flag that its fields leave over is zero. -/
def reservedZero (p : List Byte) : Bool :=
  match pktType p with
  | 0 => zeroIn p 1 64
  | 1 => fieldAt p 1 1 < 8 && zeroIn p 57 64 && (pktRmen p || fieldAt p 56 1 = 0)
  | 2 => fieldAt p 1 1 < 2 && zeroIn p 2 4 && zeroIn p 16 64
  | 3 => fieldAt p 1 1 < 2 && zeroIn p 2 8 && zeroIn p 24 64
  | 4 => fieldAt p 1 1 < 4 && zeroIn p 4 8 && zeroIn p 24 64
  | 5 => zeroIn p 1 64
  | _ => false

/-- Whether a packet at the head of a host queue is well formed (R277, R280): its reserved bytes, and the alignment and the
limits of the fields of the types other than LAUNCH (log 34). -/
def pktOk (p : List Byte) : Bool :=
  reservedZero p &&
    (match pktType p with
     | 2 => fieldAt p 1 1 = 0 || fieldAt p 8 8 % 8 = 0
     | 3 => fieldAt p 1 1 = 0 || fieldAt p 8 8 % 8 = 0
     | 4 => fieldAt p 8 8 % 8 = 0 && fieldAt p 2 2 < 2048
     | _ => true)

/-! ### Descriptors (R152 to R154) -/

/-- An entry of the exchange-slot table (R154). Its reserved bytes are not read (DESIGN CHOICE, log 95). -/
def slotOf (b : List Byte) : XSlot := ⟨fieldAt b 0 1, fieldAt b 1 1, fieldAt b 2 1, fieldAt b 8 8⟩

/-- The kernel that a descriptor describes (R153), with `wgl` for its lanes when WGLANES is 0. Entries of GROUPS and QCAP from
NSTAGE on are not read (DESIGN CHOICE, log 83), nor is IDEM: NIDEM alone says how many region records there are (DESIGN CHOICE,
log 94). -/
def kernelOf (d : List Byte) (wgl : Nat) (slots : List XSlot) (regions : List (Dword × Dword)) : Kernel :=
  { mode := fieldAt d 4 4 % 4, entry := BitVec.ofNat 64 (fieldAt d 8 8)
    lanes := if fieldAt d 16 4 = 0 then wgl else fieldAt d 16 4
    cluster := fieldAt d 20 2, vfloor := fieldAt d 24 2, vpeak := fieldAt d 26 2, sfloor := fieldAt d 28 2
    speak := fieldAt d 30 2, scratch := fieldAt d 32 4, child := fieldAt d 36 4
    stages := (List.range (fieldAt d 22 2)).map (fun k => (fieldAt d (40 + 4 * k) 2, fieldAt d (42 + 4 * k) 2))
    slots := slots, regions := regions }

/-- Whether a descriptor keeps R153: VERSION, the reserved bytes, and the limits of R152. An ENTRY that is not a multiple of 4 is
accepted, and words are fetched from there on (DESIGN CHOICE, log 77); so are a used exchange slot with MAX 0 and a region record
whose begin is not below its end (DESIGN CHOICE, log 116). -/
def descOk (d : List Byte) : Bool :=
  let lanes := fieldAt d 16 4
  fieldAt d 0 4 = 1 && fieldAt d 4 4 < 8 && fieldAt d 4 4 % 4 != 3 && zeroIn d 96 128 &&
    (lanes = 0 || (32 ≤ lanes && lanes ≤ 32768 && lanes % 32 = 0)) &&
    1 ≤ fieldAt d 20 2 && fieldAt d 20 2 ≤ 4 && fieldAt d 22 2 ≤ 8 && (fieldAt d 22 2 = 0 || lanes != 0) &&
    fieldAt d 24 2 ≤ fieldAt d 26 2 && fieldAt d 26 2 ≤ 752 && fieldAt d 28 2 ≤ fieldAt d 30 2 &&
    2 ≤ fieldAt d 30 2 && fieldAt d 30 2 ≤ 240 && fieldAt d 32 4 ≤ 8192 && fieldAt d 36 4 ≤ 65535 && fieldAt d 80 4 ≤ 64

/-- The data lines of one output queue (R232). -/
def queueLines (cap : Nat) : Nat := (4 * cap + 127) / 128

/-- The scratchpad lines that stage declarations need (R232). -/
def Kernel.stageLines (k : Kernel) : Nat :=
  if k.stages.isEmpty then 0 else 8 + (k.stages.map (fun p => queueLines p.2)).sum

/-! ### Launch records (R285) -/

/-- Placement entry `k` (R281, R286). -/
def LRec.entry (r : LRec) (k : Nat) : Nat := r.place.toNat / 4 ^ (k % 32) % 4

/-- The workgroups and the clusters of a grid. -/
def LRec.total (r : LRec) : Nat := r.gx * r.gy * r.gz
def LRec.clusters (r : LRec) : Nat := r.total / r.kern.cluster

/-- The lowest cluster at or after `c` that is placed on die `d` (R286); the number of clusters when there is none. -/
def LRec.nextOn (r : LRec) (d c : Nat) : Nat :=
  ((List.range 33).findSome? (fun i =>
    let b := c / r.cpb + i
    let lo := max c (b * r.cpb)
    if lo < r.clusters && r.entry b = d then some lo else none)).getD r.clusters

/-- Whether every cluster has been dispatched. -/
def LRec.allOut (r : LRec) : Bool := (List.range 4).all (fun d => r.next.getD d 0 ≥ r.clusters)

/-- The state of a record whose context is active or not (R285, R297). -/
def LRec.stateFor (r : LRec) (active : Bool) : RecState :=
  if r.allOut then .drainingOut else if active then .dispatching else .stopped

/-- The dies that a grid's clusters use (R284). -/
def LRec.diesUsed (r : LRec) : List Nat :=
  (List.range 4).filter (fun d => (List.range (min 32 ((r.clusters + r.cpb - 1) / r.cpb))).any (fun k => r.entry k = d))

/-- The core of rank `k` in RANKMAP (R281). -/
def rankCore (m : BitVec 8) (k : Nat) : Nat := m.toNat / 4 ^ k % 4

/-- Whether the RANKMAP entries of the ranks are distinct. -/
def ranksDistinct (m : BitVec 8) (n : Nat) : Bool :=
  let l := (List.range n).map (rankCore m)
  (distinct l).length = l.length

/-- Whether context `k` holds as many launch records as it can (R283, R285). -/
def State.recsFull (s : State) (k : Nat) : Bool := 256 ≤ (s.ctx k).recs.length

/-- The lowest free record number of a context. -/
def Ctx.freeRec (c : Ctx) : Nat := ((List.range 257).find? (fun i => (Fmap.find c.recs i).isNone)).getD 256

/-! ### Completion words -/

/-- The 64-bit word at a virtual address changed by the firmware core (R280, R287); none where it does not translate. -/
def State.updateWord (s : State) (k : Nat) (va : Dword) (f : Nat → Nat) : Option State :=
  match s.ctxRead k 0 va 8 with
  | some bs => s.ctxWrite k 0 va (leBytes 8 (f (leNat bs)))
  | none => none

/-- SIGA decremented (R287), or the record SIGNAL_FAULT. -/
def State.signalDone (s : State) (k : Nat) (siga : Dword) (queue : Nat) : State :=
  match s.updateWord k siga (fun x => x + (2 ^ 64 - 1)) with
  | some t => t
  | none => s.record k 16 0 noCore 0 noWg siga.toNat queue

/-! ### Processing a LAUNCH packet (R284) -/

/-- The fields of a LAUNCH packet (R281). -/
def pktDesc (p : List Byte) : Nat := fieldAt p 16 8
def pktSiga (p : List Byte) : Nat := fieldAt p 40 8
def pktInda (p : List Byte) : Nat := fieldAt p 48 8

/-- What step 2 reads: the descriptor, the two tables and GX. -/
structure LaunchRead where
  desc : List Byte
  slots : List XSlot
  regions : List (Dword × Dword)
  gx : Nat

/-- Entries of `n` bytes of a table in the memory of context `k`. -/
def State.tableRead (s : State) (k va n count : Nat) : Option (List (List Byte)) :=
  (List.range count).mapM (fun j => s.ctxRead k 0 (BitVec.ofNat 64 (va + n * j)) n)

/-- Step 2 of R284; none where a read does not translate. -/
def State.launchRead (s : State) (k : Nat) (p : List Byte) : Option LaunchRead :=
  match s.ctxRead k 0 (BitVec.ofNat 64 (pktDesc p)) 128 with
  | none => none
  | some d =>
    let nx := fieldAt d 80 4
    match s.tableRead k (fieldAt d 72 8) 16 (if nx ≤ 64 then nx else 0), s.tableRead k (fieldAt d 88 8) 16 (fieldAt d 84 4),
      (if pktInd p then (s.ctxRead k 0 (BitVec.ofNat 64 (pktInda p)) 4).map leNat else some (fieldAt p 4 4)) with
    | some xs, some is, some gx =>
      some ⟨d, xs.map slotOf, is.map (fun b => (BitVec.ofNat 64 (fieldAt b 0 8), BitVec.ofNat 64 (fieldAt b 8 8))), gx⟩
    | _, _, _ => none

/-- The record that a packet asks for. -/
def launchRecord (p : List Byte) (r : LaunchRead) (queue : Nat) (node : Option Nat) (order : Nat) : LRec :=
  let kern := kernelOf r.desc (fieldAt p 12 4) r.slots r.regions
  let l : LRec :=
    { desc := BitVec.ofNat 64 (pktDesc p), gx := r.gx, gy := fieldAt p 8 2, gz := fieldAt p 10 2, next := [], ended := 0
      state := .dispatching, node := node, childLeft := kern.child, queue := queue, sig := pktSig p
      siga := if pktSig p then BitVec.ofNat 64 (pktSiga p) else 0, args := BitVec.ofNat 64 (fieldAt p 24 8)
      cpb := fieldAt p 2 2, place := BitVec.ofNat 64 (fieldAt p 32 8), rmen := pktRmen p
      rankmap := BitVec.ofNat 8 (fieldAt p 56 1), kern := kern, order := order }
  { l with next := (List.range 4).map (fun d => l.nextOn d 0) }

/-- Whether a die can take work (R284, R327): in service, and one of the context's. -/
def State.dieUsable (s : State) (k d : Nat) : Bool :=
  (s.ctx k).dies.getLsbD d && (s.die d).alive && !(s.die d).lost

/-- The first check of the table of R284 that fails, in code order; 0 when all hold. -/
def State.launchCode (s : State) (k : Nat) (r : LaunchRead) (l : LRec) : Nat :=
  let x := l.kern
  let c := s.ctx k
  let blocks := x.lanes / 32
  if !descOk r.desc then 1
  else if (x.mode = 1 && !c.phased) || (x.mode = 2 && c.phased) then 2
  else if l.gx = 0 || 2147483648 ≤ l.gx || l.gy = 0 || l.gz = 0 || l.gx % x.cluster != 0 then 3
  else if x.lanes < 32 || 32768 < x.lanes || x.lanes % 32 != 0 ||
      (!x.stages.isEmpty && (x.stages.map (fun p => 32 * p.1)).sum != x.lanes) then 4
  else if l.cpb = 0 || l.diesUsed.any (fun d => !s.dieUsable k d) || (l.rmen && !ranksDistinct l.rankmap x.cluster) then 5
  else if poolSlices < x.vpeak * blocks || poolEntries < x.speak * blocks || 1024 < blocks || x.scratch < x.stageLines then 6
  else 0

/-- The record LAUNCH_REJECT (R284): of a packet that is no LAUNCH, and so has no DESC, with ADDR 0 (DESIGN CHOICE, log 125; of a
GRAPH, log 57). -/
def State.rejectRecord (s : State) (k code queue : Nat) (p : List Byte) : State :=
  s.record k 15 code noCore 0 noWg (if pktType p = 1 then pktDesc p else 0) queue

/-- A packet processed as R284 fixes: the state, and whether it has completed at once, by rejection or with no workgroup.
A packet from a device-launch queue or a node has its form checked here. -/
def State.launch (s : State) (k : Nat) (p : List Byte) (queue : Nat) (node : Option Nat) : State × Bool :=
  let sig := pktType p = 1 && pktSig p
  let fin := fun (t : State) => if sig then t.signalDone k (BitVec.ofNat 64 (pktSiga p)) queue else t
  let reject := fun (code : Nat) => (fin (s.rejectRecord k code queue p), true)
  if (1024 ≤ queue || node.isSome) && (pktType p != 1 || !reservedZero p) then reject 7
  else if pktDesc p % 128 != 0 then reject 1
  else if pktInd p && pktInda p % 4 != 0 then reject 7
  else if pktSig p && pktSiga p % 8 != 0 then (s.rejectRecord k 7 queue p, true)
  else match s.launchRead k p with
    | none => reject 8
    | some r =>
      if pktInd p && r.gx = 0 then (fin s, true)
      else
        let l := launchRecord p r queue node s.nextId
        let code := s.launchCode k r l
        if code != 0 then reject code
        else
          let c := s.ctx k
          let t := s.setCtx k { c with recs := Fmap.insert c.recs c.freeRec { l with state := l.stateFor (c.state = .active) } }
          (l.diesUsed.foldl (fun t d => t.touch k d) { t with nextId := t.nextId + 1 }, false)

/-! ### Graph nodes (R289 to R293) -/

/-- What is left to do after a node event. -/
inductive NodeWork where
  /-- Node `n` is done. -/
  | done (n : Nat)
  /-- The predecessor count of node `n` is decremented, for context `k` (R292). -/
  | dec (k n : Nat)
  /-- Node `n` is launched. -/
  | launch (n : Nat)
  /-- Graphs whose every node is done complete (R293). -/
  | check
deriving DecidableEq, Repr

/-- Successor `j` of a node (R289). -/
def Node.succAt (x : Node) (j : Nat) : Nat := (x.succ.extractLsb' (16 * j) 16).toNat
def Node.succs (x : Node) : List Nat := (List.range (min 8 x.nsucc)).map x.succAt

/-- The latest graph in progress that covers a node, which is the one that made it WAITING (R285, R290, R291). -/
def State.graphOf (s : State) (n : Nat) : Option Graph :=
  (s.graphs.filter (fun g => g.first ≤ n && n < g.first + g.count && g.ctx = (s.node n).ctx)).getLast?

/-- Whether every node of a graph is done. -/
def State.graphDone (s : State) (g : Graph) : Bool :=
  (List.range g.count).all (fun i => (s.node (g.first + i)).state = .done)

/-- The graphs that are complete end, and their words are decremented (R293). -/
def State.endGraphs (s : State) : State :=
  let done := s.graphs.filter s.graphDone
  done.foldl (fun t g => if g.sig then t.signalDone g.ctx g.siga g.queue else t)
    { s with graphs := s.graphs.filter (fun g => !s.graphDone g) }

/-- A node launched (R290): a NOP is done at once; while its context holds 256 launch records it stays WAITING with PRED 0
(log 35). -/
def State.launchNode (s : State) (n : Nat) : State × List NodeWork :=
  let x := s.node n
  if pktType x.pkt = 0 then (s, [.done n])
  else if s.recsFull x.ctx then (s, [])
  else
    let q := match s.graphOf n with | some g => g.queue | none => 0
    let r := (s.setNode n { x with state := .launched }).launch x.ctx x.pkt q (some n)
    (r.1, if r.2 then [.done n] else [])

/-- One piece of work, and the work that follows from it at once. -/
def State.nodeStep (s : State) (w : NodeWork) : State × List NodeWork :=
  match w with
  | .done n =>
    let x := s.node n
    (s.setNode n { x with state := .done }, x.succs.map (.dec x.ctx) ++ [.check])
  | .dec k n =>
    let x := s.node n
    if x.pred = 0 || x.state != .waiting then (s.record k 17 0 noCore 0 noWg 0 n, [])
    else (s.setNode n { x with pred := x.pred - 1 }, if x.pred = 1 then [.launch n] else [])
  | .launch n => s.launchNode n
  | .check => (s.endGraphs, [])

/-- Work done to its end; each node is launched at most once in a graph, so `fuel` suffices. -/
def State.nodeRun (s : State) (fuel : Nat) (ws : List NodeWork) : State :=
  match fuel with
  | 0 => s
  | k + 1 =>
    match ws with
    | [] => s
    | w :: t =>
      let r := s.nodeStep w
      r.1.nodeRun k (r.2 ++ t)

/-- A bound on the work that one event on nodes can lead to: for each of 16,384 nodes a launch, an end, a check and eight
decrements. -/
def nodeFuel : Nat := 16384 * 12

/-- Nodes and the work on them. -/
def State.nodeWork (s : State) (ws : List NodeWork) : State := s.nodeRun nodeFuel ws

/-- The nodes of context `k` that wait only for a launch record (log 35). -/
def State.heldNodes (s : State) (k : Nat) : List Nat :=
  Fmap.keys (Fmap.select s.nodes (fun n x => x.ctx = k && x.state = .waiting && x.pred = 0 && (s.graphOf n).isSome))

/-- Whether a GRAPH packet is rejected with GRAPHRANGE (R291). -/
def State.graphBad (s : State) (k first count : Nat) : Bool :=
  count = 0 || 16384 < first + count ||
    (List.range count).any (fun i =>
      let x := s.node (first + i)
      !x.valid || x.ctx != k || x.state = .waiting || x.state = .launched ||
        x.succs.any (fun j => j < first || first + count ≤ j))

/-- A GRAPH packet (R291). -/
def State.graphPacket (s : State) (k queue : Nat) (p : List Byte) : State :=
  let first := fieldAt p 4 2
  let count := fieldAt p 6 2
  if s.graphBad k first count then s.rejectRecord k 9 queue p
  else
    let ns := (List.range count).map (first + ·)
    let t := ns.foldl (fun t n => t.setNode n { t.node n with state := .waiting, pred := (t.node n).init }) s
    let g : Graph := ⟨k, queue, first, count, fieldAt p 1 1 = 1, BitVec.ofNat 64 (fieldAt p 8 8)⟩
    let first := (ns.filter (fun n => (s.node n).init = 0)).map NodeWork.launch
    let t : State := { t with graphs := t.graphs ++ [g] }
    t.nodeWork (first ++ [.check])

/-! ### Placement (R11, R61, R286) -/

/-- What a workgroup needs of its core: group slots, scratchpad lines, its reservation, and the slices and entries that it
takes from the pool at once. -/
structure Need where
  slots : Nat
  lines : Nat
  resV : Nat
  resS : Nat
  takeV : Nat
  takeS : Nat
deriving DecidableEq, Repr

/-- What a workgroup of a kernel needs: its reservation, and with it the two entries that the launch allocates in every group,
which go beyond a reservation that is smaller (R60, R61, R282). -/
def Kernel.need (k : Kernel) : Need :=
  let n := k.lanes / 32
  ⟨n, k.scratch, k.vfloor * n, k.sfloor * n, k.vfloor * n, max (k.sfloor * n) (2 * n)⟩

/-- Whether a workgroup holds group slots. -/
def WgState.holdsSlots (t : WgState) : Bool := t = .resident || t = .evicting || t = .evicted

/-- Whether something still reaches the scratchpad of workgroup `k`, so that it is not released yet (R106, R188). -/
def State.spadBusy (s : State) (k : Nat) : Bool :=
  s.stores.any (fun p => p.2.peer = some k) ||
    s.mops.any (fun p => p.2.descA.wg = k || p.2.descB.wg = k || p.2.descC.wg = k || p.2.wg = k) ||
    s.engs.any (fun p => p.2.wg = k) || s.colls.any (fun c => match c.here with | some l => l.wg = k | none => false)

/-- The scratchpad lines of core `c` on which operations hold pending counts, also where their workgroup has ended (R104,
R106). -/
def State.countedLines (s : State) (c : Nat) : List (Nat × Nat) :=
  let first := spadLoc c 0 / 128
  s.engs.flatMap (fun p => ((Fmap.keys p.2.lines).filter (fun l => first ≤ l && l < first + 8192)).map (fun l => (l - first, 1)))

/-- The scratchpad allocations of core `c` that are not released: first line and number of lines. -/
def State.spadHeld (s : State) (c : Nat) : List (Nat × Nat) :=
  s.wgs.filterMap (fun p =>
    if p.2.core = c && 0 < p.2.lines && (p.2.state.holdsSlots || (p.2.state != .saved && s.spadBusy p.1)) then
      some (p.2.line0, p.2.lines) else none) ++ s.countedLines c

/-- The first line of the lowest free run of `n` lines on core `c` (DESIGN CHOICE, log 36). -/
def State.spadFit (s : State) (c n : Nat) : Option Nat :=
  let held := s.spadHeld c
  let free := fun (a : Nat) => a + n ≤ 8192 && held.all (fun p => a + n ≤ p.1 || p.1 + p.2 ≤ a)
  if n = 0 then some 0 else ((0 :: held.map (fun p => p.1 + p.2)).filter free).min?

/-- The group slots of core `c` in use (R10). -/
def State.usedSlots (s : State) (c : Nat) : List Nat :=
  s.wgs.flatMap (fun p => if p.2.core = c && p.2.state.holdsSlots then p.2.slots else [])

/-- Whether core `c` can take a workgroup (R61, R286). -/
def State.coreTakes (s : State) (c : Nat) (n : Need) : Bool :=
  (s.usedSlots c).length + n.slots ≤ 1024 && (s.spadFit c n.lines).isSome && n.takeV ≤ s.vfree c && n.takeS ≤ s.sfree c

/-- The cores of the lowest facet of die `d` on which the members of these ranks can be placed, in their order (R286). -/
def pickCores (ok : Nat → Bool) (d : Nat) (ranks : List Nat) (rmen : Bool) (map : BitVec 8) : Option (List Nat) :=
  (List.range 3).findSome? (fun f =>
    let core := fun (j : Nat) => 12 * d + 4 * f + j
    if rmen then
      let cs := ranks.map (fun k => core (rankCore map k))
      if cs.all ok then some cs else none
    else
      let cs := ((List.range 4).map core).filter ok
      if ranks.length ≤ cs.length then some (cs.take ranks.length) else none)

/-! ### Dispatch -/

/-- Whether core `c` is in the window in which it dispatches (R43). -/
def State.dispatchOpen (s : State) (c : Nat) : Bool :=
  let k := s.core c
  !k.exchange && !k.token && !k.relPending && (s.die (dieOfCore c)).alive && s.dieRuns (dieOfCore c)

/-- The stage of the launch group `j` (R12, R152). -/
def stageOf (stages : List (Nat × Nat)) (j : Nat) : Nat :=
  match stages with
  | [] => 0
  | p :: t => if j < p.1 || t.isEmpty then 0 else 1 + stageOf t (j - p.1)

/-- Entries of a map whose keys lie outside [a, b). -/
def outside {α : Type} (m : Fmap α) (a b : Nat) : Fmap α := Fmap.select m (fun k _ => k < a || b ≤ k)

/-- The lines from `loc` on as at dispatch (R103): zero, full, ordinary, with the tag 0x7F00 (R72). -/
def State.clearPad (s : State) (loc lines : Nat) : State :=
  let n := 128 * lines
  { s with
      mem := outside s.mem loc (loc + n), tags := outside s.tags (loc / 64) ((loc + n) / 64)
      poison := outside s.poison (loc / 8) ((loc + n) / 8), tagPoison := outside s.tagPoison (loc / 64) ((loc + n) / 64)
      lines := outside s.lines (loc / 128) ((loc + n) / 128) }

/-- The output queue of stage `k` (R232): its line's fields, and the mark of the line. -/
def State.makeQueue (s : State) (loc k cap base : Nat) : State :=
  let l := loc + 128 * k
  let bytes := leBytes 4 0 ++ leBytes 4 0 ++ leBytes 4 cap ++ leBytes 4 base ++ leBytes 4 k
  (s.storeCells (cellsOf l bytes)).setLine l { Line.reset with queue := true }

/-- The output queues of a workgroup whose scratchpad begins at `loc`. -/
def State.makeQueues (s : State) (loc : Nat) (stages : List (Nat × Nat)) (k line : Nat) : State :=
  match stages with
  | [] => s
  | p :: t =>
    let s := if p.2 = 0 then s else s.makeQueue loc k p.2 (128 * line)
    s.makeQueues loc t (k + 1) (line + queueLines p.2)

/-- One group launched with its argument registers (R9, R12, R45, R282). -/
def State.launchGroup (s : State) (k j : Nat) (kern : Kernel) (args : Dword) (ck : Nat) : State :=
  let g := s.nextId
  let x : Group :=
    { Group.fresh with wg := k, base := 32 * j, stage := stageOf kern.stages j, pc := kern.entry, readySince := ck }
  ({ s with nextId := g + 1 }.setGroup g x).putS2 g 58 args

/-- One workgroup placed on core `c` (R8, R60, R103, R282). -/
def State.startWg (s : State) (k c rank : Nat) (members : List Nat) (ctx rec_ : Nat) (r : LRec) (linear : Nat) : State :=
  let x := r.kern
  let n := x.need
  let line0 := (s.spadFit c n.lines).getD 0
  let w : Wg :=
    { ctx := ctx, record := rec_, linear := linear, idx := linear % r.gx, idy := linear / r.gx % r.gy
      idz := linear / r.gx / r.gy, gx := r.gx, gy := r.gy, gz := r.gz, core := c, rank := rank, members := members
      lanes := x.lanes, kern := x, line0 := line0, lines := n.lines, resV := n.resV, resS := n.resS
      peakV := x.vpeak * n.slots, peakS := x.speak * n.slots, state := .resident, order := k, excessV := 0, excessS := 0
      slots := freshIds (s.usedSlots c) n.slots }
  let t := (s.setWg k w).clearPad (spadLoc c (128 * line0)) n.lines
  let t := (t.makeQueues (spadLoc c (128 * line0)) x.stages 0 8).clearL1 c
  (List.range n.slots).foldl (fun t j => t.launchGroup k j x r.args (s.die (dieOfCore c)).ck.toNat) t

/-- The next cluster of record `i` of context `k` on die `d` dispatched onto cores `cs` (R11, R286). -/
def State.startCluster (s : State) (k i d : Nat) (r : LRec) (cs : List Nat) : State :=
  let c := r.next.getD d 0
  let ids := (List.range cs.length).map (s.nextId + ·)
  let t := { s with nextId := s.nextId + cs.length }
  let t := (List.range cs.length).foldl (fun t j =>
    t.startWg (ids.getD j 0) (cs.getD j 0) j ids k i r (c * r.kern.cluster + j)) t
  let x := t.ctx k
  t.setCtx k { x with recs := Fmap.adjust x.recs i (fun y =>
    let z := { y with next := y.next.set d (y.nextOn d (c + 1)) }
    { z with state := z.stateFor true }) }

/-- Whether context `k` has workgroups to restore, which come before any new cluster (R299). -/
def State.hasSaved (s : State) (k : Nat) : Bool := s.wgs.any (fun p => p.2.ctx = k && p.2.state = .saved)

/-- An element put into a list that rises by `key`, after those of the same key. -/
def insertBy {α : Type} (key : α → Nat) (x : α) (l : List α) : List α :=
  match l with
  | [] => [x]
  | y :: t => if key x < key y then x :: y :: t else y :: insertBy key x t

/-- A list in rising order of `key`, equal keys in their order. -/
def sortBy {α : Type} (key : α → Nat) (l : List α) : List α := l.foldl (fun m x => insertBy key x m) []

/-- The records of the active contexts, in the order of their creation (R286). -/
def State.openRecords (s : State) : List (Nat × Nat × LRec) :=
  let all := s.ctxs.flatMap (fun p =>
    if p.2.state = .active && !s.hasSaved p.1 then p.2.recs.map (fun r => (p.1, r.1, r.2)) else [])
  sortBy (fun p => p.2.2.order) all

/-- CLUSTER_DISPATCH (R286): die `d` dispatches the next cluster of its first record whose next cluster fits. -/
def execClusterDispatch (d : Nat) (s : State) : Out :=
  .next ((s.openRecords.findSome? (fun p =>
    let r := p.2.2
    if r.clusters ≤ r.next.getD d r.clusters then none
    else (pickCores (fun c => s.dispatchOpen c && s.coreTakes c r.kern.need) d (List.range r.kern.cluster) r.rmen
      r.rankmap).map
      (fun cs => s.startCluster p.1 p.2.1 d r cs))).getD s)

/-! ### The end of workgroups and grids -/

/-- WORKGROUP_END (R188): a workgroup whose groups have all exited and whose engine operations have completed; its X-class transfers
are none of these (R234) and run on, with its scratchpad held until they are done (DESIGN CHOICE, log 105). An evicted one returns
first (R301). While its context drains, its end requests a boundary (R297). -/
def execWorkgroupEnd (k : Nat) (s : State) : Out :=
  let w := s.wg k
  .next (if !w.state.onCore || s.groups.any (fun p => p.2.wg = k && p.2.status = .live) ||
      s.engs.any (fun p => p.2.wg = k && !p.2.kind.xclass) then s
    else
      let t := (s.setWg k { w with state := .ended }).countEnded k
      if (s.ctx w.ctx).state = .draining then t.request .boundary else t)

/-- GRID_COMPLETION (R287): a grid whose clusters are all dispatched and whose workgroups have all ended. -/
def execGridCompletion (k i : Nat) (s : State) : Out :=
  .next (match Fmap.find (s.ctx k).recs i with
    | none => s
    | some r =>
      if !r.allOut || r.ended != r.total || (s.die 0).lost then s
      else
        let t := if r.sig then s.signalDone k r.siga r.queue else s
        let t := match r.node with | some n => t.nodeWork [.done n] | none => t
        let t := t.setCtx k { t.ctx k with recs := Fmap.erase (t.ctx k).recs i }
        t.nodeWork ((t.heldNodes k).map NodeWork.launch ++ [.check]))

/-! ### DLAUNCH (R185, R186) -/

/-- DLAUNCH (R185). -/
def dlaunchBody (f : FmtDlaunch) (s : State) : Body :=
  let u : Use := { size := 64, align := 64, acc := .load }
  match s.checked u [⟨none, s.me.readS2 f.a.toNat⟩] with
  | .error b => b
  | .ok hs =>
    let dep := scalarDep s.me f.a
    s.consume hs (s.poisonedLoad dep hs 64) 0 1
      (let pkt := hs.flatMap (fun h => leBytes 64 (s.loadAt dep h.tgt 64))
       let t := s.modGroup s.cur (fun x => x.passing (s.nextId + 1) (s.passedBytes false 64 hs))
       let t := t.afterLoads u false (fun pa => s.sinceLoad dep pa 64) hs
       let c := t.ctx t.myCtx
       let left := match Fmap.find c.recs t.myWg.record with | some r => r.childLeft | none => 0
       if left = 0 then andNext (t.scalarArrives .dlaunch f.d.toNat false 1)
       else
         let t := t.setCtx t.myCtx { c with
           recs := Fmap.adjust c.recs t.myWg.record (fun r => { r with childLeft := r.childLeft - 1 }), dlq := c.dlq ++ [pkt] }
         andNext (t.scalarArrives .dlaunch f.d.toNat false 0))

/-- DLAUNCH (R185). -/
def execDlaunch (f : FmtDlaunch) (s : State) : Out := issue (Instr.info (.dlaunch f)) (dlaunchBody f) s

/-- DLAUNCH_ANSWER (R185). -/
def execDlaunchAnswer (op : Nat) (s : State) : Out := s.land op .dlaunch

end Sys2Proof.Machine
end

