-- ==== Sys2Proof/Machine/Context.lean ====
section
/-! DEFINITION. Contexts (R295 to R301): their creation, freeing and killing, pre-emption, the full save and the restore of
workgroups, and the switch at a boundary. -/

namespace Sys2Proof.Machine

/-! ### Contexts and their queues -/

/-- Every host queue that names context `k` changed by `f`. -/
def State.modQueuesOf (s : State) (k : Nat) (f : HQueue → HQueue) : State :=
  { s with queues := Fmap.mapVals (fun _ q => if q.ctx = k then f q else q) s.queues }

/-- A queue in FAULT with a code (R277). -/
def HQueue.fault (q : HQueue) (code : BitVec 8) : HQueue := { q with state := .fault, fcode := code }

/-- The state of an enabled queue whose context is in a state (R277, R296). -/
def CtxState.queueState (c : CtxState) : QState :=
  match c with
  | .active => .active
  | .killed => .fault
  | _ => .held

/-- The workgroups of context `k` that are not final (R301). -/
def State.liveWgs (s : State) (k : Nat) : List Nat :=
  Fmap.keys (Fmap.select s.wgs (fun _ w => w.ctx = k && w.state != .ended && w.state != .terminated))

/-- Every workgroup of context `k` terminated (R308). -/
def State.terminateAll (s : State) (k : Nat) : State := (s.liveWgs k).foldl State.terminate s

/-- Context `k` becomes KILLED (R277, R278, R296): its queues fault with CTXDEAD, and its launch records, its device-launch
queue and its graphs are discarded. -/
def State.kill (s : State) (k : Nat) : State :=
  let t := s.setCtx k { s.ctx k with state := .killed, recs := [], dlq := [] }
  let t := t.modQueuesOf k (fun q => if q.state = .disabled then q else q.fault 4)
  { t with graphs := t.graphs.filter (fun g => g.ctx != k) }

/-- A write of STATE = 1 to CXM_CTL (R295): MODE and DIES are taken and TOUCH is clear; the sequence numbers of RESUMABLE
records start again (R311). -/
def State.createCtx (s : State) (k : Nat) (v : Word) : State :=
  let c := s.ctx k
  if c.state != .free || v.toNat % 8 != 1 then s
  else s.setCtx k { c with state := .active, phased := v.getLsbD 3, dies := v.extractLsb' 4 4, touch := 0, seq := 0 }

/-- A write of STATE = 0 to CXM_CTL (R295). -/
def State.freeCtx (s : State) (k : Nat) (v : Word) : State :=
  let c := s.ctx k
  let may := c.state = .saved || c.state = .killed || (c.state = .active && c.recs.isEmpty && (s.liveWgs k).isEmpty)
  if !may || v.toNat % 8 != 0 then s
  else
    let t := s.setCtx k { c with state := .free, touch := 0, recs := [], dlq := [] }
    let t := t.terminateAll k
    let t := t.modQueuesOf k (fun q => { q with en := false, state := .disabled })
    { t with graphs := t.graphs.filter (fun g => g.ctx != k)
             root := { t.root with doomed := t.root.doomed.filter (fun d => d.1 != k) } }

/-- CONTEXT_CREATE (R295). -/
def execContextCreate (k : Nat) (v : Word) (s : State) : Out := .next (s.createCtx k v)

/-- CONTEXT_FREE (R295). -/
def execContextFree (k : Nat) (v : Word) (s : State) : Out := .next (s.freeCtx k v)

/-! ### Pre-emption requests (R296, R297) -/

/-- A write to CXM_PREEMPT (R295, R297): PERIOD and BOUND are taken; REQ = 1 in ACTIVE stops dispatch, holds the queues and
asks for a boundary. -/
def State.writePreempt (s : State) (k : Nat) (v : Dword) : State :=
  let c := { s.ctx k with period := v.extractLsb' 32 32, bound := v.extractLsb' 8 8 }
  if v.getLsbD 0 && c.state = .active then
    let t := s.setCtx k { c with state := .requested, recs := Fmap.mapVals (fun _ r => { r with state := r.stateFor false }) c.recs }
    (t.modQueuesOf k (fun q => if q.state = .active then { q with state := .held } else q)).request (.preempt k)
  else s.setCtx k c

/-- PREEMPTION_REQUEST (R297). -/
def execPreemptionRequest (k : Nat) (v : Dword) (s : State) : Out := .next (s.writePreempt k v)

/-- DRAIN_PERIOD (R297): while the context drains, a boundary is requested every PERIOD local cycles of die 0. -/
def execDrainPeriod (k : Nat) (s : State) : Out :=
  let c := s.ctx k
  let ck := (s.die 0).ck.toNat
  .next (if c.state = .draining && c.period != 0 && c.drainTimer + c.period.toNat ≤ ck then
    (s.setCtx k { c with drainTimer := ck }).request .boundary else s)

/-- A SAVED context becomes ACTIVE (R299): its queues and its records go on. -/
def State.resumeCtx (s : State) (k : Nat) : State :=
  let c := s.ctx k
  let t := s.setCtx k { c with state := .active, recs := Fmap.mapVals (fun _ r => { r with state := r.stateFor true }) c.recs }
  t.modQueuesOf k (fun q => if q.state = .held then { q with state := .active } else q)

/-! ### Moving a scratchpad -/

/-- Where the scratchpad of workgroup `k` stands while it is saved. -/
def savedLoc (k : Nat) : Nat := 18014398509481984 + k * 1048576

/-- Entries with keys in [a, a + n) moved to keys from `b` on, in place of those that stood there. -/
def moveKeys {α : Type} (m : Fmap α) (a n b : Nat) : Fmap α :=
  (Fmap.select m (fun k _ => a ≤ k && k < a + n)).foldl (fun m p => Fmap.insert m (p.1 - a + b) p.2)
    (outside (outside m a (a + n)) b (b + n))

/-- Memory with the bytes at [a, a + n) moved to `b`. -/
def moveBytes (m : List Host.Cell) (a n b : Nat) : List Host.Cell :=
  writeCells (outside (outside m a (a + n)) b (b + n))
    ((Fmap.select m (fun k _ => a ≤ k && k < a + n)).map (fun p => (p.1 - a + b, p.2)))

/-- A location that lies in [a, a + n) as it is after the move to `b`. -/
def movedLoc (a n b loc : Nat) : Nat := if a ≤ loc && loc < a + n then loc - a + b else loc

/-- A wait whose word or line has moved. -/
def Wait.moved (w : Wait) (a n b : Nat) : Wait :=
  match w.kind with
  | .barrier l x y z => { w with kind := .barrier (movedLoc a n b l) x y z }
  | .qpush l t v => { w with kind := .qpush (movedLoc a n b l) t v }
  | .qpop l t d m => { w with kind := .qpop (movedLoc a n b l) t d m }
  | _ => w

/-- An operation whose lines have moved. -/
def EngOp.moved (o : EngOp) (a n b : Nat) : EngOp :=
  { o with
      lines := o.lines.map (fun p => (movedLoc a n b (128 * p.1) / 128, p.2))
      wrote := o.wrote.map (fun p => (movedLoc a n b p.1, { p.2 with src := movedLoc a n b p.2.src })) }

/-- The scratchpad of `lines` lines at `a` moved to `b`: its bytes, tags, errors and lines, and what names places in it
(R298, R299). -/
def State.movePad (s : State) (a lines b : Nat) : State :=
  let n := 128 * lines
  { s with
      mem := moveBytes s.mem a n b
      tags := moveKeys s.tags (a / 64) (n / 64) (b / 64)
      poison := moveKeys s.poison (a / 8) (n / 8) (b / 8)
      tagPoison := moveKeys s.tagPoison (a / 64) (n / 64) (b / 64)
      lines := moveKeys s.lines (a / 128) lines (b / 128)
      groups := Fmap.mapVals (fun _ x => { x with wait := x.wait.map (fun w => w.moved a n b) }) s.groups
      engs := Fmap.mapVals (fun _ o => o.moved a n b) s.engs }

/-! ### Full save (R298) -/

/-- A wait that a descheduled group keeps (R192): QPUSH and QPOP are given up, and wait again at resume (R233). -/
def Wait.kept (w : Wait) : Bool :=
  match w.kind with
  | .qpush _ _ _ => false
  | .qpop _ _ _ _ => false
  | _ => true

/-- A descheduled group (R192): latches invalid, no HRUN run, and, unless it waits, an open bundle to be issued again. -/
def Group.descheduled (x : Group) : Group :=
  let y := { x.dropLatches with
    hrun := 0, stall := none, poolHold := none, issued := false, wait := x.wait.filter Wait.kept }
  if y.wait.isNone then y.toBoundary else y

/-- SIZE of a save or spill register (R295). -/
def areaSize (v : Dword) : Nat := v.toNat % 65536

/-- The units that workgroup `k` takes in a save area. -/
def State.saveNeed (s : State) (k : Nat) : Nat :=
  let w := s.wg k
  Config.saveUnits w.lanes (s.slicesOf k).length (s.entriesOf k).length w.lines

/-- The units taken in the save area of context `k` on die `d`. -/
def State.saveUsed (s : State) (k d : Nat) : Nat :=
  ((Fmap.keys (Fmap.select s.wgs (fun _ w => w.ctx = k && w.state = .saved && dieOfCore w.core = d))).map s.saveNeed).sum

/-- The reader counts of workgroup `k` moved from its core to its die (R122). -/
def State.saveReaders (s : State) (k : Nat) : State :=
  (s.groupsWhere (fun x => x.wg = k && x.status = .live && x.rdDepth != 0)).foldl (fun s p =>
    (s.modCnt (s.coreOf p.1) p.2.rdPar (· - 1)).modSaved (s.dieOf p.1) p.2.rdPar (· + 1)) s

/-- The PFDs of workgroup `k`, none of which has a line in flight, cancelled (R242): one whose every line was written is DONE
(R240). -/
def State.cancelFills (s : State) (k : Nat) : State :=
  (s.engs.filter (fun p => p.2.wg = k && p.2.kind = .pfd)).foldl
    (fun s p => s.endEng p.1 p.2 (if p.2.left.isEmpty then 0 else 1)) s

/-- What the hardware writes into a save or spill area (R64, R298): `units` units of 64 KiB somewhere in the area, in a form
that the spec does not give, so every byte of them is free (log 10). -/
def State.fillArea (s : State) (k d : Nat) (area : Dword) (units : Nat) : State :=
  let base := area.toNat / 65536 % 17592186044416 * 65536
  let first := base + 65536 * (Config.areaPlace s.free % (areaSize area + 1 - units))
  let cell := fun (i : Nat) => match s.ctxTarget k d (BitVec.ofNat 64 (first + i)) .store with
    | .memory pa _ _ _ => if (s.die (paDie pa)).lost then none else some (pa, Config.areaByte s.free i)
    | _ => none
  s.drawn.storeCells ((List.range (65536 * units)).filterMap cell)

/-- A full save of workgroup `k` (R298): its state goes off its core, and what is written of it into the save area of its die is
free; or, where the area has no room, it is terminated with the record SAVE_OVERFLOW. -/
def State.fullSave (s : State) (k : Nat) : State :=
  let w := s.wg k
  let d := dieOfCore w.core
  if areaSize (Fmap.get 0 (s.ctx w.ctx).save d) < s.saveUsed w.ctx d + s.saveNeed k then
    (s.record w.ctx 19 d w.core 0 w.linear 0 0).terminate k
  else
    let t := (s.cancelFills k).saveReaders k
    let t : State := { t with pend := t.pend.filter (fun p => !(p.2.wg = k && p.2.kind = .slow)) }
    let t := t.modGroupsOf k (fun x => if x.status = .live then x.descheduled else x)
    let t := t.movePad (spadLoc w.core (128 * w.line0)) w.lines (savedLoc k)
    (t.fillArea w.ctx d (Fmap.get 0 (s.ctx w.ctx).save d) (s.saveNeed k)).setWg k { w with state := .saved, slots := [] }

/-! ### Restore (R299) -/

/-- A number looked up in pairs; one that is not there stays. -/
def renamed (m : List (Nat × Nat)) (i : Nat) : Nat := (m.find? (fun p => p.1 = i)).elim i (·.2)

/-- A group whose slices and entries have new numbers. -/
def Group.renumbered (x : Group) (fv fs : Nat → Nat) : Group :=
  let gv := fun (m : Fmap Slice) => Fmap.mapVals (fun _ a => { a with id := fv a.id }) m
  let gs := fun (m : Fmap Entry) => Fmap.mapVals (fun _ a => { a with id := fs a.id }) m
  { x with v := gv x.v, s := gs x.s, region := x.region.map (fun r => { r with v := gv r.v, s := gs r.s }) }

/-- The registers of workgroup `k` under new numbers on core `c` (log 12). -/
def State.renumber (s : State) (k c : Nat) : State :=
  let vs := s.slicesOf k
  let es := s.entriesOf k
  let fv := renamed (vs.zip (freshIds (s.usedSlices c) vs.length))
  let fs := renamed (es.zip (freshIds (s.usedEntries c) es.length))
  let t := s.modGroupsOf k (fun x => x.renumbered fv fs)
  { t with pend := Fmap.mapVals (fun _ p =>
      if p.wg = k then { p with core := c, slices := p.slices.map fv, entries := p.entries.map fs } else p) t.pend }

/-- An entry bound to operation `op` holds the pending word `w` (R234). -/
def Entry.rebound (e : Entry) (op : Nat) (w : Word) : Entry := if e.fut = some op then { e with val := w } else e

/-- Operation `op` of workgroup `k` with handle number `h`: every name bound to it holds the new pending word (R234). -/
def State.setHandle (s : State) (k op h : Nat) : State :=
  let up := fun (m : Fmap Entry) => Fmap.mapVals (fun _ e => e.rebound op (handleWord h)) m
  ((s.modEng op (fun o => { o with handle := h })).modGroupsOf k (fun x =>
    { x with s := up x.s, region := x.region.map (fun r => { r with s := up r.s }) })).drawn

/-- Operations of workgroup `k` with handle numbers outside `used` and outside those given before them. -/
def State.setHandles (s : State) (k : Nat) (used ops : List Nat) : State :=
  match ops with
  | [] => s
  | op :: rest => (s.setHandle k op (s.pickHandle used)).setHandles k (s.pickHandle used :: used) rest

/-- The parked operations of workgroup `k` get handle numbers that no other operation of its core has (R234). -/
def State.rehandle (s : State) (k : Nat) : State :=
  let mine := s.engs.filter (fun p => p.2.wg = k)
  s.setHandles k (((s.engsOn (s.wg k).core).filter (fun p => p.2.wg != k)).map (·.2.handle)) (Fmap.keys mine)

/-- Workgroup `k` restored on core `c` (R11, R122, R299), with an acquire at die scope on a new core, and at workgroup
scope on its own (R102, R118). -/
def State.restoreWg (s : State) (k c : Nat) : State :=
  let w := s.wg k
  let n := w.kern.need
  let line0 := (s.spadFit c n.lines).getD 0
  let slots := freshIds (s.usedSlots c) n.slots
  let t := s.renumber k c
  let t := (t.groupsWhere (fun x => x.wg = k && x.status = .live && x.rdDepth != 0)).foldl (fun t p =>
    (t.modSaved (dieOfCore c) p.2.rdPar (· - 1)).modCnt c p.2.rdPar (· + 1)) t
  let t := t.clearPad (spadLoc c (128 * line0)) n.lines
  let t := t.movePad (savedLoc k) n.lines (spadLoc c (128 * line0))
  let t := if c = w.core then t.resynced k else t.clearL1 c
  (t.setWg k { w with core := c, line0 := line0, slots := slots, state := .resident }).rehandle k

/-- The saved members of each cluster of the active contexts of a mode on die `d`, in the order of their dispatch. -/
def State.savedClusters (s : State) (d : Nat) (phased : Bool) : List (List Nat) :=
  let saved := fun (k : Nat) => (s.wg k).state = .saved
  (s.wgs.filter (fun p => p.2.state = .saved && dieOfCore p.2.core = d && (s.ctx p.2.ctx).state = .active &&
      (s.ctx p.2.ctx).phased = phased && p.2.members.find? saved = some p.1)).map (fun p => p.2.members.filter saved)

/-- The cores on which a cluster's saved members are restored: those that its ranks have where a core that has started this
superstep and not arrived can take each of them, with the registers and the parked operations that they hold (R61, log 8,
log 85); as at dispatch, those of the lowest facet that has such (DESIGN CHOICE, log 36). -/
def State.restoreCores (s : State) (ks : List Nat) (d : Nat) : Option (List Nat) :=
  let w := s.wg (ks.head?.getD 0)
  let n := { w.kern.need with
    takeV := (ks.map (fun k => max (s.wg k).resV (s.slicesOf k).length)).foldl max 0
    takeS := (ks.map (fun k => max (s.wg k).resS (s.entriesOf k).length)).foldl max 0 }
  let open_ := fun (c : Nat) =>
    let x := s.core c
    !x.relPending && !x.arrived && x.ph = s.root.ph && (x.exchange || !x.token) && s.coreTakes c n &&
      s.heldOn c + (s.engs.filter (fun p => ks.contains p.2.wg)).length ≤ 4096
  match Fmap.find (s.ctx w.ctx).recs w.record with
  | some r => pickCores open_ d (ks.map (fun k => (s.wg k).rank)) r.rmen r.rankmap
  | none => none

/-- Saved clusters restored on die `d` at a release (R299); groups that are blocked in PHEND continue in the exchange
superstep that has started. -/
def State.restoreOn (s : State) (d : Nat) : State :=
  let exchange := s.root.ph.getLsbD 0
  (s.savedClusters d exchange).foldl (fun s ks =>
    match s.restoreCores ks d with
    | none => s
    | some cs =>
      let t := (ks.zip cs).foldl (fun t p => t.restoreWg p.1 p.2) s
      if !exchange then t
      else
        (Fmap.keys (t.groupsWhere (fun x => ks.contains x.wg && x.status = .live &&
          (match x.wait with | some ⟨.phend, _, _, _⟩ => true | _ => false)))).foldl State.endWait t) s

/-! ### The switch (R297) -/

/-- The workgroups of context `k` that remain. -/
def State.remaining (s : State) (k : Nat) : List Nat :=
  Fmap.keys (Fmap.select s.wgs (fun _ w => w.ctx = k && w.state.holdsSlots))

/-- Whether every live group of workgroup `k` is inside an idempotent region (R297). -/
def State.discardable (s : State) (k : Nat) : Bool :=
  s.groups.all (fun p => p.2.wg != k || p.2.status != .live || p.2.region.isSome)

/-- Whether the switch of a draining context takes place at this boundary (R297). -/
def State.switches (s : State) (k : Nat) : Bool :=
  (s.remaining k).all s.discardable || (s.ctx k).drain = (s.ctx k).bound.toNat

/-- Whether what a full save waits for is over for workgroup `k` (R240, R298): engine operations that are not parked, of a PFD
its lines in flight, and matrix operations. -/
def State.saveReady (s : State) (k : Nat) : Bool :=
  !(s.engs.any (fun p => p.2.wg = k && p.2.parkSeq.isNone && (p.2.kind != .pfd || !p.2.issued.isEmpty))) &&
    !(s.mops.any (fun p => p.2.wg = k))

/-- Every group of workgroup `k` rolled back to its region's entry. -/
def State.discard (s : State) (k : Nat) : State :=
  (Fmap.keys (s.groupsWhere (fun x => x.wg = k && x.status = .live && !x.abandons))).foldl State.rollbackNow s

/-- A draining context at a compute-end boundary (R297). -/
def State.drainStep (s : State) (k : Nat) : State :=
  if !s.switches k then s.setCtx k { s.ctx k with drain := (s.ctx k).drain + 1 }
  else
    let t := ((s.remaining k).filter s.discardable).foldl State.discard s
    let t := (s.remaining k).foldl State.fullSave t
    (t.setCtx k { t.ctx k with state := .saved }).record k 18 0 noCore 0 noWg 0 0

/-- A request that takes effect at a boundary (R297). -/
def State.takeReq (s : State) (r : Req) : State :=
  match r with
  | .boundary => s
  | .preempt k =>
    if (s.ctx k).state = .requested then
      s.setCtx k { s.ctx k with state := .draining, drain := 0, drainTimer := (s.die 0).ck.toNat }
    else s

/-- The contexts that drain. -/
def State.drainers (s : State) : List Nat := Fmap.keys (Fmap.select s.ctxs (fun _ c => c.state = .draining))

end Sys2Proof.Machine
end

