-- ==== Sys2Proof/Machine/Geyser.lean ====
section
/-! DEFINITION. The geyser (R34, R38 to R44): waves of tokens, arrivals, the completion of boundaries, releases, requests, and
stragglers. -/

namespace Sys2Proof.Machine

/-! ### Dies and cores in service -/

/-- Whether a die is in service (R319). -/
def State.inService (s : State) (d : Nat) : Bool := (s.die d).alive && !(s.die d).lost

/-- The cores of the dies in service. -/
def State.coresOn (s : State) : List Nat := allCores.filter (fun c => s.inService (dieOfCore c))

/-- Whether the root of the geyser works (R44): die 0 has not been lost. -/
def State.rootWorks (s : State) : Bool := !(s.die 0).lost

/-! ### Arrival (R38, R39, R42) -/

/-- Whether an X-class transfer or a contribution of group `g` is outstanding; what a terminated workgroup has sent counts as
delivered (R253). -/
def State.transfersOut (s : State) (g : Nat) : Bool :=
  s.engs.any (fun p => p.2.kind.xclass && p.2.g = g) ||
    s.colls.any (fun c => match c.here with | some l => l.g = g && (s.wg l.wg).state != .terminated | none => false)

/-- Whether a group waits in the instruction that ends a superstep of this wave. -/
def Group.atEnd (x : Group) (w : Wave) : Bool :=
  match w, x.wait with
  | .computeEnd, some ⟨.phend, _, _, _⟩ => true
  | .exchangeEnd, some ⟨.xend, _, _, _⟩ => true
  | _, _ => false

/-- Whether a participating group counts as arrived in a wave (R38): it waits in PHEND or XEND, itself or through the holder
that it is parked under (R21), or it has exited, with its transfers complete; a group of a killed context counts (R320). -/
def State.groupArrived (s : State) (w : Wave) (g : Nat) : Bool :=
  let x := s.group g
  if (s.ctx (s.ctxOf g)).state = .killed then true
  else if x.status != .live then !s.transfersOut g
  else
    let h := x.parked.getD g
    (s.group h).atEnd w && !s.transfersOut h && !s.transfersOut g

/-- The groups on core `c`, those of saved workgroups apart. -/
def State.groupsOn (s : State) (c : Nat) : List Nat :=
  Fmap.keys (s.groupsWhere (fun x => (s.wg x.wg).core = c && (s.wg x.wg).state != .saved))

/-- The late groups of core `c` in a wave (R42). -/
def State.lateGroups (s : State) (w : Wave) (c : Nat) : List Nat :=
  (s.groupsOn c).filter (fun g => (s.ctx (s.ctxOf g)).phased && !s.groupArrived w g)

/-- Whether core `c` may arrive (R39); its phase-passive groups have been halted by its token. -/
def State.mayArrive (s : State) (w : Wave) (c : Nat) : Bool :=
  (s.lateGroups w c).isEmpty &&
    (match w with
     | .computeEnd =>
       !(s.pend.any (fun p => p.2.core = c && (p.2.kind = .load || p.2.kind = .atomic))) && !(s.stores.any (fun p => p.2.core = c))
     | .exchangeEnd => s.root.linesDone && s.root.slotsDone)

/-! ### Tokens -/

/-- A phase-passive group halted at an instruction boundary (R39): unless it waits, an open bundle is issued again when it
resumes. -/
def Group.halt (x : Group) : Group := if x.wait.isNone then x.toBoundary else x

/-- Core `c` receives the token of the open wave (R39, R42). -/
def State.takeToken (s : State) (c : Nat) : State :=
  let ck := (s.die (dieOfCore c)).ck.toNat
  let t := s.setCore c { s.core c with token := true, timer := some ck, expiries := 0 }
  (t.groupsOn c).foldl (fun t g => if (t.ctx (t.ctxOf g)).phased then t else t.modGroup g Group.halt) t

/-- WAVE_TOKEN (R39). -/
def execWaveToken (c : Nat) (s : State) : Out :=
  let k := s.core c
  .next (if s.root.wave.isNone || !s.rootWorks || !s.coresOn.contains c || k.relPending || k.token || k.ph != s.root.ph then s
    else
      let t := s.takeToken c
      { t with root := { t.root with tokenSent := true } })

/-- CORE_ARRIVAL (R39). -/
def execCoreArrival (c : Nat) (s : State) : Out :=
  let k := s.core c
  .next (match s.root.wave with
    | none => s
    | some w =>
      if k.token && !k.arrived && !k.relPending && s.coresOn.contains c && s.mayArrive w c then
        s.setCore c { k with arrived := true }
      else s)

/-! ### Requests (R40, R41) -/

/-- A request kept once in a list. -/
def addReq (l : List Req) (r : Req) : List Req := if l.contains r then l else l ++ [r]

/-- BOUNDARY_REQUEST (R41): the `k`-th request on its way reaches the root. One that finds the compute-end wave open, but no token
of it sent, takes effect at that wave's boundary (DESIGN CHOICE, log 90). -/
def execBoundaryRequest (k : Nat) (s : State) : Out :=
  let r := s.root
  .next (match r.incoming[k]? with
    | none => s
    | some q =>
      let r := { r with incoming := r.incoming.eraseIdx k }
      if r.ph.getLsbD 0 || r.tokenSent then { s with root := { r with later := addReq r.later q } }
      else { s with root := { r.openWave with now := addReq r.now q } })

/-! ### The completion of a boundary -/

/-- Every core in service owes the release of the boundary. -/
def State.sendReleases (s : State) : State :=
  s.coresOn.foldl (fun s c => s.setCore c { s.core c with relPending := true }) s

/-- The workgroups of contexts that a die loss killed are terminated at the first boundary whose wave opened after it
(R320). -/
def State.endDoomed (s : State) (p : Dword) : State :=
  let now := s.root.doomed.filter (fun d => d.2.toNat ≤ p.toNat)
  let t := now.foldl (fun t d => t.terminateAll d.1) s
  { t with root := { t.root with doomed := t.root.doomed.filter (fun d => p.toNat < d.2.toNat) } }

/-- Whether every context that switches at this boundary can be saved (R298). -/
def State.switchesReady (s : State) : Bool :=
  (s.drainers.filter s.switches).all (fun k => (s.remaining k).all s.saveReady)

/-- The completion of the compute-end boundary (R39, R40, R297): the tokens of the exchange-end wave travel with the
releases. -/
def State.endCompute (s : State) : State :=
  let p := s.root.ph
  let t := s.root.now.foldl State.takeReq s
  if !t.switchesReady then s
  else
    let t := { t with root := { t.root with
      ph := p + 1, wave := some .exchangeEnd, tokenSent := true, now := [], linesDone := false, slotsDone := false } }
    (t.drainers.foldl State.drainStep (t.endDoomed p)).sendReleases

/-- The completion of the exchange-end boundary: the writes after the arrivals are the next superstep's (R107), and requests
that waited open its compute-end wave (R41). -/
def State.endExchange (s : State) : State :=
  let r := s.root
  let r := { r with ph := r.ph + 1, wave := none, tokenSent := false, now := r.later, later := [] }
  { s with
      root := if r.now.isEmpty then r else r.openWave
      dirty := s.dirtyNext, dirtyNext := [], dirtySlots := s.dirtySlotsNext, dirtySlotsNext := [] }.sendReleases

/-- BOUNDARY_COMPLETION (R39): every die node has reported. -/
def execBoundaryCompletion (s : State) : Out :=
  .next (match s.root.wave with
    | none => s
    | some w =>
      if !s.rootWorks || !s.coresOn.all (fun c => (s.core c).arrived && !(s.core c).relPending) then s
      else match w with
        | .computeEnd => s.endCompute
        | .exchangeEnd => s.endExchange)

/-! ### Releases -/

/-- BOOTSTAT.STAGE is FULL once every die has joined or been left out; one that is lost, whose links cannot be keyed, counts as
left out (R326). -/
def State.fullStage (s : State) : State :=
  if (s.root.stage = .die0 || s.root.stage = .joining) && [1, 2, 3].all (fun d => (s.die d).alive || (s.die d).leftOut || (s.die d).lost) then
    { s with root := { s.root with stage := .full } }
  else s

/-- A die that was authenticated joins service (R327): its cores hold the package's phase count and current parity. -/
def State.joinDie (s : State) (d : Nat) : State :=
  if !(s.die d).joinPending || (s.die d).lost then s
  else
    let t := s.setDie d { s.die d with alive := true, joinPending := false }
    (allCores.filter (fun c => dieOfCore c = d)).foldl (fun t c =>
      t.setCore c { t.core c with ph := s.root.ph, parity := s.root.g.getLsbD 0 }) t

/-- The dies that join at a release that starts a compute superstep (R327). -/
def State.joinDies (s : State) : State :=
  if s.root.ph.getLsbD 0 then s else ([1, 2, 3].foldl State.joinDie s).fullStage

/-- The groups on core `c` whose PHEND or XEND the release ends (R38). -/
def State.wakeOn (s : State) (c : Nat) (w : Wave) : State :=
  ((s.groupsOn c).filter (fun g => (s.group g).status = .live && (s.group g).atEnd w)).foldl State.endWait s

/-- Core `c` starts the superstep of the release (R34, R39, R102). -/
def State.startSuperstep (s : State) (c : Nat) : State :=
  let odd := s.root.ph.getLsbD 0
  let k := s.core c
  let t := (s.setCore c { k with ph := s.root.ph, relPending := false, arrived := false, token := false, timer := none, expiries := 0 }).clearL1 c
  let t := t.wakeOn c (if odd then .computeEnd else .exchangeEnd)
  if odd then t.takeToken c else t

/-- RELEASE (R39, R299, R327). -/
def execRelease (c : Nat) (s : State) : Out :=
  .next (if !(s.core c).relPending || !s.coresOn.contains c then s
    else (s.joinDies.startSuperstep c).restoreOn (dieOfCore c))

/-! ### Stragglers (R42) -/

/-- Whether the straggler timer of core `c` has run for its limit. -/
def State.timerOut (s : State) (c : Nat) : Bool :=
  let k := s.core c
  match k.timer with
  | none => false
  | some t => k.token && !k.arrived && k.limit != 0 && t + k.limit.toNat ≤ (s.die (dieOfCore c)).ck.toNat

/-- STRAGGLER_EXPIRY (R42): every late group takes STRAGGLER, and the timer starts again. -/
def execStragglerExpiry (c : Nat) (s : State) : Out :=
  .next (match s.root.wave with
    | none => s
    | some w =>
      if !s.timerOut c || (s.core c).expiries != 0 then s
      else
        let t := ((s.lateGroups w c).filter (fun g => (s.group g).status = .live)).foldl (fun t g => t.raiseAsync g .straggler) s
        t.setCore c { t.core c with timer := some (t.die (dieOfCore c)).ck.toNat, expiries := 1 })

/-- STRAGGLER_KILL (R42): the contexts of the groups that are still late are killed. -/
def execStragglerKill (c : Nat) (s : State) : Out :=
  .next (match s.root.wave with
    | none => s
    | some w =>
      if !s.timerOut c || (s.core c).expiries != 1 then s
      else
        let t := s.setCore c { s.core c with expiries := 2 }
        (distinct ((s.lateGroups w c).map s.ctxOf)).foldl (fun t k =>
          ((t.kill k).record k 8 0 noCore 0 noWg 0 0).terminateAll k) t)

end Sys2Proof.Machine
end

