-- ==== Sys2Proof/Machine/Starve.lean ====
section
/-! DEFINITION. Pool starvation (R63, R64): its test, rollback, eviction and resume; and the weights and the starvation guard
of the arbiter (R30 to R33). -/

namespace Sys2Proof.Machine

/-! ### The test (R63) -/

/-- Whether group `g` is stalled on the pool: what it needs does not fit, or it stays stalled after a rollback (R62, R64). -/
def State.poolStalled (s : State) (g : Nat) : Bool :=
  let x := s.group g
  s.poolHeld g || (match x.stall with | some (.pool nv ns) => !s.room x.wg nv ns | _ => false)

/-- Whether a live group is in one of the other states of R63. -/
def State.blockedAside (s : State) (g : Nat) : Bool :=
  (s.group g).wait.isSome || (s.group g).parked.isSome || s.halted g

/-- The live groups of the workgroups that are resident on core `c`. -/
def State.residents (s : State) (c : Nat) : List Nat :=
  Fmap.keys (s.groupsWhere (fun x => x.status = .live && (s.wg x.wg).core = c && (s.wg x.wg).state.onCore))

/-- Whether a load, atomic, engine operation that is not parked, or matrix batch of a workgroup that meets `p` is
outstanding (R63, R64). -/
def State.workOut (s : State) (p : Nat → Bool) : Bool :=
  s.pend.any (fun q => p q.2.wg && (q.2.kind = .load || q.2.kind = .atomic)) ||
    s.engs.any (fun q => p q.2.wg && q.2.parkSeq.isNone && !q.2.kind.xclass) ||
    s.mops.any (fun q => p q.2.wg) ||
    s.groups.any (fun q => p q.2.wg && q.2.status != .terminated && q.2.batches.any (fun b => !b.done))

/-- R63. -/
def State.starved (s : State) (c : Nat) : Bool :=
  let gs := s.residents c
  gs.any s.poolStalled && gs.all (fun g => s.poolStalled g || s.blockedAside g) && !s.workOut (fun k => (s.wg k).core = c)

/-! ### Rollback of a starved core's workgroup (R64 step 1) -/

/-- The slices and entries that a rollback of group `g` frees. -/
def State.rollbackFrees (s : State) (g : Nat) : Nat × Nat :=
  let k := (s.group g).wg
  let t := s.rollbackNow g
  ((s.slicesOf k).length - (t.slicesOf k).length, (s.entriesOf k).length - (t.entriesOf k).length)

/-- Whether a rollback of group `g`, which is inside a region, frees a slice or an entry; one that the loss of a die would make
abandoned frees none (R316). -/
def State.rollbackHelps (s : State) (g : Nat) : Bool :=
  (s.group g).region.isSome && !(s.group g).abandons && s.rollbackFrees g != (0, 0)

/-- Group `g` rolled back; it stays stalled until the pool has what it freed. -/
def State.starveRollback (s : State) (g : Nat) : State :=
  let n := s.rollbackFrees g
  (s.rollbackNow g).modGroup g (fun x => { x with poolHold := some n, stall := some (.pool 0 0) })

/-- The workgroups with a resident group of core `c`, the most recently dispatched first. -/
def State.newestFirst (s : State) (c : Nat) : List Nat :=
  (sortBy (fun k => (s.wg k).order) (Fmap.keys (s.wgsOn c))).reverse

/-! ### Eviction (R64 step 2) -/

/-- The units that workgroup `k` takes in a spill area. -/
def State.spillNeed (s : State) (k : Nat) : Nat :=
  Config.spillUnits (s.wg k).lanes (s.slicesOf k).length (s.entriesOf k).length

/-- The units taken in the spill area of context `k` on die `d`. -/
def State.spillUsed (s : State) (k d : Nat) : Nat :=
  ((Fmap.keys (Fmap.select s.wgs (fun _ w => w.ctx = k && w.state = .evicted && dieOfCore w.core = d))).map s.spillNeed).sum

/-- Whether the spill area has room for workgroup `k`. -/
def State.spillFits (s : State) (k : Nat) : Bool :=
  let w := s.wg k
  let d := dieOfCore w.core
  s.spillUsed w.ctx d + s.spillNeed k ≤ areaSize (Fmap.get 0 (s.ctx w.ctx).spill d)

/-- Workgroup `k` terminated for want of registers (R64 step 3). -/
def State.poolKill (s : State) (k : Nat) : State :=
  let w := s.wg k
  (s.record w.ctx 7 0 w.core 0 w.linear 0 0).terminate k

/-- Workgroup `k` evicted (R64): its registers go off its core, what is written of them into the spill area is free, and what
it holds beyond its reservation is noted; or it is terminated where the area has no room. -/
def State.evict (s : State) (k : Nat) : State :=
  if !s.spillFits k then s.poolKill k
  else
    let w := s.wg k
    let t := s.modGroupsOf k (fun x => if x.status = .live then x.descheduled else x)
    (t.fillArea w.ctx (dieOfCore w.core) (Fmap.get 0 (s.ctx w.ctx).spill (dieOfCore w.core)) (s.spillNeed k)).setWg k
      { w with state := .evicted, excessV := (s.slicesOf k).length - w.resV, excessS := (s.entriesOf k).length - w.resS }

/-- The other members of a workgroup's cluster that are resident. -/
def State.otherMembers (s : State) (k : Nat) : List Nat :=
  (s.wg k).members.filter (fun m => m != k && (s.wg m).state = .resident)

/-- STARVATION_RESOLUTION (R64). The other members of the chosen workgroup's cluster are to be evicted also where the workgroup itself
is terminated because its spill area is too small, and a workgroup that is to be evicted with its cluster takes part in the
resolution of its own core until it is (DESIGN CHOICE, log 107). -/
def execStarvationResolution (c : Nat) (s : State) : Out :=
  let ks := s.newestFirst c
  let inRegion := fun (k : Nat) => (s.residents c).filter (fun g => (s.group g).wg = k && s.rollbackHelps g)
  .next (if !s.starved c then s
    else match ks.find? (fun k => !(inRegion k).isEmpty) with
      | some k => (inRegion k).foldl State.starveRollback s
      | none =>
        match ks with
        | [] => s
        | [k] => s.poolKill k
        | k :: _ :: _ =>
          let t := (s.otherMembers k).foldl (fun t m => t.setWg m { t.wg m with state := .evicting }) s
          t.evict k)

/-- MEMBER_EVICTION (R64): another member of an evicted cluster, once its own work is done. -/
def execMemberEviction (k : Nat) (s : State) : Out :=
  .next (if (s.wg k).state = .evicting && !s.workOut (fun j => j = k) then s.evict k else s)

/-- Whether an evicted workgroup fits its core again (R64). -/
def State.resumeFits (s : State) (k : Nat) : Bool :=
  let w := s.wg k
  w.resV + w.excessV ≤ s.vfree w.core && w.resS + w.excessS ≤ s.sfree w.core

/-- EVICTION_RESUME (R64): an evicted workgroup goes on on its core, all members of its cluster together. -/
def execEvictionResume (k : Nat) (s : State) : Out :=
  let ms := (s.wg k).members.filter (fun m => (s.wg m).state.holdsSlots)
  .next (if (s.wg k).state = .evicted && ms.all (fun m => (s.wg m).state = .evicted && s.resumeFits m) then
    ms.foldl (fun t m => (t.setWg m { t.wg m with state := .resident, excessV := 0, excessS := 0 }).resynced m) s
  else s)

/-! ### Weights (R30) -/

/-- floor(8 occ / cap), 0 for a queue that is missing. -/
def occTerm (q : Option (Nat × Nat)) : Int :=
  match q with
  | some (occ, cap) => ((8 * occ / cap : Nat) : Int)
  | none => 0

/-- Wt(s) of R30. -/
def weightOf (inQ outQ : Option (Nat × Nat)) : Nat := (max 1 (min 16 (8 + occTerm inQ - occTerm outQ))).toNat

/-- The occupancy and the capacity of the output queue of stage `j` of a workgroup (R232). -/
def State.stageQueue (s : State) (w : Wg) (j : Nat) : Option (Nat × Nat) :=
  match w.kern.stages[j]? with
  | none => none
  | some p =>
    if p.2 = 0 then none
    else
      let l := spadLoc w.core (128 * (w.line0 + j))
      some ((s.natAt (l + 4) 4 + 4294967296 - s.natAt l 4) % 4294967296, p.2)

/-- The weight of stage `j` of a workgroup; one stage of weight 8 without declarations. -/
def State.stageWeight (s : State) (w : Wg) (j : Nat) : Nat :=
  if w.kern.stages.isEmpty then 8
  else weightOf (if j = 0 then none else s.stageQueue w (j - 1)) (s.stageQueue w j)

/-- The stages of a workgroup. -/
def Wg.stageNumbers (w : Wg) : List Nat := if w.kern.stages.isEmpty then [0] else List.range w.kern.stages.length

/-- The weight of a candidate; 8, that of queues that are empty, before its weights are first computed (R30, log 67). -/
def weightIn (ws : Fmap Nat) (key : Nat) : Nat := Fmap.get 8 ws key
def Core.weight (k : Core) (key : Nat) : Nat := weightIn k.weights key

/-- The weights of the candidates of core `c`, by their queues as they are now. -/
def State.weightsNow (s : State) (c : Nat) : Fmap Nat :=
  ((s.wgsOn c).flatMap (fun p => p.2.stageNumbers.map (fun j => (candidateKey p.1 j, s.stageWeight p.2 j)))).foldl
    (fun m p => Fmap.insert m p.1 p.2) []

/-- The core with new weights; the count of shares starts again where a weight of a candidate changes (R30). -/
def Core.reweighed (k : Core) (ws : Fmap Nat) : Core :=
  if k.cands.all (fun j => k.weight j = weightIn ws j) then { k with weights := ws }
  else { k with weights := ws, issues := [], cands := [] }

/-- The weights of core `c`'s candidates recomputed at every 64th clk (R30). -/
def State.reweigh (s : State) (c : Nat) : State :=
  if (s.die (dieOfCore c)).ck.toNat % 64 != 0 then s else s.setCore c ((s.core c).reweighed (s.weightsNow c))

/-- WEIGHT_RECOMPUTATION (R30). -/
def execWeightRecomputation (c : Nat) (s : State) : Out := .next (s.reweigh c)

/-! ### The starvation guard (R33) -/

/-- The groups of core `c` that have been ready for 512 clk without issuing, the oldest first: every clk in which a group is not
ready moves its `readySince` on. -/
def State.overdue (s : State) (c : Nat) : List Nat :=
  let ck := (s.die (dieOfCore c)).ck.toNat
  sortBy (fun g => (s.group g).readySince)
    ((s.residents c).filter (fun g => s.unblocked g && (s.group g).readySince + 512 ≤ ck))

/-- The starvation guard of core `c` (R33): up to 16 overdue groups are issued ahead of all weighting in the next clk, and HRUN
runs end (R32). -/
def State.guarded (s : State) (c : Nat) : State :=
  let l := (s.overdue c).take issueSlots
  let t := s.setCore c { s.core c with guard := l }
  if l.isEmpty then t
  else (t.residents c).foldl (fun t g => t.modGroup g (fun x => { x with hrun := 0 })) t

/-- STARVATION_GUARD (R33). -/
def execStarvationGuard (c : Nat) (s : State) : Out := .next (s.guarded c)

end Sys2Proof.Machine
end

