-- ==== Sys2Proof/Machine/Mirror.lean ====
section
/-! DEFINITION. The mirror engine (R107 to R110, R318): the line pass and the slot pass of an exchange superstep. -/

namespace Sys2Proof.Machine

/-! ### Lines -/

/-- The line of a location with its die left out: the same on every die (R107). -/
def mirrorLine (line : Nat) : Nat := line % 17592186044416

/-- The line of die `d` that mirrors `m`. -/
def lineOnDie (d m : Nat) : Nat := d * 17592186044416 + m

/-- The dirty entry of die `d` for mirror line `m`. -/
def State.dirtyAt (s : State) (m d : Nat) : Option Dirty := Fmap.find s.dirty (lineOnDie d m)

/-- The dies that wrote byte `b` of mirror line `m`, the lowest first. -/
def State.writersOf (s : State) (m b : Nat) : List Nat :=
  (List.range 4).filter (fun d => match s.dirtyAt m d with | some x => x.mask.getLsbD b | none => false)

/-- The dies that wrote the tag of mirror line `m`. -/
def State.tagWriters (s : State) (m : Nat) : List Nat :=
  (List.range 4).filter (fun d => match s.dirtyAt m d with | some x => x.tag | none => false)

/-- The dies that wrote a byte or the tag of the line that another die wrote too (R109). -/
def State.lineColliders (s : State) (m : Nat) : List Nat :=
  let all := s.tagWriters m :: (List.range 64).map (s.writersOf m)
  (List.range 4).filter (fun d => all.any (fun l => l.contains d && 2 ≤ l.length))

/-- A mask of dies. -/
def dieMask (l : List Nat) : Nat := (l.map (fun d => 2 ^ d)).sum

/-- The cells that every die receives for mirror line `m`, on die `d`: each byte written by some die takes the value of the
lowest-numbered one that wrote it, as its backing has it at the pass: a byte that a core writes again after its arrival is
carried with the later value, and another die's value lands on it (DESIGN CHOICE, log 76). -/
def State.lineCells (s : State) (m d : Nat) : List Host.Cell :=
  (List.range 64).filterMap (fun b => match s.writersOf m b with
    | w :: _ => some (64 * lineOnDie d m + b, s.byteAt (64 * lineOnDie w m + b))
    | [] => none)

/-- The 8-byte units of the line that receive a poisoned byte (R312). -/
def State.linePoison (s : State) (m : Nat) : List Nat :=
  distinct ((List.range 64).filterMap (fun b => match s.writersOf m b with
    | w :: _ => if Fmap.get false s.poison ((64 * lineOnDie w m + b) / 8) then some (b / 8) else none
    | [] => none))

/-- Mirror line `m` of die `d` after the pass over state `s0`. -/
def State.receiveLine (s s0 : State) (m d : Nat) : State :=
  let t := s.storeCells (s0.lineCells m d)
  let t : State := { t with
    poison := (s0.linePoison m).foldl (fun p u => Fmap.insert p (8 * lineOnDie d m + u) true) t.poison }
  match s0.tagWriters m with
  | [] => t
  | w :: _ =>
    let loc := 64 * lineOnDie d m
    let t := t.setTag loc (s0.tagAt (64 * lineOnDie w m))
    if Fmap.get false s0.tagPoison (lineOnDie w m) then { t with tagPoison := Fmap.insert t.tagPoison (loc / 64) true } else t

/-- The context and the address under which mirror line `m` was written, by its lowest-numbered writer. -/
def State.lineOwner (s : State) (m : Nat) : Option Dirty := (List.range 4).findSome? (s.dirtyAt m)

/-- Mirror line `m` propagated to every die in service (R109): collisions are recorded, and a die whose backing another die's
bytes reach joins the context's touched dies (R318). -/
def State.propagateLine (s s0 : State) (m : Nat) : State :=
  match s0.lineOwner m with
  | none => s
  | some x =>
    let cs := s0.lineColliders m
    let t := ((List.range 4).filter s0.inService).foldl (fun t d =>
      let t := t.receiveLine s0 m d
      if (List.range 4).any (fun w => w != d && (s0.dirtyAt m w).isSome) then t.touch x.ctx d else t) s
    if cs.isEmpty then t else t.record x.ctx 10 (dieMask cs) noCore 0 noWg x.va.toNat 0

/-- MIRROR_LINE_PASS (R109). -/
def execMirrorLinePass (s : State) : Out :=
  .next (if s.root.wave != some .exchangeEnd || s.root.linesDone || !s.rootWorks then s
    else
      let ms := distinct ((Fmap.keys s.dirty).map mirrorLine)
      let t := ms.foldl (fun t m => t.propagateLine s m) s
      { t with dirty := [], root := { t.root with linesDone := true } })

/-! ### Root slots (R108, R109) -/

/-- The dies that wrote package slot `j`. -/
def State.slotWriters (s : State) (j : Nat) : List Nat :=
  (List.range 4).filter (fun d => (Fmap.find s.dirtySlots (d * 4096 + j)).isSome)

/-- Slot `j` of die `d` after it received die `w`'s copy, the poison with the bytes (R312). -/
def State.receiveSlot (s s0 : State) (w d j : Nat) : State :=
  let t := s.storeCells (cellsOf (slotLoc d j) (s0.bytesAt (slotLoc w j) 8))
  if s0.poisoned (slotLoc w j) 8 then { t with poison := Fmap.insert t.poison (slotLoc d j / 8) true } else t

/-- Slot `j` propagated to every die in service. -/
def State.propagateSlot (s s0 : State) (j : Nat) : State :=
  match s0.slotWriters j with
  | [] => s
  | w :: rest =>
    let x := (Fmap.find s0.dirtySlots (w * 4096 + j)).getD (0, 0)
    let t := ((List.range 4).filter s0.inService).foldl (fun t d =>
      let t := t.receiveSlot s0 w d j
      if (w :: rest).any (fun v => v != d) then t.touch x.1 d else t) s
    if rest.isEmpty then t else t.record x.1 10 (dieMask (w :: rest)) noCore 0 noWg x.2.toNat 0

/-- MIRROR_SLOT_PASS (R109): only after the line pass. -/
def execMirrorSlotPass (s : State) : Out :=
  .next (if s.root.wave != some .exchangeEnd || !s.root.linesDone || s.root.slotsDone || !s.rootWorks then s
    else
      let js := distinct ((Fmap.keys s.dirtySlots).map (· % 4096))
      let t := js.foldl (fun t j => t.propagateSlot s j) s
      { t with dirtySlots := [], root := { t.root with slotsDone := true } })

end Sys2Proof.Machine
end

