-- ==== Sys2Proof/Machine/Walk.lean ====
section
/-! DEFINITION. Page-table walks and TLB invalidations (R89, R93 to R96). -/

namespace Sys2Proof.Machine

/-- Entries of an L1 and of an L2 TLB (R93). -/
def l1TlbSize : Nat := 256
def l2TlbSize : Nat := 16384

/-- A translation put into a TLB of a size; the one that came first makes room (log 5). -/
def fillTlb (l : List TlbEntry) (size : Nat) (e : TlbEntry) : List TlbEntry := (e :: l).take size

/-- A walked leaf held by the TLB of the die and of the core that asked. -/
def State.fillTlbs (s : State) (d c : Nat) (e : TlbEntry) : State :=
  let x := s.die d
  let t := s.setDie d { x with tlb := fillTlb x.tlb l2TlbSize e }
  let k := t.core c
  t.setCore c { k with tlb := fillTlb k.tlb l1TlbSize e }

/-- The kind of access that a code of ACC stands for, for a request of a group. -/
def accOf (code : Nat) : Acc :=
  match code with
  | 0 => .load
  | 1 => .store
  | _ => .fetch

/-- PAGE_TABLE_WALK (R89, R93, R96): the `k`-th request of die `d` is walked. A leaf fills the TLBs; a fault ends the
workgroup of the group that asked and is recorded. -/
def execPageTableWalk (d k : Nat) (s : State) : Out :=
  .next (match (s.die d).walkQ[k]? with
    | none => s
    | some q =>
      let t := s.setDie d { s.die d with walkQ := (s.die d).walkQ.eraseIdx k }
      match s.walk q.ctx q.va with
      | .leaf p low => t.fillTlbs d (s.coreOf q.g) (tlbEntryOf q.ctx q.va p low)
      | .fault c _ => if (t.group q.g).status = .live then t.translationFault q.g c (accOf q.acc) q.va else t)

/-! ### Invalidation (R94, R95) -/

/-- A write to CXM_INVAL (R95): the invalidation is in progress. -/
def State.startInval (s : State) (k : Nat) (v : Dword) : State :=
  s.setCtx k { s.ctx k with inval := (s.ctx k).inval ++ [v] }

/-- CXM_INVAL (R95). -/
def execCxmInval (k : Nat) (v : Dword) (s : State) : Out := .next (s.startInval k v)

/-- Whether the range of an invalidation meets the pages [vpn, vpn + n) of 64 KiB (R95). -/
def invalMeets (v : Dword) (vpn n : Nat) : Bool :=
  let span := v.toNat % 16
  let lo := v.toNat / 65536 % 17592186044416
  span = 15 || (lo < vpn + n && vpn < lo + 2 ^ span)

/-- The entries of a TLB that a list of invalidations of context `k` leaves. -/
def keptTlb (vs : List Dword) (k : Nat) (l : List TlbEntry) : List TlbEntry :=
  l.filter (fun e => e.ctx != k || !vs.any (fun v => invalMeets v e.vpn (2 ^ e.log2)))

/-- A die without the translations and the walks that the invalidations cover. -/
def Die.invalidated (x : Die) (vs : List Dword) (k : Nat) : Die :=
  { x with tlb := keptTlb vs k x.tlb
           walkQ := x.walkQ.filter (fun q => q.ctx != k || !vs.any (fun v => invalMeets v (q.va.toNat / 65536) 1)) }

/-- INVALIDATION_COMPLETE (R94, R95): every TLB entry and walk of the ranges is gone, on every die, and BUSY clears. -/
def execInvalidationComplete (k : Nat) (s : State) : Out :=
  let vs := (s.ctx k).inval
  let t := s.setCtx k { s.ctx k with inval := [] }
  .next { t with
    cores := Fmap.mapVals (fun _ c => { c with tlb := keptTlb vs k c.tlb }) t.cores
    dies := Fmap.mapVals (fun _ d => d.invalidated vs k) t.dies }

end Sys2Proof.Machine
end

