-- ==== Sys2Proof/Machine/Grace.lean ====
section
/-! DEFINITION. The grace-period detector (R119, R121 to R125) and the actions of retire entries (R245, R246). -/

namespace Sys2Proof.Machine

/-! ### Eligible waiters -/

/-- The groups that wait in GPWAIT, with the boundaries completed at their issue (R125). -/
def State.gpWaiters (s : State) : List (Nat × Nat) :=
  s.groups.filterMap (fun p => match p.2.wait with
    | some ⟨.gpwait n, _, _, _⟩ => if p.2.status = .live then some (p.1, n) else none
    | _ => none)

/-- The retire entries of the dies that are not lost (R124). -/
def State.retireEntries (s : State) : List Retire :=
  s.dies.flatMap (fun p => if p.2.lost then [] else p.2.retireQ)

/-- Whether an eligible waiter exists (R121): an entry or a GPWAIT whose boundary has completed. -/
def State.eligible (s : State) : Bool :=
  s.retireEntries.any (fun e => e.p < s.root.ph.toNat) || s.gpWaiters.any (fun w => w.2 < s.root.ph.toNat)

/-- The parity of a grace number. -/
def parityOf (g : Dword) : Bool := g.getLsbD 0

/-- GRACE_PERIOD_START (R121 step 1): the root sets g and sends the new parity. -/
def execGracePeriodStart (s : State) : Out :=
  .next (if s.root.gpPhase != 0 || !s.eligible || !s.rootWorks then s
    else
      let t := s.coresOn.foldl (fun t c => t.setCore c { t.core c with flipPending := true }) s
      { t with root := { t.root with g := s.root.g + 1, gpPhase := 1, acks := [] } })

/-- The grace period begins once every core in service has acknowledged (R121 step 3). -/
def State.beginGrace (s : State) : State :=
  if s.root.gpPhase = 1 && s.coresOn.all (fun c => !(s.core c).flipPending) then
    { s with root := { s.root with gpPhase := 2, gpBegan := s.root.ph.toNat } }
  else s

/-- PARITY_FLIP (R121 step 2): a core applies the new parity and acknowledges. -/
def execParityFlip (c : Nat) (s : State) : Out :=
  .next (if !(s.core c).flipPending then s
    else
      let t := s.setCore c { s.core c with flipPending := false, parity := parityOf s.root.g }
      { t with root := { t.root with acks := t.root.acks ++ [c] } }.beginGrace)

/-! ### The end of a grace period -/

/-- A core's counter of one parity. -/
def Core.cnt (k : Core) (par : Bool) : Nat := if par then k.cnt1 else k.cnt0

/-- A die's saved-reader counter of one parity. -/
def Die.sav (d : Die) (par : Bool) : Nat := if par then d.sav1 else d.sav0

/-- Whether the counters of a parity read zero in every core and every die (R121 step 4); those of a lost die do (R122). -/
def State.readersGone (s : State) (par : Bool) : Bool :=
  (allCores.filter (fun c => !(s.die (dieOfCore c)).lost)).all (fun c => (s.core c).cnt par = 0) &&
    ((List.range 4).filter (fun d => !(s.die d).lost)).all (fun d => (s.die d).sav par = 0)

/-- A POOL action (R245): skipped with POOL_DOUBLE when the block has been freed since the RETIRE. -/
def State.poolAction (s : State) (d : Nat) (e : Retire) : State :=
  let x := s.pool d e.ctx e.arg
  match x.allocatedAt e.ptr with
  | some j =>
    if Fmap.get 0 x.freed j = e.freed then s.setPool d e.ctx e.arg (x.push j)
    else s.record e.ctx 12 e.arg noCore 0 noWg e.ptr.toNat 0
  | none => s.record e.ctx 12 e.arg noCore 0 noWg e.ptr.toNat 0

/-- A NOTIFY action (R246): a record on the context's notification ring, or LOST. -/
def State.notifyAction (s : State) (d : Nat) (e : Retire) : State :=
  let c := s.ctx e.ctx
  let lost := s.setCtx e.ctx { c with noteLost := sat16 c.noteLost }
  if ringFull (c.note.toNat % 16) c.noteHead c.noteTail then lost
  else
    match s.ctxWrite e.ctx d (ringSlot c.note c.noteTail)
      (recordBytes e.ptr.toNat (e.size.toNat + 4294967296 * (65536 * d + e.arg)) e.p s.root.g.toNat) with
    | none => lost
    | some t => t.setCtx e.ctx { c with noteTail := (c.noteTail + 1) % 16777216 }

/-- A NODE action (R245): the node's predecessor count is decremented; a node of another context is left alone, and so is one with
VALID = 0, whatever its CTX (DESIGN CHOICE, log 110). -/
def State.nodeAction (s : State) (e : Retire) : State :=
  let x := s.node e.arg
  if !x.valid || x.ctx != e.ctx then s.record e.ctx 13 0 noCore 0 noWg 0 e.arg
  else s.nodeWork [.dec e.ctx e.arg]

/-- The action of an entry of die `d` (R245). -/
def State.retireAction (s : State) (d : Nat) (e : Retire) : State :=
  match e.kind with
  | 0 => s.poolAction d e
  | 1 => s.notifyAction d e
  | _ => s.nodeAction e

/-- The entries of die `d` that are eligible for the grace period are taken from its queue and performed, in order (R124). -/
def State.retireDie (s : State) (d : Nat) : State :=
  let x := s.die d
  if x.lost then s
  else
    let now := x.retireQ.filter (fun e => e.p < s.root.gpBegan)
    now.foldl (fun t e => t.retireAction d e)
      (s.setDie d { x with retireQ := x.retireQ.filter (fun e => s.root.gpBegan ≤ e.p) })

/-- GRACE_PERIOD_END (R121 step 4, R124, R125). R124 leaves the order of entries of different dies open; die 0 comes first (DESIGN
CHOICE, log 108). -/
def execGracePeriodEnd (s : State) : Out :=
  .next (if s.root.gpPhase != 2 || !s.rootWorks || !s.readersGone (!parityOf s.root.g) then s
    else
      let t := { s with root := { s.root with gpPhase := 0 } }
      let t := [0, 1, 2, 3].foldl State.retireDie t
      ((s.gpWaiters.filter (fun w => w.2 < s.root.gpBegan)).map (·.1)).foldl State.endWait t)

end Sys2Proof.Machine
end

