-- ==== Sys2Proof/Machine/Firmware.lean ====
section
/-! DEFINITION. Host queues and the firmware core (R275 to R280, R283, R294, R299): doorbells, enabling, faults, peer writes,
and rounds. -/

namespace Sys2Proof.Machine

/-! ### Queue registers (R275 to R277) -/

/-- The fields of HQBASE and HQCFG that have storage (R275). -/
def hqBaseBits : Nat := 0x0FFFFFFFFFFFFFC0

/-- The virtual address of slot `i` of a queue's ring. -/
def HQueue.slotVa (q : HQueue) (i : Nat) : Dword := q.base + BitVec.ofNat 64 (64 * (i % 2 ^ q.log2n))

/-- The packets of a queue that are written and not consumed. -/
def HQueue.held (q : HQueue) : Nat := (q.widx - q.ridx).toNat

/-- A write to HQCFG (R275): while the queue is DISABLED the other fields are taken, and EN = 1 enables a queue whose
configuration is valid; EN = 0 disables it. -/
def State.writeHqcfg (s : State) (q : Nat) (v : Word) : State :=
  let x := s.hq q
  let en := v.getLsbD 31
  if x.state != .disabled then (if en then s else s.setHq q { x with en := false, state := .disabled })
  else
    let x := { x with peer := v.getLsbD 30, ctx := v.toNat / 65536 % 64, log2n := v.toNat % 16 }
    let c := (s.ctx x.ctx).state
    let ok := en && 4 ≤ x.log2n && x.log2n ≤ 15 && x.base.toNat % (64 * 2 ^ x.log2n) = 0 && c != .free
    if ok then
      s.setHq q { x with en := true, state := c.queueState, fcode := if c = .killed then 4 else x.fcode }
    else s.setHq q x

/-- QUEUE_ENABLE (R275). -/
def execQueueEnable (q : Nat) (v : Word) (s : State) : Out := .next (if v.getLsbD 31 then s.writeHqcfg q v else s)

/-- QUEUE_DISABLE (R275). -/
def execQueueDisable (q : Nat) (v : Word) (s : State) : Out := .next (if v.getLsbD 31 then s else s.writeHqcfg q v)

/-- A write to HQWIDX (R276). -/
def State.ring (s : State) (q : Nat) (v : Word) : State :=
  let x := s.hq q
  match x.state with
  | .disabled => s
  | .fault => s
  | _ =>
    if (v - x.widx).toNat + x.held ≤ 2 ^ x.log2n then s.setHq q { x with widx := v } else s.setHq q (x.fault 1)

/-- DOORBELL (R276). -/
def execDoorbell (q : Nat) (v : Word) (s : State) : Out := .next (s.ring q v)

/-- A write of CLR = 1 (R277). -/
def State.clearFault (s : State) (q : Nat) : State :=
  let x := s.hq q
  if x.state != .fault then s
  else s.setHq q { x with widx := x.ridx, fcode := 0, state := if (s.ctx x.ctx).state = .active then .active else .held }

/-- CLR (R277). -/
def execClr (q : Nat) (s : State) : Out := .next (s.clearFault q)

/-! ### Peer writes (R279) -/

/-- Whether an access-control entry lets a peer write queue `q`. -/
def aclAllows (e : Dword) (peer : BitVec 16) (q : Nat) : Bool :=
  let x := e.toNat
  let first := x / 1073741824 % 1024
  let count := x / 524288 % 2048
  x % 2 = 1 && x / 2 % 2 = 1 && x / 281474976710656 = peer.toNat && first ≤ q && q < first + count

/-- Whether a peer may write queue `q`. -/
def State.peerMay (s : State) (peer : BitVec 16) (q : Nat) : Bool :=
  s.acl.any (fun p => aclAllows p.2 peer q) && (s.hq q).peer

/-- PEER_WRITE (R279): any write that is not accepted changes nothing. -/
def execPeerWrite (w : PeerWrite) (s : State) : Out :=
  .next (match w with
    | .slot peer q i bytes =>
      let x := s.hq q
      if s.peerMay peer q && i < 2 ^ x.log2n && bytes.length ≤ 64 then (s.ctxWrite x.ctx 0 (x.slotVa i) bytes).getD s else s
    | .doorbell peer q v => if s.peerMay peer q then s.ring q v else s)

/-! ### Heads (R283) -/

/-- The queues that the firmware core serves. -/
def allQueues : Nat := 1088

/-- A head: its queue, its context, and its packet unless the slot does not translate. -/
structure Head where
  queue : Nat
  ctx : Nat
  pkt : Option (List Byte)
deriving DecidableEq, Repr

/-- Whether an earlier packet of queue `q` has not completed, under whichever context the queue then named (R280). -/
def State.earlierOpen (s : State) (q : Nat) : Bool :=
  s.ctxs.any (fun c => c.2.recs.any (fun p => p.2.queue = q && p.2.node.isNone)) || s.graphs.any (fun g => g.queue = q)

/-- A 64-bit value as a signed number. -/
def signed64 (x : Nat) : Int := if x < 9223372036854775808 then (x : Int) else (x : Int) - 18446744073709551616

/-- Whether the word of a BARRIER holds it back (R280); one that does not translate does not. -/
def State.barrierHolds (s : State) (k : Nat) (p : List Byte) : Bool :=
  fieldAt p 1 1 = 1 &&
    (match s.ctxRead k 0 (BitVec.ofNat 64 (fieldAt p 8 8)) 8 with
     | some bs => signed64 (fieldAt p 16 8) < signed64 (leNat bs)
     | none => false)

/-- Whether a head is blocked (R283). -/
def State.blocked (s : State) (q k : Nat) (p : List Byte) : Bool :=
  match pktType p with
  | 1 => s.recsFull k
  | 2 => s.recsFull k
  | 3 => q < 1024 && pktOk p && (s.earlierOpen q || s.barrierHolds k p)
  | 4 => q < 1024 && pktOk p && s.earlierOpen q
  | 5 => q < 1024 && ((s.ctx k).state = .requested || (s.ctx k).state = .draining)
  | _ => false

/-- Whether a HELD queue yields a packet: PREEMPT-ACK and NOP only (R277). -/
def heldTakes (p : Option (List Byte)) : Bool :=
  match p with
  | some b => pktType b = 0 || pktType b = 5
  | none => false

/-- The head of queue `q` if the queue is a candidate (R283). -/
def State.headOf (s : State) (q : Nat) : Option Head :=
  let h : Option (Head × Bool) :=
    if q < 1024 then
      let x := s.hq q
      if (x.state = .active || x.state = .held) && x.widx != x.ridx then
        some (⟨q, x.ctx, s.ctxRead x.ctx 0 (x.slotVa x.ridx.toNat) 64⟩, x.state = .active)
      else none
    else
      let c := s.ctx (q - 1024)
      match c.dlq with
      | [] => none
      | p :: _ => if c.state = .free || c.state = .killed then none else some (⟨q, q - 1024, some p⟩, c.state = .active)
  match h with
  | none => none
  | some (h, active) =>
    if !active && !heldTakes h.pkt then none
    else if (match h.pkt with | some p => s.blocked q h.ctx p | none => false) then none
    else some h

/-- Up to 64 candidates in ascending queue number, from the one after the last that was served (R283). -/
def State.candidates (s : State) : List Head :=
  ((List.range allQueues).filterMap (fun i => s.headOf ((s.root.lastQueue + 1 + i) % allQueues))).take 64

/-- The place of a packet's type in the order of a round (R283). -/
def roundOrder (h : Head) : Nat :=
  match h.pkt with
  | none => 0
  | some p =>
    match pktType p with
    | 3 => 1
    | 2 => 2
    | 1 => 3
    | 4 => 4
    | 5 => 5
    | 0 => 6
    | _ => 0

/-! ### Packets (R280) -/

/-- The head of a host queue is consumed (R283). -/
def State.consumeHead (s : State) (q : Nat) : State := s.setHq q { s.hq q with ridx := (s.hq q).ridx + 1 }

/-- Queue `q` faults; the head is not consumed (R277). -/
def State.faultQueue (s : State) (q : Nat) (code : BitVec 8) : State := s.setHq q ((s.hq q).fault code)

/-- A BARRIER (R280). -/
def State.barrierPacket (s : State) (q k : Nat) (p : List Byte) : State :=
  if fieldAt p 1 1 = 1 && (s.ctxRead k 0 (BitVec.ofNat 64 (fieldAt p 8 8)) 8).isNone then s.faultQueue q 3 else s.consumeHead q

/-- A SIGNAL (R280). -/
def State.signalPacket (s : State) (q k : Nat) (p : List Byte) : State :=
  let fl := fieldAt p 1 1
  let v := fieldAt p 16 8
  match s.updateWord k (BitVec.ofNat 64 (fieldAt p 8 8)) (fun x => if fl % 2 = 1 then x + v else v) with
  | none => s.faultQueue q 3
  | some t => if 2 ≤ fl then (t.consumeHead q).raiseVector (fieldAt p 2 2) else t.consumeHead q

/-- A packet of a host queue processed (R280, R284, R291, R299). A PREEMPT-ACK whose context is KILLED has no effect (DESIGN CHOICE,
log 124). -/
def State.hostPacket (s : State) (q k : Nat) (p : List Byte) : State :=
  if !pktOk p then s.faultQueue q 2
  else match pktType p with
    | 1 => ((s.consumeHead q).launch k p q none).1
    | 2 => (s.consumeHead q).graphPacket k q p
    | 3 => s.barrierPacket q k p
    | 4 => s.signalPacket q k p
    | 5 => if (s.ctx k).state = .saved then (s.consumeHead q).resumeCtx k else s.consumeHead q
    | _ => s.consumeHead q

/-- One lane of a round: its head, unless an earlier packet of the round has blocked it. -/
def State.serveHead (s : State) (h : Head) : State :=
  match h.pkt with
  | none => s.faultQueue h.queue 3
  | some p =>
    if s.blocked h.queue h.ctx p then s
    else if h.queue < 1024 then s.hostPacket h.queue h.ctx p
    else
      let t := s.setCtx h.ctx { s.ctx h.ctx with dlq := (s.ctx h.ctx).dlq.drop 1 }
      (t.launch h.ctx p h.queue none).1

/-- FIRMWARE_ROUND (R283). -/
def execFirmwareRound (s : State) : Out :=
  let hs := s.candidates
  .next (match hs.getLast? with
    | none => s
    | some l =>
      if !s.rootWorks then s
      else (sortBy roundOrder hs).foldl State.serveHead { s with root := { s.root with lastQueue := l.queue } })

end Sys2Proof.Machine
end

