-- ==== Sys2Proof/Machine/Host.lean ====
section
/-! DEFINITION. The register space of the package (R324): what each register reads as (R42, R95, R126, R240, R245 to R247,
R250, R271, R275, R279, R285, R289, R295, R304, R309, R319, R325, R328 to R333), what a write does, the snapshot trigger
(R331, R332), and writes of the host to memory. -/

namespace Sys2Proof.Machine

/-! ### Blocks (R324) -/

/-- The BAR0 offset of a block, numbered as `snapBlocks` numbers them. -/
def blockBase (b : Nat) : Nat :=
  if b = 0 then 0
  else if b < 5 then 0x400000 + 0x100000 * (b - 1)
  else if b < 53 then 0x800000 + 0x1000 * (b - 5)
  else 0x1000000 + 0x10000 * (b - 53)

/-- The block that covers a BAR0 offset, and the offset within it. -/
def blockAt (off : Nat) : Option (Nat × Nat) :=
  if off < 0x400000 then some (0, off)
  else if off < 0x800000 then some (1 + (off - 0x400000) / 0x100000, off % 0x100000)
  else if off < 0x830000 then some (5 + (off - 0x800000) / 0x1000, off % 0x1000)
  else if 0x1000000 ≤ off && off < 0x1400000 then some (53 + (off - 0x1000000) / 0x10000, off % 0x10000)
  else none

/-- The offset within a block at which its snapshot copy is read (R331). -/
def copyOffset (b : Nat) : Nat := if b = 0 then 0x40000 else if b < 5 then 0x20000 else if b < 53 then 0x800 else 0xF800

/-- One half of 64 bits. -/
def halfOf (v : Dword) (hi : Bool) : Word := if hi then hiOf v else loOf v

/-- Two 32-bit registers side by side. -/
def pairNat (lo hi : Nat) : Dword := BitVec.ofNat 64 (lo % 4294967296 + 4294967296 * hi)

/-! ### What the package block reads as -/

/-- BOOTSTAT.STAGE (R325). -/
def BootStage.code (x : BootStage) : Nat :=
  match x with
  | .rom => 0
  | .verify => 1
  | .die0 => 2
  | .joining => 3
  | .full => 4
  | .failed => 15

/-- One bit for each die. -/
def State.dieBits (s : State) (p : Die → Bool) : Nat := (((List.range 4).filter (fun d => p (s.die d))).map (fun d => 2 ^ d)).sum

/-- PKGALIVE.ALIVE (R319). -/
def State.aliveBits (s : State) : Nat := s.dieBits (fun d => d.alive && !d.lost)

/-- BOOTSTAT (R325). -/
def State.bootstat (s : State) : Nat :=
  s.root.fail.toNat * 16777216 + s.dieBits (·.authDone) * 256 + s.root.stage.code

/-- SNAPCTL (R332): TRIG reads zero. -/
def State.snapctl (s : State) : Nat := s.root.snapSeq.toNat * 65536 + (if s.root.snapPend.isEmpty then 0 else 2)

/-- PWRCTL.THROT (R333). -/
def State.throtBits (s : State) : Nat :=
  ((List.range 4).map (fun d => if (s.die d).throt = 0 then 0 else 2 ^ (4 * d + (s.die d).throt - 1))).sum

/-- PWRCTL.DRAW (R333): 0 at reset, until a clk has passed that power can be measured in; then it is measured, and is at most
2,400 W (log 11). -/
def State.draw (s : State) : Nat := if s.root.ticks = 0 then 0 else Config.powerDraw s.free % 2401

/-- PWRCTL (R333). -/
def State.pwrctl (s : State) : Dword :=
  BitVec.ofNat 16 s.draw ++ (0 : BitVec 16) ++ BitVec.ofNat 16 s.throtBits ++ (0 : BitVec 4) ++ s.root.limit

/-- Whether service is reduced (R327). -/
def State.reduced (s : State) : Bool := s.root.stage = .die0 || s.root.stage = .joining

/-- The three data words of capability `i` of the list (R328). -/
def State.capWord (s : State) (i : Nat) : Nat × Nat × Nat :=
  match i with
  | 0 => (0x40, Config.stepping.toNat, (Config.partCounts 4 48).toNat)
  | 1 => ((if s.reduced then 1 else 0) + 16 * s.aliveBits, (if s.reduced then 550 else 1100), 0)
  | 2 => (64, 1024, 16384)
  | 3 => (16, Config.packageId.toNat, 0)
  | 4 => (117, 0, 0)
  | 5 => (2400, 0x238, 0)
  | _ => (0, 0, 0)

/-- Eight bytes of the capability list: six entries, one after the other from offset 0 (R328, log 38). -/
def State.capDword (s : State) (o : Nat) : Dword :=
  let i := o / 16
  let d := s.capWord i
  if 6 ≤ i then 0
  else if o % 16 = 0 then pairNat (i + 1 + 256 + (if i = 5 then 0 else 65536 * (16 * (i + 1)))) d.1
  else pairNat d.2.1 d.2.2

/-- The eight bytes at offset `r` of host queue `q`'s registers (R275). -/
def HQueue.dword (x : HQueue) (r : Nat) : Dword :=
  match r with
  | 0 => x.base
  | 8 => pairNat ((if x.en then 2147483648 else 0) + (if x.peer then 1073741824 else 0) + 65536 * x.ctx + x.log2n) 0
  | 16 => pairNat x.widx.toNat x.ridx.toNat
  | 24 => pairNat (x.fcode.toNat * 256 +
      (match x.state with | .disabled => 0 | .active => 1 | .held => 2 | .fault => 3)) 0
  | _ => 0

/-- STATE of a node (R290). -/
def NState.code (x : NState) : Nat :=
  match x with
  | .idle => 0
  | .waiting => 1
  | .launched => 2
  | .done => 3

/-- The eight bytes at offset `r` of a graph node (R289). -/
def Node.dword (x : Node) (r : Nat) : Dword :=
  if r < 64 then BitVec.ofNat 64 (leNat ((x.pkt.drop r).take 8))
  else match r with
    | 0x40 => pairNat (65536 * x.pred + x.init) (256 * x.state.code + (if x.valid then 64 else 0) + x.ctx)
    | 0x48 => pairNat x.nsucc 0
    | 0x50 => x.succ.extractLsb' 0 64
    | 0x58 => x.succ.extractLsb' 64 64
    | _ => 0

/-- A word of the snapshot copy of block `b` (R331). -/
def State.copyWord (s : State) (b i : Nat) : Word := Fmap.get 0 s.snaps (512 * b + i)

/-- SNAPSEQ of block `b` (R331). -/
def State.snapSeqOf (s : State) (b : Nat) : Word := Fmap.get 0 s.snapSeqs b

/-- Eight bytes of a snapshot copy. -/
def State.copyDword (s : State) (b o : Nat) : Dword := pairOf (s.copyWord b (o / 4)) (s.copyWord b (o / 4 + 1))

/-- The eight bytes at offset `o` of the package block. -/
def State.packageDword (s : State) (o : Nat) : Dword :=
  if o < 0x200 then s.capDword o
  else if 0x40000 ≤ o && o < 0x40800 then s.copyDword 0 (o - 0x40000)
  else if 0x80000 ≤ o && o < 0x88000 then (s.hq ((o - 0x80000) / 32)).dword (o % 32)
  else if 0x90000 ≤ o && o < 0x91000 then (if o % 16 = 0 then Fmap.get 0 s.acl ((o - 0x90000) / 16) else 0)
  else if 0x100000 ≤ o && o < 0x300000 then (s.node ((o - 0x100000) / 128)).dword (o % 128)
  else match o with
    | 0x200 => BitVec.ofNat 64 (s.root.g.toNat / 4 * 4 + s.root.gpPhase)
    | 0x208 => pairNat (s.root.g.toNat % 4) 0
    | 0x210 => pairNat s.aliveBits 0
    | 0x220 => pairNat s.snapctl 0
    | 0x228 => s.root.snapPerm
    | 0x230 => pairNat s.bootstat 0
    | 0x238 => s.pwrctl
    | 0x7F8 => pairNat (s.snapSeqOf 0).toNat 0
    | _ => 0

/-! ### What a die block reads as -/

/-- The eight bytes at offset `r` of a pool's registers (R247). -/
def Pool.dword (x : Pool) (r : Nat) : Dword :=
  match r with
  | 0 => x.base
  | 8 => x.cfg
  | 16 => pairNat x.freeCount 0
  | _ => 0

/-- The eight bytes at offset `o` of die `d`'s block. SAV0 and SAV1 show the low 16 bits of their counts (R126, log 86). -/
def State.dieDword (s : State) (d o : Nat) : Dword :=
  if 0x4000 ≤ o && o < 0x14000 then (s.pool d ((o - 0x4000) / 0x400) (o % 0x400 / 0x40)).dword (o % 0x40)
  else if 0x20000 ≤ o && o < 0x20800 then s.copyDword (1 + d) (o - 0x20000)
  else match o with
    | 0x300 => pairNat ((s.die d).sav1 % 65536 * 65536 + (s.die d).sav0 % 65536) 0
    | 0x310 => pairNat (s.die d).retireQ.length 0
    | 0x7F8 => pairNat (s.snapSeqOf (1 + d)).toNat 0
    | _ => 0

/-! ### What a core block reads as -/

/-- The group whose lanes lie in slot quarter `i` of core `c`: eight lanes of the group slots that its workgroup occupies
(R10, R330). -/
def State.slotGroup (s : State) (c i : Nat) : Option Nat :=
  (s.groups.find? (fun p =>
    let w := s.wg p.2.wg
    w.core = c && w.state.holdsSlots && p.2.status = .live &&
      (List.range w.slots.length).any (fun j => w.slots.getD j 0 = i / 4 &&
        p.2.base ≤ 32 * j + 8 * (i % 4) && 32 * j + 8 * (i % 4) < p.2.base + p.2.width))).map (·.1)

/-- The state of a group under R29, as one of the rows of its table; 0 is ready. -/
def State.condition (s : State) (g : Nat) : Nat :=
  let x := s.group g
  if x.parked.isSome then 6
  else match x.wait with
    | some ⟨.phend, _, _, _⟩ => 4
    | some ⟨.xend, _, _, _⟩ => 4
    | some ⟨.qpush _ _ _, _, _, _⟩ => 7
    | some ⟨.qpop _ _ _ _, _, _, _⟩ => 7
    | some _ => 1
    | none =>
      if (s.wgOf g).state != .resident then 8
      else if s.halted g then 5
      else match x.stall with
        | some (.pool _ _) => 3
        | some _ => 2
        | none => 0

/-- Word `w` of a group slot (R330). -/
def State.slotWord (s : State) (g w : Nat) : Dword :=
  let x := s.group g
  match w with
  | 0 => x.pc
  | 1 => Config.rbWord 0 1 [s.ctxOf g, (s.wgOf g).linear, x.base]
  | 2 => Config.rbWord 0 2 [x.width, x.stage, s.condition g]
  | 3 => BitVec.ofNat 64 x.stk
  | 4 => BitVec.ofNat 64 x.rd
  | 5 => pairNat x.sig.toNat 0
  | 6 => BitVec.ofNat 64 x.hold
  | 7 => Config.rbWord 0 7 [x.nb.toNat, x.wm.toNat]
  | _ => 0

/-- The groups of the workgroups resident on core `c`. -/
def State.groupsOnCore (s : State) (c : Nat) : List Group :=
  (Fmap.vals s.groups).filter (fun x => (s.wg x.wg).core = c && (s.wg x.wg).state.onCore)

/-- The slices and the entries that a group holds: those of its names, and those that its region pins (R59). -/
def Group.heldV (x : Group) : List Slice := Fmap.vals x.v ++ (x.region.elim [] (fun r => Fmap.vals r.v))
def Group.heldS (x : Group) : List Entry := Fmap.vals x.s ++ (x.region.elim [] (fun r => Fmap.vals r.s))

/-- The contents of slice `i` of core `c`, if a group holds it. -/
def State.sliceFields (s : State) (c i : Nat) : List Nat :=
  (((s.groupsOnCore c).flatMap Group.heldV).find? (fun sl => sl.id = i)).elim [] (fun sl => sl.val.map (·.toNat))

/-- The contents of entry `i` of core `c`, if a group holds it. -/
def State.entryFields (s : State) (c i : Nat) : List Nat :=
  (((s.groupsOnCore c).flatMap Group.heldS).find? (fun e => e.id = i)).elim [] (fun e => [e.val.toNat])

/-- Word `w` of scratchpad line `i` of core `c` (R330). -/
def State.lineWord (s : State) (c i w : Nat) : Dword :=
  let loc := spadLoc c (128 * i)
  let l := s.lineAt loc
  if w < 16 then BitVec.ofNat 64 (s.natAt (loc + 8 * w) 8)
  else if w = 16 then
    BitVec.ofNat 64 ((s.tagAt loc).toNat + 65536 * (s.tagAt (loc + 64)).toNat + (if l.full then 4294967296 else 0) +
      8589934592 * l.count + (if l.barrier then 137438953472 else 0) + (if l.queue then 274877906944 else 0))
  else 0

/-- The group in slot quarter `i`, or a group without stacks. -/
def State.slotStacks (s : State) (c i : Nat) : Group := (s.slotGroup c i).elim Group.fresh s.group

/-- The 64-bit words of an item of a kind: for items without a layout in R330, as many as their fields fill (log 38). -/
def rbWords (kind : Nat) : Nat :=
  match kind with
  | 0 => 8
  | 1 => 4
  | 2 => 1
  | 3 => 17
  | 4 => 4
  | 5 => 1
  | 6 => 2
  | _ => 0

/-- RBDATA (R330): 0 at reset, until a write to RBSEL has latched a selection; then the word that RBSEL selects, and zero when INDEX
or WORD lies out of range. -/
def State.rbdata (s : State) (c : Nat) : Dword :=
  let sel := (s.core c).rbsel.toNat
  let i := sel / 16777216 % 68719476736
  let w := sel % 16777216
  let kind := sel / 1152921504606846976
  if !(s.core c).rbSet || rbWords kind ≤ w then 0
  else match kind with
  | 0 =>
    if 4096 ≤ i then 0
    else match s.slotGroup c i with
      | some g => s.slotWord g w
      | none => Config.rbWord 0 w []
  | 1 => if i < poolSlices then Config.rbWord 1 w (s.sliceFields c i) else 0
  | 2 => if i < poolEntries then Config.rbWord 2 w (s.entryFields c i) else 0
  | 3 => if i < 8192 then s.lineWord c i w else 0
  | 4 =>
    if 4096 * 32 ≤ i then 0
    else Config.rbWord 4 w (((s.slotStacks c (i / 32)).mstk.reverse[i % 32]?).elim []
      (fun e => [e.resume.toNat, e.mask.toNat, e.recon.toNat]))
  | 5 =>
    if 4096 * 16 ≤ i then 0
    else ((s.slotStacks c (i / 16)).rstk.reverse[i % 16]?).getD (Config.rbWord 5 w [])
  | 6 =>
    if 256 ≤ i then 0
    else Config.rbWord 6 w (((s.core c).tlb[i]?).elim [] (fun e => [e.ctx, e.vpn, e.log2, e.pte.toNat]))
  | _ => 0

/-- The eight bytes at offset `o` of core `c`'s block. -/
def State.coreDword (s : State) (c o : Nat) : Dword :=
  if 0x800 ≤ o then s.copyDword (5 + c) (o - 0x800)
  else match o with
    | 0x40 => pairNat (s.core c).limit.toNat 0
    | 0x48 => pairNat (65536 * (s.core c).cnt1 + (s.core c).cnt0) 0
    | 0x50 => pairNat (s.core c).mxstat.toNat 0
    | 0x60 => (s.core c).rbsel
    | 0x68 => s.rbdata c
    | 0x7F8 => pairNat (s.snapSeqOf (5 + c)).toNat 0
    | _ => 0

/-! ### What a context block reads as -/

/-- STATE of a context (R296). -/
def CtxState.code (x : CtxState) : Nat :=
  match x with
  | .free => 0
  | .active => 1
  | .requested => 2
  | .draining => 3
  | .saved => 4
  | .killed => 5

/-- CXM_CTL (R295). -/
def Ctx.ctl (x : Ctx) : Nat := 256 * x.touch.toNat + 16 * x.dies.toNat + (if x.phased then 8 else 0) + x.state.code

/-- An index register of a ring (R246, R309). -/
def ringIndex (lost head tail : Nat) : Dword := BitVec.ofNat 64 (281474976710656 * lost + 16777216 * head + tail)

/-- STATE of a launch record (R285). -/
def RecState.code (x : RecState) : Nat :=
  match x with
  | .free => 0
  | .dispatching => 1
  | .stopped => 2
  | .drainingOut => 3

/-- The eight bytes at offset `r` of a launch record (R285). -/
def LRec.dword (x : LRec) (r : Nat) : Dword :=
  match r with
  | 0x00 => x.desc
  | 0x08 => pairNat x.gx (65536 * x.gz + x.gy)
  | 0x10 => pairNat (x.next.getD 0 0) (x.next.getD 1 0)
  | 0x18 => pairNat (x.next.getD 2 0) (x.next.getD 3 0)
  | 0x20 => pairNat x.ended (16777216 * x.state.code + x.node.getD 65535)
  | 0x28 => pairNat x.childLeft x.queue
  | 0x30 => if x.sig then x.siga else 0
  | 0x38 => x.args
  | _ => 0

/-- The eight bytes at offset `o` of the registers of a context. -/
def Ctx.dword (x : Ctx) (o : Nat) : Dword :=
  if 0x200 ≤ o && o < 0x280 then
    x.attempt ((o - 0x200) / 2 + 3) ++ x.attempt ((o - 0x200) / 2 + 2) ++ x.attempt ((o - 0x200) / 2 + 1) ++ x.attempt ((o - 0x200) / 2)
  else if 0x1000 ≤ o && o < 0x5000 then (Fmap.find x.recs ((o - 0x1000) / 64)).elim 0 (fun r => r.dword (o % 64))
  else if 0x10 ≤ o && o < 0x30 then Fmap.get 0 x.save ((o - 0x10) / 8)
  else if 0x30 ≤ o && o < 0x50 then Fmap.get 0 x.spill ((o - 0x30) / 8)
  else match o with
    | 0x000 => pairNat x.ctl 0
    | 0x008 => pairNat (256 * x.bound.toNat) x.period.toNat
    | 0x100 => x.root
    | 0x108 => pairNat x.mirror.toNat 0
    | 0x110 => pairNat x.race.toNat 0
    | 0x118 => if x.inval.isEmpty then 0 else BitVec.ofNat 64 9223372036854775808
    | 0x128 => x.note
    | 0x130 => ringIndex x.noteLost x.noteHead x.noteTail
    | 0x138 => pairNat x.pfd.toNat 0
    | 0x140 => pairNat x.coll.toNat 0
    | 0x148 => x.fq
    | 0x150 => ringIndex x.fqLost x.fqHead x.fqTail
    | 0x158 => x.trap
    | _ => 0

/-- The eight bytes at offset `o` of context `k`'s block. -/
def State.ctxDword (s : State) (k o : Nat) : Dword :=
  if o = 0x7F8 then pairNat (s.snapSeqOf (53 + k)).toNat 0
  else if 0xF800 ≤ o then s.copyDword (53 + k) (o - 0xF800)
  else (s.ctx k).dword o

/-! ### Readback (R329) -/

/-- The eight bytes at an offset, a multiple of eight, of block `b`. -/
def State.blockDword (s : State) (b o : Nat) : Dword :=
  if b = 0 then s.packageDword o
  else if b < 5 then s.dieDword (b - 1) o
  else if b < 53 then s.coreDword (b - 5) o
  else s.ctxDword (b - 53) o

/-- The eight bytes at a BAR0 offset that is a multiple of eight: zero where no register lies (R324). -/
def State.readDword (s : State) (off : Nat) : Dword :=
  match blockAt off with
  | some (b, o) => s.blockDword b o
  | none => 0

/-- The four bytes at a BAR0 offset that is a multiple of four. -/
def State.readWord (s : State) (off : Nat) : Word := halfOf (s.readDword (off / 8 * 8)) (off % 8 = 4)

/-! ### Writes -/

/-- What a write carries to eight bytes of the register space: its value, and which halves it writes. -/
structure RegWrite where
  val : Dword
  lo : Bool
  hi : Bool
deriving DecidableEq, Repr

/-- The new value of a 64-bit register: a half that is not written keeps what it reads as (log 39). -/
def RegWrite.over (w : RegWrite) (old : Dword) : Dword :=
  pairOf (if w.lo then loOf w.val else loOf old) (if w.hi then hiOf w.val else hiOf old)

/-- A 32-bit register at the lower half, changed only if that half is written. -/
def RegWrite.low (w : RegWrite) (s : State) (f : Word → State) : State := if w.lo then f (loOf w.val) else s

/-- The bits of a 64-bit register that have storage. -/
def fieldsOf (v : Dword) (bits : Nat) : Dword := v &&& BitVec.ofNat 64 bits

/-- A write to PWRCTL.LIMIT (R333). -/
def State.writeLimit (s : State) (v : Word) : State :=
  let n := v.toNat % 4096
  if 600 ≤ n && n ≤ 2400 then { s with root := { s.root with limit := BitVec.ofNat 12 n } } else s

/-- A write to the registers of host queue `q` at offset `r` (R275 to R277). -/
def State.writeQueue (s : State) (q r : Nat) (w : RegWrite) : State :=
  let x := s.hq q
  match r with
  | 0 => if x.state = .disabled then s.setHq q { x with base := fieldsOf (w.over x.base) hqBaseBits } else s
  | 8 => w.low s (s.writeHqcfg q)
  | 16 => w.low s (s.ring q)
  | 24 => w.low s (fun v => if v.getLsbD 31 then s.clearFault q else s)
  | _ => s

/-- The packet of a node with eight of its bytes replaced. -/
def Node.setPkt (x : Node) (r : Nat) (v : Dword) : Node :=
  { x with pkt := x.pkt.take r ++ leBytes 8 v.toNat ++ x.pkt.drop (r + 8) }

/-- The fields of a node that a write changes (R289). -/
def Node.written (x : Node) (r : Nat) (w : RegWrite) : Node :=
  if r < 64 then x.setPkt r (w.over (x.dword r))
  else match r with
    | 0x40 =>
      let x := if w.lo then { x with init := (loOf w.val).toNat % 65536 } else x
      if w.hi then { x with valid := (hiOf w.val).getLsbD 6, ctx := (hiOf w.val).toNat % 64 } else x
    | 0x48 => if w.lo then { x with nsucc := (loOf w.val).toNat % 16 } else x
    | 0x50 => { x with succ := x.succ.extractLsb' 64 64 ++ w.over (x.succ.extractLsb' 0 64) }
    | 0x58 => { x with succ := w.over (x.succ.extractLsb' 64 64) ++ x.succ.extractLsb' 0 64 }
    | _ => x

/-- A write to node `n` (R289): ignored while it is WAITING or LAUNCHED. -/
def State.writeNode (s : State) (n r : Nat) (w : RegWrite) : State :=
  let x := s.node n
  if x.state = .waiting || x.state = .launched then s else s.setNode n (x.written r w)

/-- A write to the package block. -/
def State.writePackage (s : State) (o : Nat) (w : RegWrite) : State :=
  if 0x80000 ≤ o && o < 0x88000 then s.writeQueue ((o - 0x80000) / 32) (o % 32) w
  else if 0x90000 ≤ o && o < 0x91000 then
    (if o % 16 = 0 then
      let k := (o - 0x90000) / 16
      { s with acl := Fmap.insert s.acl k (fieldsOf (w.over (Fmap.get 0 s.acl k)) 0xFFFFFFFFFFF80007) }
     else s)
  else if 0x100000 ≤ o && o < 0x300000 then s.writeNode ((o - 0x100000) / 128) (o % 128) w
  else match o with
    | 0x220 => w.low s (fun v => if v.getLsbD 0 then s.raiseTrigger else s)
    | 0x228 => { s with root := { s.root with snapPerm := w.over s.root.snapPerm } }
    | 0x238 => w.low s s.writeLimit
    | _ => s

/-- A write to die `d`'s block. -/
def State.writeDie (s : State) (d o : Nat) (w : RegWrite) : State :=
  if 0x4000 ≤ o && o < 0x14000 then
    let k := (o - 0x4000) / 0x400
    let p := o % 0x400 / 0x40
    let x := s.pool d k p
    match o % 0x40 with
    | 0 => s.setPool d k p { x with base := fieldsOf (w.over x.base) 0x0FFFFFFFFFFFFFC0 }
    | 8 => s.writePoolCfg d k p (w.over x.cfg)
    | _ => s
  else s

/-- A write to RBSEL latches a selection (R330). -/
def State.writeRbsel (s : State) (c : Nat) (v : Dword) : State := s.setCore c { s.core c with rbsel := v, rbSet := true }

/-- A write of 1s to MXCTL (R271). -/
def State.writeMxctl (s : State) (c : Nat) (v : Word) : State :=
  (s.fenceQuads c (v.extractLsb' 0 4)).retestQuads c (v.extractLsb' 4 4)

/-- A write to core `c`'s block. -/
def State.writeCore (s : State) (c o : Nat) (w : RegWrite) : State :=
  match o with
  | 0x40 => w.low s (fun v => s.setCore c { s.core c with limit := v })
  | 0x58 => w.low s (s.writeMxctl c)
  | 0x60 => s.writeRbsel c (w.over (s.core c).rbsel)
  | _ => s

/-- The registers of a context that only hold what is written (R95, R240, R246, R250, R295, R304, R309). -/
def Ctx.written (x : Ctx) (o : Nat) (w : RegWrite) : Ctx :=
  if 0x10 ≤ o && o < 0x30 then
    { x with save := Fmap.insert x.save ((o - 0x10) / 8) (fieldsOf (w.over (x.dword o)) 0x0FFFFFFFFFFFFFFF) }
  else if 0x30 ≤ o && o < 0x50 then
    { x with spill := Fmap.insert x.spill ((o - 0x30) / 8) (fieldsOf (w.over (x.dword o)) 0x0FFFFFFFFFFFFFFF) }
  else match o with
    | 0x100 => { x with root := fieldsOf (w.over x.root) 0x000FFFFFFFFF8001 }
    | 0x108 => if w.lo then { x with mirror := loOf w.val &&& 0x0FFF1FFF } else x
    | 0x110 => if w.lo && (loOf w.val).extractLsb' 0 2 != 3 then { x with race := (loOf w.val).extractLsb' 0 2 } else x
    | 0x128 => { x with note := fieldsOf (w.over x.note) 0x0FFFFFFFFFFFF00F }
    | 0x130 => { x with noteHead := (w.over (x.dword o)).toNat / 16777216 % 16777216 }
    | 0x138 => if w.lo then { x with pfd := loOf w.val &&& 0xFFFF } else x
    | 0x140 => if w.lo then { x with coll := loOf w.val &&& 0xFF0001FF } else x
    | 0x148 => { x with fq := fieldsOf (w.over x.fq) 0x0FFFFFFFFFFFF80F }
    | 0x150 => { x with fqHead := (w.over (x.dword o)).toNat / 16777216 % 16777216 }
    | 0x158 => { x with trap := fieldsOf (w.over x.trap) 0x0FFFFFFFFFFFFF01 }
    | _ => x

/-- A write to context `k`'s block: CXM_CTL, CXM_PREEMPT, CXM_INVAL and CXM_RESUME have behaviour of their own. -/
def State.writeCtx (s : State) (k o : Nat) (w : RegWrite) : State :=
  match o with
  | 0x000 => w.low s (fun v => if (s.ctx k).state = .free then s.createCtx k v else s.freeCtx k v)
  | 0x008 => s.writePreempt k (w.over ((s.ctx k).dword 0x008))
  | 0x118 => s.startInval k (w.over 0)
  | 0x120 => w.low s (s.resumeParked k)
  | _ => s.setCtx k ((s.ctx k).written o w)

/-- A write to eight bytes of the register space; one that no register covers is ignored (R324). -/
def State.writeDword (s : State) (off : Nat) (w : RegWrite) : State :=
  match blockAt off with
  | none => s
  | some (b, o) =>
    if b = 0 then s.writePackage o w
    else if b < 5 then s.writeDie (b - 1) o w
    else if b < 53 then s.writeCore (b - 5) o w
    else s.writeCtx (b - 53) o w

/-- Whether the register space answers: not after a failed boot (R326). -/
def State.answers (s : State) : Bool := s.root.stage != .failed

/-- What the host reads of eight bytes at a BAR0 offset that is a multiple of eight: nothing where the register space does not
answer (R324, R326, R329). -/
def State.hostRead (s : State) (off : Nat) : Option Dword := if s.answers then some (s.readDword off) else none

/-! ### Configuration space (R323, R328) -/

/-- The capabilities of configuration space that R328 names. Their places in the two lists and the layout of each are those of
PCIe, which the spec does not restate (log 87). -/
inductive ConfigCap where
  | pcie | powerManagement | msix | doe
deriving DecidableEq, Repr

/-- The standard and the extended capability list (R328). -/
def standardCaps : List ConfigCap := [.powerManagement, .msix, .pcie]
def extendedCaps : List ConfigCap := [.doe]

/-- What the spec says that a capability shows: the widest link (R323), the power state (R335), the number of MSI-X vectors
(R323), and the answer in the DOE mailbox (R324). -/
inductive ConfigValue where
  | lanes (n : Nat)
  | power (p : Power)
  | vectors (n : Nat)
  | mailbox (m : Option (BitVec 384 × BitVec 384))
deriving DecidableEq, Repr

/-- A read of configuration space, which answers in every stage, after a failed boot too (R326). -/
def State.configRead (s : State) (c : ConfigCap) : ConfigValue :=
  match c with
  | .pcie => .lanes 16
  | .powerManagement => .power s.root.power
  | .msix => .vectors 2048
  | .doe => .mailbox s.root.doe

/-! ### Host writes -/

/-- A write of four or, where `wide`, of eight bytes at a BAR0 offset; one that is not aligned is ignored (log 39). -/
def State.writeReg (s : State) (off : Nat) (wide : Bool) (v : Dword) : State :=
  if !s.answers then s
  else if wide then (if off % 8 = 0 then s.writeDword off ⟨v, true, true⟩ else s)
  else if off % 8 = 0 then s.writeDword off ⟨v, true, false⟩
  else if off % 8 = 4 then s.writeDword (off - 4) ⟨pairOf 0 (loOf v), false, true⟩
  else s

/-- REGISTER_WRITE (R324, R329). -/
def execRegisterWrite (off : Nat) (wide : Bool) (v : Dword) (s : State) : Out := .next (s.writeReg off wide v)

/-- RBSEL (R330). -/
def execRbsel (core : Nat) (v : Dword) (s : State) : Out := .next (s.writeRbsel core v)

/-! ### Snapshots (R331, R332) -/

/-- TRIG (R332). -/
def execTrig (s : State) : Out := .next s.raiseTrigger

/-- Block `b` latches its copy: SNAPSEQ counts the trigger, and the copy takes what offsets 0 to 0x7FF read as. -/
def State.latchBlock (s : State) (b : Nat) : State :=
  let t : State := { s with snapSeqs := Fmap.insert s.snapSeqs b (s.snapSeqOf b + 1) }
  { t with
      snaps := (List.range 512).foldl (fun m i => Fmap.put 0 m (512 * b + i) (t.readWord (blockBase b + 4 * i))) t.snaps
      root := { t.root with snapPend := t.root.snapPend.filter (fun x => x != b) } }

/-- SNAPSHOT_LATCH (R332). -/
def execSnapshotLatch (block : Nat) (s : State) : Out :=
  .next (if s.root.snapPend.contains block then s.latchBlock block else s)

/-! ### Memory -/

/-- HOST_WRITE (R110): the bytes at a physical address; there is no memory beyond the kinds of R86. -/
def execHostWrite (pa : Nat) (bytes : List Byte) (s : State) : Out :=
  if (List.range bytes.length).all (fun i => isMemory (pa + i)) then .next (s.storeCells (cellsOf pa bytes)) else .fault .noSuchMemory

end Sys2Proof.Machine
end

