-- ==== Sys2Proof/Machine/Platform.lean ====
section
/-! DEFINITION. Reset and boot (R325 to R327), the SPDM responder (R324), power (R333, R335), soft errors (R312, R313), the loss
of a die (R319, R320), and the delivery of asynchronous traps (R302). -/

namespace Sys2Proof.Machine

/-! ### Boot (R325 to R327) -/

/-- BOOTSTAT.FAIL of an image (R325). -/
def failCode (img : Boot) : Byte :=
  match img with
  | .verified => 0
  | .noImage => 1
  | .badSignature => 2
  | .badKeyHash => 3
  | .badFormat => 4

/-- The machine as it is at reset, with what the model's own choices and draws have reached. -/
def State.cleared (s : State) : State := { State.reset with agenda := s.agenda, free := s.free }

/-- The boot ROM's verification (R326, R327): the image is measured (R324), and die 0 enters service, or no die does. -/
def State.boot (s : State) (img : Boot) : State :=
  let t : State := { s.cleared.drawn with root := { Root.reset with image := Config.imageMeasure s.free } }
  match img with
  | .verified => { t.setDie 0 { t.die 0 with alive := true } with root := { t.root with stage := .die0 } }
  | _ => { t with root := { t.root with stage := .failed, fail := failCode img } }

/-- RESET (R325). -/
def execReset (img : Boot) (s : State) : Out := .next (s.boot img)

/-- DIE_AUTHENTICATION (R325 to R327): a die that is authenticated joins at a release, for which the command processor
requests a boundary; one that is not is left out. -/
def execDieAuthentication (die : Nat) (ok : Bool) (s : State) : Out :=
  let x := s.die die
  .next (if !(s.root.stage = .die0 || s.root.stage = .joining) || !(1 ≤ die && die ≤ 3) || x.authDone || x.leftOut || x.lost then s
    else
      let t : State := { s with root := { s.root with stage := .joining } }
      if ok then (t.setDie die { x with authDone := true, joinPending := true }).request .boundary
      else (t.setDie die { x with leftOut := true }).fullStage)

/-- SPDM_REQUEST (R324, R326): answered in every stage from DIE0 on, and after a failed boot; the DOE mailbox then holds the
measurement of the firmware image and that of the fused key hash. -/
def execSpdmRequest (s : State) : Out :=
  .next (if s.root.stage = .rom || s.root.stage = .verify then s
    else { s with root := { s.root with doe := some (s.root.image, Config.keyHashMeasure) } })

/-! ### Power (R333, R335) -/

/-- D3HOT (R335): all state is kept. -/
def execD3hot (s : State) : Out := .next (if s.root.power = .d0 then { s with root := { s.root with power := .d3hot } } else s)

/-- D3COLD (R335): all state is removed. -/
def execD3cold (s : State) : Out :=
  .next { s.cleared with root := { Root.reset with power := .d3cold } }

/-- D0_RETURN (R335): from D3hot the clocks go on; from D3cold the device boots. -/
def execD0Return (img : Boot) (s : State) : Out :=
  .next (match s.root.power with
    | .d0 => s
    | .d3hot => { s with root := { s.root with power := .d0 } }
    | .d3cold => s.boot img)

/-- THROTTLE (R333): a die's clock is lowered by 0 to 4 sixteenths. -/
def execThrottle (die steps : Nat) (s : State) : Out :=
  .next (if die < 4 && steps ≤ 4 then s.setDie die { s.die die with throt := steps } else s)

/-- Whether an event can happen in a power state (R335): outside D0, only those that change it. -/
def happensIn (i : Instr) (p : Power) : Bool :=
  match p, i with
  | .d0, _ => true
  | _, .reset _ => true
  | _, .d3cold => true
  | _, .d0Return _ => true
  | _, _ => false

/-- Whether an event can happen after a failed boot (R326): no die is in service, and only configuration space and the DOE
mailbox answer, so that nothing happens but a change of power, a reset, an SPDM request and what befalls the hardware. -/
def afterFailure (i : Instr) : Bool :=
  match i with
  | .reset _ => true
  | .d3hot => true
  | .d3cold => true
  | .d0Return _ => true
  | .spdmRequest => true
  | .softError _ => true
  | .dieLost _ => true
  | _ => false

/-- Whether the package is in a state in which an event happens (R326, R335). -/
def State.lets (s : State) (i : Instr) : Bool := happensIn i s.root.power && (s.answers || afterFailure i)

/-! ### The loss of a die (R319, R320) -/

/-- The workgroups on die `d` that are not final. -/
def State.wgsOnDie (s : State) (d : Nat) : List Nat :=
  Fmap.keys (Fmap.select s.wgs (fun _ w => dieOfCore w.core = d && w.state != .ended && w.state != .terminated))

/-- A die out of service: its retire queue, its translations and its saved counts are gone (R122, R124, R320). -/
def Die.gone (x : Die) : Die :=
  { x with alive := false, lost := true, joinPending := false, retireQ := [], tlb := [], walkQ := [], sav0 := 0, sav1 := 0 }

/-- A core of a lost die: its counters are gone, and it owes no acknowledgement (R122, R320). -/
def Core.gone (k : Core) : Core :=
  { k with cnt0 := 0, cnt1 := 0, flipPending := false, relPending := false, token := false, timer := none, l1 := [], tlb := [] }

/-- What stands on die `d` alone is gone with it: its workgroups, the transfers of those that had ended, its counters, the lines and slots that it has not
propagated, and the snapshot copies that its blocks have not latched (R320, R332). -/
def State.dropDie (s : State) (d : Nat) : State :=
  let t := (s.wgsOnDie d).foldl State.terminate s
  let t := t.setDie d (t.die d).gone
  { t with
      engs := Fmap.select t.engs (fun _ o => dieOfCore (t.wg o.wg).core != d)
      cores := Fmap.mapVals (fun c (k : Core) => if dieOfCore c = d then k.gone else k) t.cores
      dirty := Fmap.select t.dirty (fun k _ => k / 17592186044416 != d)
      dirtyNext := Fmap.select t.dirtyNext (fun k _ => k / 17592186044416 != d)
      dirtySlots := Fmap.select t.dirtySlots (fun k _ => k / 4096 != d)
      dirtySlotsNext := Fmap.select t.dirtySlotsNext (fun k _ => k / 4096 != d)
      root := { t.root with snapPend := t.root.snapPend.filter t.blockAlive } }

/-- Context `k` is killed by the loss of die `d`, with its record (R320). -/
def State.killLost (d : Nat) (s : State) (k : Nat) : State := (s.kill k).record k 9 d noCore 0 noWg 0 0

/-- The superstep whose completion is the first compute-end boundary with a wave opened after now (R320). -/
def Root.nextBoundary (r : Root) : Dword :=
  if r.ph.getLsbD 0 then r.ph + 1 else if r.wave.isNone then r.ph else r.ph + 2

/-- A rollback of group `g` that waits for its matrix operations is abandoned for a die loss (R316). -/
def State.abandon (s : State) (g : Nat) : State :=
  s.modGroup g (fun x => if x.abandons && x.rollbackDue then { x.toBoundary with rollbackDue := false } else x)

/-- The loss of a die other than die 0 (R320). -/
def State.losePart (s : State) (d : Nat) : State :=
  let ks := (List.range 64).filter (fun k => (s.ctx k).touch.getLsbD d && (s.ctx k).state != .free)
  let t := ks.foldl (State.killLost d) (s.dropDie d)
  let gs := Fmap.keys (t.groupsWhere (fun x => x.status = .live && ks.contains (t.wg x.wg).ctx))
  let t := gs.foldl (fun t g => (t.raiseAsync g .dieLost).abandon g) t
  let t : State := { t with root := { t.root with doomed := t.root.doomed ++ ks.map (fun k => (k, s.root.nextBoundary)) } }
  (t.request .boundary).beginGrace.fullStage

/-- The loss of die 0 (R44, R320): every context is killed and every workgroup is terminated at once. -/
def State.loseRoot (s : State) : State :=
  let t := s.setDie 0 (s.die 0).gone
  let t := (List.range 64).foldl (State.killLost 0) t
  let t := [1, 2, 3].foldl (fun t d => (t.wgsOnDie d).foldl State.terminate t) t
  { t.dropDie 0 with dirty := [], dirtyNext := [], dirtySlots := [], dirtySlotsNext := [] }

/-- A die is lost (R319). -/
def State.loseDie (s : State) (d : Nat) : State :=
  if 4 ≤ d || (s.die d).lost then s else if d = 0 then s.loseRoot else s.losePart d

/-- DIE_LOST (R319, R320, R334). -/
def execDieLost (die : Nat) (s : State) : Out := .next (s.loseDie die)

/-! ### Soft errors (R312, R313) -/

/-- A slice of the pool marked as holding an error in one lane. -/
def Slice.spoil (id lane : Nat) (x : Slice) : Slice :=
  if x.id = id then { x with bad := x.bad ||| BitVec.ofNat 8 (2 ^ lane) } else x

/-- An entry of the pool marked as holding an error. -/
def Entry.spoil (id : Nat) (x : Entry) : Entry := if x.id = id then { x with bad := true } else x

/-- The groups of core `c` changed by `f`. -/
def State.modCoreGroups (s : State) (c : Nat) (f : Group → Group) : State :=
  { s with groups := Fmap.mapVals (fun _ x => if (s.wg x.wg).core = c && (s.wg x.wg).state.onCore then f x else x) s.groups }

/-- An error in lane `lane` of a vector name or tile column of group `g`: every mapping of the slice holds it. -/
def State.spoilV (s : State) (g name lane : Nat) : State :=
  match Fmap.find (s.group g).v (vkey name (lane / 8)) with
  | none => s
  | some x => s.modCoreGroups (s.coreOf g) (fun y =>
      { y with v := Fmap.mapVals (fun _ z => z.spoil x.id (lane % 8)) y.v
               region := y.region.map (fun r => { r with v := Fmap.mapVals (fun _ z => z.spoil x.id (lane % 8)) r.v }) })

/-- An error in a scalar name of group `g`: every mapping of the entry holds it. -/
def State.spoilS (s : State) (g name : Nat) : State :=
  match Fmap.find (s.group g).s name with
  | none => s
  | some x => s.modCoreGroups (s.coreOf g) (fun y =>
      { y with s := Fmap.mapVals (fun _ z => z.spoil x.id) y.s
               region := y.region.map (fun r => { r with s := Fmap.mapVals (fun _ z => z.spoil x.id) r.s }) })

/-- Whether group `g` runs on a core of a die in service. -/
def State.onDuty (s : State) (g : Nat) : Bool :=
  (Fmap.find s.groups g).isSome && (s.group g).status = .live && (s.wgOf g).state.onCore && s.dieRuns (s.dieOf g)

/-- An uncorrectable error of group `g` at a site that no register or memory read meets. -/
def State.hit (site : Nat) (s : State) (g : Nat) : State := if s.onDuty g then s.uncorrectable g site 0 else s

/-- An error in the line that core `c`'s L1 holds of `pa`: its 8 bytes are poisoned there. -/
def State.spoilL1 (s : State) (c pa : Nat) : State :=
  s.setCore c { s.core c with l1 := Fmap.adjust (s.core c).l1 (pa / l1LineBytes) (fun l =>
    { l with bad := l.bad ||| BitVec.ofNat 16 (2 ^ (pa % l1LineBytes / 8)) }) }

/-- A soft error (R312, R313). -/
def State.softError (s : State) (e : SoftError) : State :=
  match e with
  | .corrected => s
  | .data loc => { s with poison := Fmap.insert s.poison (loc / 8) true }
  | .cache c pa => s.spoilL1 c pa
  | .tag loc => { s with tagPoison := Fmap.insert s.tagPoison (loc / 64) true }
  | .vector g name lane => s.spoilV g name lane
  | .scalar g name => s.spoilS g name
  | .pipe g => s.hit 3 g
  | .issueState c => (Fmap.keys (s.groupsWhere (fun x => (s.wg x.wg).core = c))).foldl (State.hit 5) s
  | .dieControl d => s.loseDie d

/-- SOFT_ERROR (R312). -/
def execSoftError (e : SoftError) (s : State) : Out := .next (s.softError e)

/-! ### Asynchronous traps (R302) -/

/-- ASYNC_TRAP_DELIVERY (R302, R303): a trap that is due is delivered at the group's instruction boundary or in its wait. -/
def execAsyncTrapDelivery (g : Nat) (s : State) : Out :=
  .next (if s.onDuty g && (s.wgOf g).state = .resident && (s.group g).asyncDue then s.takeAsync g else s)

end Sys2Proof.Machine
end

