-- ==== Sys2Proof/Machine/Dispatch.lean ====
section
/-! DEFINITION. The dispatch of a step's instruction or event to its meaning: one arm for each constructor of Instr. -/

namespace Sys2Proof.Machine

/-- The meaning of an instruction of the group that issues, or of an event. -/
def exec (i : Instr) (s : State) : Host.Outcome State Fault Refusal :=
  match i with
  | .sadd f => Sys2Proof.Machine.execSadd f s
  | .ssub f => Sys2Proof.Machine.execSsub f s
  | .smul f => Sys2Proof.Machine.execSmul f s
  | .smulhI f => Sys2Proof.Machine.execSmulhI f s
  | .smulhN f => Sys2Proof.Machine.execSmulhN f s
  | .sdivI f => Sys2Proof.Machine.execSdivI f s
  | .sdivN f => Sys2Proof.Machine.execSdivN f s
  | .sremI f => Sys2Proof.Machine.execSremI f s
  | .sremN f => Sys2Proof.Machine.execSremN f s
  | .sand f => Sys2Proof.Machine.execSand f s
  | .sor f => Sys2Proof.Machine.execSor f s
  | .sxor f => Sys2Proof.Machine.execSxor f s
  | .sshl f => Sys2Proof.Machine.execSshl f s
  | .sshrN f => Sys2Proof.Machine.execSshrN f s
  | .sshrI f => Sys2Proof.Machine.execSshrI f s
  | .sminI f => Sys2Proof.Machine.execSminI f s
  | .smaxI f => Sys2Proof.Machine.execSmaxI f s
  | .sminN f => Sys2Proof.Machine.execSminN f s
  | .smaxN f => Sys2Proof.Machine.execSmaxN f s
  | .sseq f => Sys2Proof.Machine.execSseq f s
  | .ssne f => Sys2Proof.Machine.execSsne f s
  | .ssltI f => Sys2Proof.Machine.execSsltI f s
  | .ssltN f => Sys2Proof.Machine.execSsltN f s
  | .ssleI f => Sys2Proof.Machine.execSsleI f s
  | .ssleN f => Sys2Proof.Machine.execSsleN f s
  | .smov f => Sys2Proof.Machine.execSmov f s
  | .spopc f => Sys2Proof.Machine.execSpopc f s
  | .sclz f => Sys2Proof.Machine.execSclz f s
  | .saddi f => Sys2Proof.Machine.execSaddi f s
  | .sandi f => Sys2Proof.Machine.execSandi f s
  | .sori f => Sys2Proof.Machine.execSori f s
  | .sxori f => Sys2Proof.Machine.execSxori f s
  | .sshli f => Sys2Proof.Machine.execSshli f s
  | .sshriN f => Sys2Proof.Machine.execSshriN f s
  | .sshriI f => Sys2Proof.Machine.execSshriI f s
  | .ssltiI f => Sys2Proof.Machine.execSsltiI f s
  | .ssltiN f => Sys2Proof.Machine.execSsltiN f s
  | .smovi f => Sys2Proof.Machine.execSmovi f s
  | .sget f => Sys2Proof.Machine.execSget f s
  | .sset f => Sys2Proof.Machine.execSset f s
  | .vget f => Sys2Proof.Machine.execVget f s
  | .vset f => Sys2Proof.Machine.execVset f s
  | .bz f => Sys2Proof.Machine.execBz f s
  | .bnz f => Sys2Proof.Machine.execBnz f s
  | .bltz f => Sys2Proof.Machine.execBltz f s
  | .bgez f => Sys2Proof.Machine.execBgez f s
  | .bgtz f => Sys2Proof.Machine.execBgtz f s
  | .blez f => Sys2Proof.Machine.execBlez f s
  | .jmp f => Sys2Proof.Machine.execJmp f s
  | .call f => Sys2Proof.Machine.execCall f s
  | .nop => Sys2Proof.Machine.execNop s
  | .ret => Sys2Proof.Machine.execRet s
  | .jmpi f => Sys2Proof.Machine.execJmpi f s
  | .calli f => Sys2Proof.Machine.execCalli f s
  | .exit => Sys2Proof.Machine.execExit s
  | .yield => Sys2Proof.Machine.execYield s
  | .snap => Sys2Proof.Machine.execSnap s
  | .trap f => Sys2Proof.Machine.execTrap f s
  | .velse => Sys2Proof.Machine.execVelse s
  | .vend => Sys2Proof.Machine.execVend s
  | .phend => Sys2Proof.Machine.execPhend s
  | .xend => Sys2Proof.Machine.execXend s
  | .idemb => Sys2Proof.Machine.execIdemb s
  | .ideme => Sys2Proof.Machine.execIdeme s
  | .rdenter => Sys2Proof.Machine.execRdenter s
  | .rdexit => Sys2Proof.Machine.execRdexit s
  | .gpwait => Sys2Proof.Machine.execGpwait s
  | .fence f => Sys2Proof.Machine.execFence f s
  | .dlaunch f => Sys2Proof.Machine.execDlaunch f s
  | .vif f => Sys2Proof.Machine.execVif f s
  | .vloop f => Sys2Proof.Machine.execVloop f s
  | .vwhile f => Sys2Proof.Machine.execVwhile f s
  | .gsplit f => Sys2Proof.Machine.execGsplit f s
  | .gfuse f => Sys2Proof.Machine.execGfuse f s
  | .gcompact f => Sys2Proof.Machine.execGcompact f s
  | .barb f => Sys2Proof.Machine.execBarb f s
  | .barn f => Sys2Proof.Machine.execBarn f s
  | .barc f => Sys2Proof.Machine.execBarc f s
  | .blset f => Sys2Proof.Machine.execBlset f s
  | .blclr f => Sys2Proof.Machine.execBlclr f s
  | .vaddF32 f => Sys2Proof.Machine.execVaddF32 f s
  | .vsubF32 f => Sys2Proof.Machine.execVsubF32 f s
  | .vmulF32 f => Sys2Proof.Machine.execVmulF32 f s
  | .vfmaF32 f => Sys2Proof.Machine.execVfmaF32 f s
  | .vfmsF32 f => Sys2Proof.Machine.execVfmsF32 f s
  | .vminF32 f => Sys2Proof.Machine.execVminF32 f s
  | .vmaxF32 f => Sys2Proof.Machine.execVmaxF32 f s
  | .vdivF32 f => Sys2Proof.Machine.execVdivF32 f s
  | .vabsF32 f => Sys2Proof.Machine.execVabsF32 f s
  | .vnegF32 f => Sys2Proof.Machine.execVnegF32 f s
  | .vrcpF32 f => Sys2Proof.Machine.execVrcpF32 f s
  | .vrsqF32 f => Sys2Proof.Machine.execVrsqF32 f s
  | .vsqrtF32 f => Sys2Proof.Machine.execVsqrtF32 f s
  | .vexp2F32 f => Sys2Proof.Machine.execVexp2F32 f s
  | .vlog2F32 f => Sys2Proof.Machine.execVlog2F32 f s
  | .vtanhF32 f => Sys2Proof.Machine.execVtanhF32 f s
  | .vaddF16 f => Sys2Proof.Machine.execVaddF16 f s
  | .vsubF16 f => Sys2Proof.Machine.execVsubF16 f s
  | .vmulF16 f => Sys2Proof.Machine.execVmulF16 f s
  | .vfmaF16 f => Sys2Proof.Machine.execVfmaF16 f s
  | .vfmsF16 f => Sys2Proof.Machine.execVfmsF16 f s
  | .vminF16 f => Sys2Proof.Machine.execVminF16 f s
  | .vmaxF16 f => Sys2Proof.Machine.execVmaxF16 f s
  | .vdivF16 f => Sys2Proof.Machine.execVdivF16 f s
  | .vabsF16 f => Sys2Proof.Machine.execVabsF16 f s
  | .vnegF16 f => Sys2Proof.Machine.execVnegF16 f s
  | .vrcpF16 f => Sys2Proof.Machine.execVrcpF16 f s
  | .vrsqF16 f => Sys2Proof.Machine.execVrsqF16 f s
  | .vsqrtF16 f => Sys2Proof.Machine.execVsqrtF16 f s
  | .vexp2F16 f => Sys2Proof.Machine.execVexp2F16 f s
  | .vlog2F16 f => Sys2Proof.Machine.execVlog2F16 f s
  | .vtanhF16 f => Sys2Proof.Machine.execVtanhF16 f s
  | .vaddBf16 f => Sys2Proof.Machine.execVaddBf16 f s
  | .vsubBf16 f => Sys2Proof.Machine.execVsubBf16 f s
  | .vmulBf16 f => Sys2Proof.Machine.execVmulBf16 f s
  | .vfmaBf16 f => Sys2Proof.Machine.execVfmaBf16 f s
  | .vfmsBf16 f => Sys2Proof.Machine.execVfmsBf16 f s
  | .vminBf16 f => Sys2Proof.Machine.execVminBf16 f s
  | .vmaxBf16 f => Sys2Proof.Machine.execVmaxBf16 f s
  | .vdivBf16 f => Sys2Proof.Machine.execVdivBf16 f s
  | .vabsBf16 f => Sys2Proof.Machine.execVabsBf16 f s
  | .vnegBf16 f => Sys2Proof.Machine.execVnegBf16 f s
  | .vrcpBf16 f => Sys2Proof.Machine.execVrcpBf16 f s
  | .vrsqBf16 f => Sys2Proof.Machine.execVrsqBf16 f s
  | .vsqrtBf16 f => Sys2Proof.Machine.execVsqrtBf16 f s
  | .vexp2Bf16 f => Sys2Proof.Machine.execVexp2Bf16 f s
  | .vlog2Bf16 f => Sys2Proof.Machine.execVlog2Bf16 f s
  | .vtanhBf16 f => Sys2Proof.Machine.execVtanhBf16 f s
  | .vaddI32 f => Sys2Proof.Machine.execVaddI32 f s
  | .vsubI32 f => Sys2Proof.Machine.execVsubI32 f s
  | .vmulI32 f => Sys2Proof.Machine.execVmulI32 f s
  | .vmadI32 f => Sys2Proof.Machine.execVmadI32 f s
  | .vminI32 f => Sys2Proof.Machine.execVminI32 f s
  | .vmaxI32 f => Sys2Proof.Machine.execVmaxI32 f s
  | .vmulhI32 f => Sys2Proof.Machine.execVmulhI32 f s
  | .vaddsI32 f => Sys2Proof.Machine.execVaddsI32 f s
  | .vsubsI32 f => Sys2Proof.Machine.execVsubsI32 f s
  | .vshlI32 f => Sys2Proof.Machine.execVshlI32 f s
  | .vshrI32 f => Sys2Proof.Machine.execVshrI32 f s
  | .vdivI32 f => Sys2Proof.Machine.execVdivI32 f s
  | .vremI32 f => Sys2Proof.Machine.execVremI32 f s
  | .vabsI32 f => Sys2Proof.Machine.execVabsI32 f s
  | .vaddN32 f => Sys2Proof.Machine.execVaddN32 f s
  | .vsubN32 f => Sys2Proof.Machine.execVsubN32 f s
  | .vmulN32 f => Sys2Proof.Machine.execVmulN32 f s
  | .vmadN32 f => Sys2Proof.Machine.execVmadN32 f s
  | .vminN32 f => Sys2Proof.Machine.execVminN32 f s
  | .vmaxN32 f => Sys2Proof.Machine.execVmaxN32 f s
  | .vmulhN32 f => Sys2Proof.Machine.execVmulhN32 f s
  | .vaddsN32 f => Sys2Proof.Machine.execVaddsN32 f s
  | .vsubsN32 f => Sys2Proof.Machine.execVsubsN32 f s
  | .vshlN32 f => Sys2Proof.Machine.execVshlN32 f s
  | .vshrN32 f => Sys2Proof.Machine.execVshrN32 f s
  | .vdivN32 f => Sys2Proof.Machine.execVdivN32 f s
  | .vremN32 f => Sys2Proof.Machine.execVremN32 f s
  | .vaddI64 f => Sys2Proof.Machine.execVaddI64 f s
  | .vsubI64 f => Sys2Proof.Machine.execVsubI64 f s
  | .vminI64 f => Sys2Proof.Machine.execVminI64 f s
  | .vmaxI64 f => Sys2Proof.Machine.execVmaxI64 f s
  | .vminN64 f => Sys2Proof.Machine.execVminN64 f s
  | .vmaxN64 f => Sys2Proof.Machine.execVmaxN64 f s
  | .vshlI64 f => Sys2Proof.Machine.execVshlI64 f s
  | .vshrN64 f => Sys2Proof.Machine.execVshrN64 f s
  | .vshrI64 f => Sys2Proof.Machine.execVshrI64 f s
  | .vand f => Sys2Proof.Machine.execVand f s
  | .vor f => Sys2Proof.Machine.execVor f s
  | .vxor f => Sys2Proof.Machine.execVxor f s
  | .vandn f => Sys2Proof.Machine.execVandn f s
  | .vnot f => Sys2Proof.Machine.execVnot f s
  | .vmov f => Sys2Proof.Machine.execVmov f s
  | .vbs f => Sys2Proof.Machine.execVbs f s
  | .vimm f => Sys2Proof.Machine.execVimm f s
  | .vsel f => Sys2Proof.Machine.execVsel f s
  | .vpopc f => Sys2Proof.Machine.execVpopc f s
  | .vclz f => Sys2Proof.Machine.execVclz f s
  | .vceq f => Sys2Proof.Machine.execVceq f s
  | .vcne f => Sys2Proof.Machine.execVcne f s
  | .vclt f => Sys2Proof.Machine.execVclt f s
  | .vcle f => Sys2Proof.Machine.execVcle f s
  | .vcgt f => Sys2Proof.Machine.execVcgt f s
  | .vcge f => Sys2Proof.Machine.execVcge f s
  | .vcun f => Sys2Proof.Machine.execVcun f s
  | .vcor f => Sys2Proof.Machine.execVcor f s
  | .vcvt f => Sys2Proof.Machine.execVcvt f s
  | .vcvtq f => Sys2Proof.Machine.execVcvtq f s
  | .mand f => Sys2Proof.Machine.execMand f s
  | .mor f => Sys2Proof.Machine.execMor f s
  | .mxor f => Sys2Proof.Machine.execMxor f s
  | .mandn f => Sys2Proof.Machine.execMandn f s
  | .mnot f => Sys2Proof.Machine.execMnot f s
  | .mmov f => Sys2Proof.Machine.execMmov f s
  | .mlds f => Sys2Proof.Machine.execMlds f s
  | .msts f => Sys2Proof.Machine.execMsts f s
  | .mpopc f => Sys2Proof.Machine.execMpopc f s
  | .mfirst f => Sys2Proof.Machine.execMfirst f s
  | .vballot f => Sys2Proof.Machine.execVballot f s
  | .vshfl f => Sys2Proof.Machine.execVshfl f s
  | .vshfx f => Sys2Proof.Machine.execVshfx f s
  | .vrot f => Sys2Proof.Machine.execVrot f s
  | .vbcast f => Sys2Proof.Machine.execVbcast f s
  | .vshup f => Sys2Proof.Machine.execVshup f s
  | .vshdn f => Sys2Proof.Machine.execVshdn f s
  | .vrsumF32 f => Sys2Proof.Machine.execVrsumF32 f s
  | .vrmaxF32 f => Sys2Proof.Machine.execVrmaxF32 f s
  | .vrminF32 f => Sys2Proof.Machine.execVrminF32 f s
  | .vrsumI32 f => Sys2Proof.Machine.execVrsumI32 f s
  | .vrmaxI32 f => Sys2Proof.Machine.execVrmaxI32 f s
  | .vrminI32 f => Sys2Proof.Machine.execVrminI32 f s
  | .vrmaxN32 f => Sys2Proof.Machine.execVrmaxN32 f s
  | .vrminN32 f => Sys2Proof.Machine.execVrminN32 f s
  | .vssumF32 f => Sys2Proof.Machine.execVssumF32 f s
  | .vssumI32 f => Sys2Proof.Machine.execVssumI32 f s
  | .vsmaxF32 f => Sys2Proof.Machine.execVsmaxF32 f s
  | .vsmaxI32 f => Sys2Proof.Machine.execVsmaxI32 f s
  | .vbscale f => Sys2Proof.Machine.execVbscale f s
  | .vquant f => Sys2Proof.Machine.execVquant f s
  | .vdeq f => Sys2Proof.Machine.execVdeq f s
  | .vld f => Sys2Proof.Machine.execVld f s
  | .vst f => Sys2Proof.Machine.execVst f s
  | .sld f => Sys2Proof.Machine.execSld f s
  | .sst f => Sys2Proof.Machine.execSst f s
  | .vatomAdd f => Sys2Proof.Machine.execVatomAdd f s
  | .vatomAddF32 f => Sys2Proof.Machine.execVatomAddF32 f s
  | .vatomMinI f => Sys2Proof.Machine.execVatomMinI f s
  | .vatomMaxI f => Sys2Proof.Machine.execVatomMaxI f s
  | .vatomMinN f => Sys2Proof.Machine.execVatomMinN f s
  | .vatomMaxN f => Sys2Proof.Machine.execVatomMaxN f s
  | .vatomAnd f => Sys2Proof.Machine.execVatomAnd f s
  | .vatomOr f => Sys2Proof.Machine.execVatomOr f s
  | .vatomXor f => Sys2Proof.Machine.execVatomXor f s
  | .vatomXchg f => Sys2Proof.Machine.execVatomXchg f s
  | .vatomCas f => Sys2Proof.Machine.execVatomCas f s
  | .satomAdd f => Sys2Proof.Machine.execSatomAdd f s
  | .satomAddF32 f => Sys2Proof.Machine.execSatomAddF32 f s
  | .satomMinI f => Sys2Proof.Machine.execSatomMinI f s
  | .satomMaxI f => Sys2Proof.Machine.execSatomMaxI f s
  | .satomMinN f => Sys2Proof.Machine.execSatomMinN f s
  | .satomMaxN f => Sys2Proof.Machine.execSatomMaxN f s
  | .satomAnd f => Sys2Proof.Machine.execSatomAnd f s
  | .satomOr f => Sys2Proof.Machine.execSatomOr f s
  | .satomXor f => Sys2Proof.Machine.execSatomXor f s
  | .satomXchg f => Sys2Proof.Machine.execSatomXchg f s
  | .satomCas f => Sys2Proof.Machine.execSatomCas f s
  | .badd f => Sys2Proof.Machine.execBadd f s
  | .baddF32 f => Sys2Proof.Machine.execBaddF32 f s
  | .bminI32 f => Sys2Proof.Machine.execBminI32 f s
  | .bmaxI32 f => Sys2Proof.Machine.execBmaxI32 f s
  | .bminN32 f => Sys2Proof.Machine.execBminN32 f s
  | .bmaxN32 f => Sys2Proof.Machine.execBmaxN32 f s
  | .binc f => Sys2Proof.Machine.execBinc f s
  | .bmaxp f => Sys2Proof.Machine.execBmaxp f s
  | .bxchg f => Sys2Proof.Machine.execBxchg f s
  | .bcas f => Sys2Proof.Machine.execBcas f s
  | .bor f => Sys2Proof.Machine.execBor f s
  | .band f => Sys2Proof.Machine.execBand f s
  | .tagld f => Sys2Proof.Machine.execTagld f s
  | .tagst f => Sys2Proof.Machine.execTagst f s
  | .sete f => Sys2Proof.Machine.execSete f s
  | .setf f => Sys2Proof.Machine.execSetf f s
  | .qpush f => Sys2Proof.Machine.execQpush f s
  | .qpop f => Sys2Proof.Machine.execQpop f s
  | .cpy f => Sys2Proof.Machine.execCpy f s
  | .gath f => Sys2Proof.Machine.execGath f s
  | .scat f => Sys2Proof.Machine.execScat f s
  | .pfd f => Sys2Proof.Machine.execPfd f s
  | .fwait f => Sys2Proof.Machine.execFwait f s
  | .ftest f => Sys2Proof.Machine.execFtest f s
  | .fcancel f => Sys2Proof.Machine.execFcancel f s
  | .fpass f => Sys2Proof.Machine.execFpass f s
  | .pub f => Sys2Proof.Machine.execPub f s
  | .retire f => Sys2Proof.Machine.execRetire f s
  | .poola f => Sys2Proof.Machine.execPoola f s
  | .poolf f => Sys2Proof.Machine.execPoolf f s
  | .xput f => Sys2Proof.Machine.execXput f s
  | .xget f => Sys2Proof.Machine.execXget f s
  | .coll f => Sys2Proof.Machine.execColl f s
  | .cabort f => Sys2Proof.Machine.execCabort f s
  | .mma f => Sys2Proof.Machine.execMma f s
  | .mmas f => Sys2Proof.Machine.execMmas f s
  | .mmat f => Sys2Proof.Machine.execMmat f s
  | .mmax f => Sys2Proof.Machine.execMmax f s
  | .mzero f => Sys2Proof.Machine.execMzero f s
  | .mld f => Sys2Proof.Machine.execMld f s
  | .mst f => Sys2Proof.Machine.execMst f s
  | .mrd f => Sys2Proof.Machine.execMrd f s
  | .mwr f => Sys2Proof.Machine.execMwr f s
  | .mfence f => Sys2Proof.Machine.execMfence f s
  | .mwait f => Sys2Proof.Machine.execMwait f s
  | .mstat f => Sys2Proof.Machine.execMstat f s
  | .hlr f => Sys2Proof.Machine.execHlr f s
  | .hrun f => Sys2Proof.Machine.execHrun f s
  | .himm f => Sys2Proof.Machine.execHimm f s
  | .hmod f => Sys2Proof.Machine.execHmod f s
  | .hsig f => Sys2Proof.Machine.execHsig f s
  | .weightRecomputation core => Sys2Proof.Machine.execWeightRecomputation core s
  | .starvationGuard core => Sys2Proof.Machine.execStarvationGuard core s
  | .waveToken core => Sys2Proof.Machine.execWaveToken core s
  | .coreArrival core => Sys2Proof.Machine.execCoreArrival core s
  | .boundaryCompletion => Sys2Proof.Machine.execBoundaryCompletion s
  | .release core => Sys2Proof.Machine.execRelease core s
  | .boundaryRequest k => Sys2Proof.Machine.execBoundaryRequest k s
  | .stragglerExpiry core => Sys2Proof.Machine.execStragglerExpiry core s
  | .stragglerKill core => Sys2Proof.Machine.execStragglerKill core s
  | .clusterDispatch die => Sys2Proof.Machine.execClusterDispatch die s
  | .compactionExchange g => Sys2Proof.Machine.execCompactionExchange g s
  | .starvationResolution core => Sys2Proof.Machine.execStarvationResolution core s
  | .memberEviction wg => Sys2Proof.Machine.execMemberEviction wg s
  | .evictionResume wg => Sys2Proof.Machine.execEvictionResume wg s
  | .loadCompletion op => Sys2Proof.Machine.execLoadCompletion op s
  | .atomicCompletion op => Sys2Proof.Machine.execAtomicCompletion op s
  | .variableLatencyResult op => Sys2Proof.Machine.execVariableLatencyResult op s
  | .pageTableWalk die k => Sys2Proof.Machine.execPageTableWalk die k s
  | .cxmInval ctx v => Sys2Proof.Machine.execCxmInval ctx v s
  | .invalidationComplete ctx => Sys2Proof.Machine.execInvalidationComplete ctx s
  | .cxmResume ctx v => Sys2Proof.Machine.execCxmResume ctx v s
  | .engineElement op k => Sys2Proof.Machine.execEngineElement op k s
  | .engineCompletion op => Sys2Proof.Machine.execEngineCompletion op s
  | .pfdLineIssue die => Sys2Proof.Machine.execPfdLineIssue die s
  | .pfdBudgetWindow die => Sys2Proof.Machine.execPfdBudgetWindow die s
  | .mirrorLinePass => Sys2Proof.Machine.execMirrorLinePass s
  | .mirrorSlotPass => Sys2Proof.Machine.execMirrorSlotPass s
  | .gracePeriodStart => Sys2Proof.Machine.execGracePeriodStart s
  | .parityFlip core => Sys2Proof.Machine.execParityFlip core s
  | .gracePeriodEnd => Sys2Proof.Machine.execGracePeriodEnd s
  | .xferCompletion op => Sys2Proof.Machine.execXferCompletion op s
  | .collectiveCompletion k => Sys2Proof.Machine.execCollectiveCompletion k s
  | .collectiveIngress pkt => Sys2Proof.Machine.execCollectiveIngress pkt s
  | .matrixOperationCompletion op => Sys2Proof.Machine.execMatrixOperationCompletion op s
  | .selfTest core quad pass1 pass2 => Sys2Proof.Machine.execSelfTest core quad pass1 pass2 s
  | .dlaunchAnswer op => Sys2Proof.Machine.execDlaunchAnswer op s
  | .workgroupEnd wg => Sys2Proof.Machine.execWorkgroupEnd wg s
  | .asyncTrapDelivery g => Sys2Proof.Machine.execAsyncTrapDelivery g s
  | .softError e => Sys2Proof.Machine.execSoftError e s
  | .dieLost die => Sys2Proof.Machine.execDieLost die s
  | .firmwareRound => Sys2Proof.Machine.execFirmwareRound s
  | .gridCompletion ctx k => Sys2Proof.Machine.execGridCompletion ctx k s
  | .doorbell q v => Sys2Proof.Machine.execDoorbell q v s
  | .queueEnable q v => Sys2Proof.Machine.execQueueEnable q v s
  | .queueDisable q v => Sys2Proof.Machine.execQueueDisable q v s
  | .clr q => Sys2Proof.Machine.execClr q s
  | .peerWrite w => Sys2Proof.Machine.execPeerWrite w s
  | .contextCreate ctx v => Sys2Proof.Machine.execContextCreate ctx v s
  | .contextFree ctx v => Sys2Proof.Machine.execContextFree ctx v s
  | .preemptionRequest ctx v => Sys2Proof.Machine.execPreemptionRequest ctx v s
  | .drainPeriod ctx => Sys2Proof.Machine.execDrainPeriod ctx s
  | .poolCfg die ctx pool v => Sys2Proof.Machine.execPoolCfg die ctx pool v s
  | .mxctlFence core v => Sys2Proof.Machine.execMxctlFence core v s
  | .retest core v => Sys2Proof.Machine.execRetest core v s
  | .reset img => Sys2Proof.Machine.execReset img s
  | .dieAuthentication die ok => Sys2Proof.Machine.execDieAuthentication die ok s
  | .spdmRequest => Sys2Proof.Machine.execSpdmRequest s
  | .d3hot => Sys2Proof.Machine.execD3hot s
  | .d3cold => Sys2Proof.Machine.execD3cold s
  | .d0Return img => Sys2Proof.Machine.execD0Return img s
  | .throttle die steps => Sys2Proof.Machine.execThrottle die steps s
  | .trig => Sys2Proof.Machine.execTrig s
  | .snapshotLatch block => Sys2Proof.Machine.execSnapshotLatch block s
  | .rbsel core v => Sys2Proof.Machine.execRbsel core v s
  | .registerWrite off wide v => Sys2Proof.Machine.execRegisterWrite off wide v s
  | .hostWrite pa bytes => Sys2Proof.Machine.execHostWrite pa bytes s
  | .storeAcknowledged op => Sys2Proof.Machine.execStoreAcknowledged op s

end Sys2Proof.Machine
end

