-- ==== Sys2Proof/Machine/Arbiter.lean ====
section
/-! DEFINITION. The arbiter of a core (R29 to R33): which groups are ready, whose turn it is, and the issue of a group; and one
clk (R30, R33, R34, R66). Definitions that decode are noncomputable in Lean's sense only because the compiler cannot number 361
constructors; the kernel evaluates them. -/

namespace Sys2Proof.Machine

/-! ### An attempt to issue -/

/-- The word that a group fetched is decoded and has its effect (R129, R146). -/
noncomputable def runBytes (bs : List Byte) (s : State) : Out :=
  match decodeBytes bs with
  | .ok i => exec i s
  | .error _ => .next s.illegalWord

/-- What comes of letting group `g` go on: an asynchronous trap that is due comes first (R302, R303), and otherwise the word at
its program counter issues. The delivery of the trap takes an issue slot, which counts in its candidate's share as an issue
does (DESIGN CHOICE, log 117). -/
noncomputable def State.attempt (s : State) (g : Nat) : Out :=
  if (s.group g).asyncDue then .next (s.takeAsync g)
  else match s.fetch g with
    | .stop t => .next t
    | .bytes bs => runBytes bs s

/-- Whether an outcome leaves group `g` stalled. -/
def stalls (o : Out) (g : Nat) : Bool :=
  match o with
  | .next t => (t.group g).stall.isSome
  | _ => false

/-- Whether group `g` is ready (R29): nothing blocks it, and what it would issue does not stall. A group stays ready, and its
candidate a candidate, also in a clk in which it has issued. -/
noncomputable def State.ready (s : State) (g : Nat) : Bool :=
  s.unblocked g && !stalls ({ s with cur := g }.attempt g) g

/-! ### Whose turn it is (R30 to R33) -/

/-- The groups of core `c` that are ready. -/
noncomputable def State.readyOn (s : State) (c : Nat) : List Nat := (s.residents c).filter s.ready

/-- Those of a list of groups that have not issued in this clk (R30: at most once per group per clk). -/
def State.unissued (s : State) (l : List Nat) : List Nat := l.filter (fun g => !(s.group g).issued)

/-- The candidates of a core: the workgroups and stages of its ready groups (R30). -/
def State.candidatesOf (s : State) (ready : List Nat) : List Nat := sortBy id (distinct (ready.map s.keyOf))

/-- What the candidates took since they became `cs`. -/
def Core.shares (k : Core) (cs : List Nat) : Fmap Share := if k.cands = cs then k.issues else []

/-- What a candidate took since then. -/
def Core.share (k : Core) (cs : List Nat) (key : Nat) : Share := Fmap.get ⟨0, 0, 0⟩ (k.shares cs) key

/-- The sum of the weights of the candidates. -/
def Core.total (k : Core) (cs : List Nat) : Nat := (cs.map k.weight).sum

/-- The slots that all of them took. -/
def Core.slotsOf (k : Core) (cs : List Nat) : Nat := ((Fmap.vals (k.shares cs)).map (·.slots)).sum

/-- What a candidate's slots exceed its share by after the next slot, if another has that one; times the sum of the weights. -/
def Core.excess (k : Core) (cs : List Nat) (key : Nat) : Int :=
  ((k.share cs key).slots * k.total cs : Nat) - (k.weight key * (k.slotsOf cs + 1) : Nat)

/-- Whether the next slot may go to a candidate: its share of the slots up to that one exceeds the slots that it took
(R30). -/
def Core.behind (k : Core) (cs : List Nat) (key : Nat) : Bool := k.excess cs key < 0

/-- Whether every candidate stays within one slot of its share over every interval that ends with the next slot, if candidate `key`
has that one (R30). -/
def Core.evenly (k : Core) (cs : List Nat) (key : Nat) : Bool :=
  k.excess cs key ≤ (k.share cs key).least &&
    cs.all (fun j => j = key || (k.share cs j).most ≤ k.excess cs j + k.total cs)

/-- The number of slots by which a candidate must have had one more, so that it stays within one slot of its share (R30). -/
def Core.deadline (k : Core) (cs : List Nat) (key : Nat) : Nat :=
  let w := k.weight key
  (((k.share cs key).slots + 1) * k.total cs + w - 1) / w

/-- The candidates that the next slot may go to: those that are behind their shares, and of these, where there are any, those with
which every interval keeps its shares. -/
def Core.due (k : Core) (cs : List Nat) : List Nat :=
  let l := cs.filter (k.behind cs)
  if (l.filter (k.evenly cs)).isEmpty then l else l.filter (k.evenly cs)

/-- Whether a candidate may have the next slot: of those that are due, the one with the earliest deadline, and of several the one
that is furthest behind. Where every ready group of that one has issued in this clk, the slots left of the clk go unused, since any
other issue would take some candidate more than one slot from its share. Which of several that are equal in all this is the
agenda's choice (DESIGN CHOICE, log 67). -/
def Core.shareTurn (k : Core) (cs : List Nat) (key : Nat) : Bool :=
  (k.due cs).contains key && (k.due cs).all (fun j =>
    k.deadline cs key < k.deadline cs j || (k.deadline cs key = k.deadline cs j && k.excess cs key ≤ k.excess cs j))

/-- What the candidates have taken once candidate `key` has the next slot. -/
def Core.taking (k : Core) (cs : List Nat) (key : Nat) : Fmap Share :=
  cs.map (fun j =>
    let x := k.share cs j
    let e := if j = key then k.excess cs j + k.total cs else k.excess cs j
    (j, ⟨if j = key then x.slots + 1 else x.slots, max x.most e, min x.least e⟩))

/-- Whether a group is in an HRUN run (R32). -/
def Group.running (x : Group) : Bool := 0 < x.hrun

/-- Whether group `g` comes before or with group `h` in one candidate: in a run (R32); then ready longer, then the lower gp.base,
then the workgroup launched earlier (R31). -/
def State.comesFirst (s : State) (g h : Nat) : Bool :=
  let x := s.group g
  let y := s.group h
  if x.running != y.running then x.running
  else x.readySince < y.readySince || (x.readySince = y.readySince &&
    (x.base < y.base || (x.base = y.base && (s.wg x.wg).order ≤ (s.wg y.wg).order)))

/-- Whether a group must issue in this clk: for the starvation guard (R33) or in an HRUN run (R32). -/
def State.forced (s : State) (g : Nat) : Bool := (s.core (s.coreOf g)).guard.contains g || (s.group g).running

/-- Whether the next slot of its core goes to group `g` of the ready groups (R30 to R33). Of those that have not issued in this clk,
the ones of the starvation guard come first, in their order. Else the slot goes to the first group of a candidate whose turn it is;
but to one in a run where no such group is left, or the runs need every slot that is left. -/
def State.hasTurn (s : State) (ready : List Nat) (g : Nat) : Bool :=
  let k := s.core (s.coreOf g)
  let left := s.unissued ready
  match k.guard.filter left.contains with
  | h :: _ => g = h
  | [] =>
    let turn := left.filter (fun h => k.shareTurn (s.candidatesOf ready) (s.keyOf h))
    if turn.isEmpty || 16 ≤ k.slots + (left.filter (fun h => (s.group h).running)).length then (s.group g).running
    else turn.contains g && turn.all (fun h => s.keyOf h != s.keyOf g || s.comesFirst g h)

/-- The slot given to group `g`: one clk of its run is taken (R32), and its candidate has one slot more, whatever gave it that (R30). -/
def State.takeSlot (s : State) (ready : List Nat) (g : Nat) : State :=
  let k := s.core (s.coreOf g)
  let cs := s.candidatesOf ready
  (s.modGroup g (fun x => { x with hrun := x.hrun - 1 })).setCore (s.coreOf g) { k with cands := cs, issues := k.taking cs (s.keyOf g) }

/-- The other groups of the core of group `g` that may be ready. -/
def State.rivals (s : State) (g : Nat) : List Nat := (s.residents (s.coreOf g)).filter (fun h => h != g && s.unblocked h)

/-- The state in which group `g` goes on, if it may (R29 to R33): with a slot where it is its turn, and without one where it
only stalls again. -/
noncomputable def State.admitted (s : State) (g : Nat) : Option State :=
  if !s.canIssue g then none
  else if (s.rivals g).isEmpty then some (s.takeSlot [g] g)
  else if !s.ready g then some s
  else if s.hasTurn (s.readyOn (s.coreOf g)) g then some (s.takeSlot (s.readyOn (s.coreOf g)) g)
  else none

/-- Group `g` issues, if it may. -/
noncomputable def issueStep (g : Nat) (s : State) : Out :=
  match { s with cur := g }.admitted g with
  | none => .next { s with cur := g }
  | some t => afterIssue (s.coreOf g) g (t.attempt g)

/-! ### One clk -/

/-- The cores whose clock ticks and on which live groups are. -/
def State.liveCores (s : State) : List Nat :=
  distinct ((Fmap.keys (s.groupsWhere (fun x => x.status = .live))).map s.coreOf)

/-- On the dies that `on` names, a group that is not ready counts the clk that it waits for an issue anew (R33). -/
noncomputable def State.refreshed (s : State) (on : Nat → Bool) : State :=
  { s with groups := Fmap.mapVals (fun g x =>
      if x.status = .live && on (s.dieOf g) && !s.ready g then { x with readySince := (s.die (s.dieOf g)).ck.toNat } else x) s.groups }

/-- One clk: the clocks that run advance; a core whose clock ticked recomputes its weights at every 64th clk and applies its
starvation guard (R30, R33). -/
noncomputable def State.clk (s : State) : State :=
  let t := s.clockEdge.refreshed s.ticks
  (t.liveCores.filter (fun c => s.ticks (dieOfCore c))).foldl (fun u c => (u.reweigh c).guarded c) t

/-- Whether a ready group of core `c` must still issue in this clk (R32, R33). -/
noncomputable def State.owes (s : State) (c : Nat) : Bool :=
  s.ticks (dieOfCore c) && (s.residents c).any (fun h => s.forced h && s.canIssue h && s.ready h)

/-- A group that issues before this clk ends, since its core owes a group a slot and this one has the next: it is that group, or one
whose turn comes before (R30, R32, R33). -/
noncomputable def State.mustIssue (s : State) : Option Nat :=
  (Fmap.keys s.groups).find? (fun g => s.canIssue g && s.owes (s.coreOf g) && s.ready g && s.hasTurn (s.readyOn (s.coreOf g)) g)

end Sys2Proof.Machine
end

