-- ==== Sys2Proof/WellFormed.lean ====
section
/-! DEFINITION. Which instructions are well formed: an encoded one is legal at some width, with some immediate (R130, R141 to
R146), and an event names dies, cores, contexts, queues, blocks and pools that exist (R1, R324). -/

namespace Sys2Proof.Machine

/-- The widths of a group (R8). -/
def widths : List Nat := [8, 16, 32, 64, 128]

/-- The bundles' immediates with which a word is tried: none, and values that fill one or both halves (R134). -/
def trialImms : List (Option Word) := [none, some 0, some 1, some 0x00010001, some 0x00010002]

/-- Whether the operands are legal at some width (R130). -/
def Info.operandsOk (n : Info) : Bool :=
  widths.any (fun w => n.minWidth ≤ w && n.srcs.all (fun o => o.ok w) && n.dsts.all (fun o => o.ok w))

/-- Whether the other fields are legal with some immediate that the instruction accepts (R141 to R146). -/
def Info.fieldsOk (n : Info) : Bool := trialImms.any (fun i => (i.isNone || n.imm) && n.legal i)

/-- Whether the arguments of an event name parts of the package. -/
def eventOk (i : Instr) : Bool :=
  match i with
  | .weightRecomputation c => c < 48
  | .starvationGuard c => c < 48
  | .waveToken c => c < 48
  | .coreArrival c => c < 48
  | .release c => c < 48
  | .stragglerExpiry c => c < 48
  | .stragglerKill c => c < 48
  | .clusterDispatch d => d < 4
  | .starvationResolution c => c < 48
  | .pageTableWalk d _ => d < 4
  | .cxmInval k _ => k < 64
  | .invalidationComplete k => k < 64
  | .cxmResume k _ => k < 64
  | .pfdLineIssue d => d < 4
  | .pfdBudgetWindow d => d < 4
  | .parityFlip c => c < 48
  | .selfTest c q _ _ => c < 48 && q < 4
  | .softError (.vector _ _ l) => l < 128
  | .softError (.issueState c) => c < 48
  | .softError (.cache c _) => c < 48
  | .softError (.dieControl d) => d < 4
  | .dieLost d => d < 4
  | .gridCompletion k _ => k < 64
  | .doorbell q _ => q < 1024
  | .queueEnable q _ => q < 1024
  | .queueDisable q _ => q < 1024
  | .clr q => q < 1024
  | .peerWrite (.slot _ q _ _) => q < 1024
  | .peerWrite (.doorbell _ q _) => q < 1024
  | .contextCreate k _ => k < 64
  | .contextFree k _ => k < 64
  | .preemptionRequest k _ => k < 64
  | .drainPeriod k => k < 64
  | .poolCfg d k p _ => d < 4 && k < 64 && p < 16
  | .mxctlFence c _ => c < 48
  | .retest c _ => c < 48
  | .dieAuthentication d _ => 1 ≤ d && d < 4
  | .throttle d n => d < 4 && n ≤ 4
  | .snapshotLatch b => b < 117
  | .rbsel c _ => c < 48
  | _ => true

/-- Whether an instruction is well formed. -/
def wf (i : Instr) : Bool := if i.hasWord then (Instr.info i).operandsOk && (Instr.info i).fieldsOk else eventOk i

end Sys2Proof.Machine
end

