-- ==== Sys2Proof/Machine/Step.lean ====
section
/-! DEFINITION. One step of the package. What moves next is the head of the agenda (log 2): a group that issues, an event, a
line that leaves an L1 cache, or one clk. `step` is noncomputable in Lean's sense only because the compiler cannot number 361
constructors; the kernel evaluates it. -/

namespace Sys2Proof.Machine

/-- Whether a choice of the agenda is an event that can happen: it is no instruction of a group, its arguments name parts of the
package, and the package is in a state in which it happens (R326, R335). -/
noncomputable def eventMay (i : Instr) (s : State) : Bool := !i.hasWord && wf i && s.lets i

/-- One clk passes, and `t` is the state before it; but while a group must issue in it, that group issues and the choice
stands (R32, R33). -/
noncomputable def tick (s t : State) : Out :=
  match s.mustIssue with
  | some g => issueStep g s
  | none => .next t.clk

/-- One choice `c` of the agenda carried out; `t` is the state without it. An instruction of a group is reached only through the
group's program counter. -/
noncomputable def runChoice (c : Choice) (s t : State) : Out :=
  match c with
  | .issue g => issueStep g t
  | .event i => if eventMay i t then exec i t else .next t
  | .dropLine c l => .next (if s.root.power = .d0 then t.leaveL1 c l else t)
  | .clk => tick s t

/-- One step: the head of the agenda, or, where nothing is chosen, one clk. -/
noncomputable def step (s : State) : Host.Outcome State Fault Refusal :=
  match s.agenda with
  | [] => tick s s
  | c :: rest => runChoice c s { s with agenda := rest }

/-- The virtual and the physical address at which `withFetchWord` places an instruction. -/
def fetchVa : Nat := 65536

/-- The state in which the next step runs the instruction whose bits are `w` (log 13): a group of a resident workgroup, the
page of its program counter in its core's TLB, the bytes there, and the choice that lets it issue. -/
def State.withFetchWord (s : State) (nbits w : Nat) : State :=
  let k := s.nextId
  let s := s.storeCells (cellsOf fetchVa (wordBytes (w % 2 ^ nbits)))
  let s := s.setCtx 0 { s.ctx 0 with state := .active }
  let s := s.setWg k { Wg.none with lanes := 32, members := [k], peakV := poolSlices, peakS := poolEntries, state := .resident }
  let s := s.setGroup k { Group.fresh with wg := k, pc := BitVec.ofNat 64 fetchVa }
  let s := s.setCore 0 { s.core 0 with slots := 0, tlb := ⟨0, fetchVa / 65536, 0, BitVec.ofNat 64 (fetchVa + 15)⟩ :: (s.core 0).tlb }
  { s with agenda := [.issue k], nextId := k + 1 }

end Sys2Proof.Machine
end

