-- ==== Sys2Proof/Safety.lean ====
section
/-! DEFINITION. The terms in which claims about runs are stated: when an instruction may do its work, what it leaves as it
found it, and what a run may rely on. -/

namespace Sys2Proof.Machine

/-! ### When an instruction does its work -/

/-- The state in which the operands of an instruction are read: a future-bound name that it reads in the ordinary way, and
whose operation has completed, holds the completion word (R235). -/
def State.seen (s : State) (i : Instr) : State := s.resolveReads s.cur (Instr.info i)

/-- The issuing group as instruction `i` reads it. -/
def State.reader (s : State) (i : Instr) : Group := (s.seen i).me

/-- The checks that every instruction makes at issue, all passed (R29, R37, R67, R146, R182, R312): a legal encoding, a class
that may issue in the superstep, sources and kept destinations without a result in flight, valid latches, no region where one
is forbidden, and no uncorrectable error in a register that it reads. -/
structure Ready (i : Instr) (s : State) : Prop where
  legal : encodingOk (Instr.info i) s.me = true
  class_ : classOk (Instr.info i).cls (s.core s.myCore).exchange (s.ctx s.myCtx).phased = true
  there : ((Instr.info i).reads s.me).any (fun o => s.srcBusy s.cur o) = false
  kept : (Instr.info i).dsts.any (fun o => s.dstBusy s.cur o (s.me.execMask (Instr.info i).pred)) = false
  latches : (Instr.info i).srcs.any (fun o => o.isLatch && !(o.latch s.me).valid) = false
  region : ((Instr.info i).idemTrap && s.me.region.isSome) = false
  sound : (s.reader i).badReads (Instr.info i) = false

/-- The pool has room for the registers that instruction `i` allocates (R62). -/
def HasRoom (i : Instr) (s : State) (nv ns : Nat) : Prop := (s.seen i).room (s.reader i).wg nv ns = true

/-! ### What an instruction leaves as it found it -/

/-- What an instruction may write of its group's registers: scalar names, vector names, masks, flags and latches. -/
structure Writes where
  s : List Nat := []
  v : List Nat := []
  masks : List Nat := []
  flags : Bool := false
  sk : Bool := false
  vk : Bool := false

/-- The group `y` after instruction `i`, issued by the group `x`, has done its work: it goes on at `pc`; its signature has its
update (R317); the bundle is spent; last-read coverage goes on at the word that follows and ends at a transfer (R58); names
that a last-read bit frees, and tiles with their columns, are unallocated; every other register keeps its mapping but for those of `w`; and everything else
is as in `z`, which is `x` but for what the instruction itself changes. -/
structure Ran (i : Instr) (x z y : Group) (pc : Dword) (taken : Bool) (w : Writes) : Prop where
  goesOn : y.pc = pc
  sig : y.sig = sigStep x.sig (Instr.info i).word (x.execMask (Instr.info i).pred)
  cover : y.hlr = if taken = false ∧ pc = nextPc x.pc then x.hlr.drop 1 else []
  scalars : ∀ n, n ∉ w.s →
    Fmap.find y.s n = if (0, n) ∈ x.lastReads (Instr.info i) then none else Fmap.find x.s n
  vectors : ∀ k, k / 16 ∉ w.v →
    Fmap.find y.v k = if (1, k / 16) ∈ x.lastReads (Instr.info i) ∨
      64 ≤ k / 16 ∧ (2, (k / 16 - 64) / 32) ∈ x.lastReads (Instr.info i) then none else Fmap.find x.v k
  masks : ∀ k, k ∉ w.masks → y.mask k = z.mask k
  flags : w.flags = false → y.flags = z.flags
  sk : w.sk = false → y.sk = z.sk
  vk : w.vk = false → y.vk = z.vk
  rest : y = { z with pc := y.pc, sig := y.sig, hlr := y.hlr, s := y.s, v := y.v, m := y.m, flags := y.flags, sk := y.sk
                      vk := y.vk, bundle := none, stall := none }

/-- Instruction `i` completes in `t`: the issuing group is as `Ran` says, no other group changes, and the rest of the package,
every byte of memory among it, is as in `v`. -/
structure Does (i : Instr) (s v : State) (z : Group) (pc : Dword) (taken : Bool) (w : Writes) (t : State) : Prop where
  answers : exec i s = .next t
  world : t = { v with groups := t.groups }
  others : ∀ h, h ≠ s.cur → t.group h = s.group h
  me : Ran i (s.reader i) z (t.group s.cur) pc taken w

/-- A lane of a group: widths are multiples of 8, up to 128 (R8). -/
def Group.hasLane (x : Group) (l : Nat) : Prop := l < 128 ∧ l / 8 < x.width / 8

/-- What a scalar instruction with result `r` does (R55, R65, R158, R160): D, or the pair D and D + 1, takes `r` unless WS is
set, bits [31:0] shift into sk0, and a variable-latency result is in flight until it is written. -/
def ScalarResult (i : Instr) (s : State) (d : Nat) (ws wide slow : Bool) (r : Dword) : Prop :=
  ∃ t p, Does i s (if slow then s.addPend p else s) (s.reader i) (nextPc s.me.pc) false
      { s := if ws then [] else if wide then [d, d + 1] else [d], sk := true } t ∧
    (ws = false → (t.group s.cur).readS d = loOf r) ∧
    (ws = false → wide = true → (t.group s.cur).readS (d + 1) = hiOf r) ∧
    (t.group s.cur).sk = shiftChain s.me.sk ⟨true, if slow then some s.nextId else none, [loOf r]⟩ ∧
    p.kind = .slow ∧ (ws = false → ∀ e, Fmap.find (t.group s.cur).s d = some e → e.id ∈ p.entries)

/-- What a vector instruction with results `rs` for the registers from D on, and flags `fl`, does (R55, R65, R80, R194, R196):
executing lanes of the registers take their values and the others keep theirs, unless WS is set; flags are ORed into executing
lanes unless Q is set; the first register's new value shifts into vk0. -/
def VectorResult (i : Instr) (s : State) (d : Nat) (quiet ws : Bool) (m : Mask) (rs : List (Nat → Word)) (fl : Nat → Flags)
    (slow : Bool) : Prop :=
  ∃ t p, Does i s (if slow then s.addPend p else s) (s.reader i) (nextPc s.me.pc) false
      { v := if ws then [] else (List.range rs.length).map (fun k => d + k), flags := !quiet, vk := true } t ∧
    (ws = false → ∀ k, k < rs.length → ∀ l, (s.reader i).hasLane l →
      (t.group s.cur).readV (d + k) l =
        if m.getLsbD l then (rs.getD k (fun _ => 0)) l else (s.reader i).readV (d + k) l) ∧
    (∀ l, l < 128 → (t.group s.cur).flag l =
      if quiet = false ∧ m.getLsbD l = true then (s.reader i).flag l ||| fl l else (s.reader i).flag l) ∧
    (t.group s.cur).vk = shiftChain s.me.vk ⟨true, if slow then some s.nextId else none,
      (List.range s.me.width).map (fun l =>
        if m.getLsbD l then (rs.getD 0 (fun _ => 0)) l else (s.reader i).readV d l)⟩ ∧
    p.kind = .slow ∧ (ws = false → ∀ k, k < rs.length → ∀ q, q ∈ hitQuarters s.me.width m →
      ∀ e, Fmap.find (t.group s.cur).v (vkey (d + k) q) = some e → e.id ∈ p.slices)

/-- What an instruction whose one effect is on a mask and on flags does (R203, R204): bit l of mask `d`, which is not m0,
takes `bit l` in every lane of the group, flags `fl` are ORed in where `m` has a lane, and nothing is shifted. -/
def MaskResult (i : Instr) (s : State) (d : Nat) (bit : Nat → Bool) (quiet : Bool) (m : Mask) (fl : Nat → Flags) : Prop :=
  ∃ t, Does i s s (s.reader i) (nextPc s.me.pc) false { masks := [d], flags := !quiet } t ∧
    (∀ l, l < 128 → ((t.group s.cur).mask d).getLsbD l = (decide (l < s.me.width) && bit l)) ∧
    (∀ l, l < 128 → (t.group s.cur).flag l =
      if quiet = false ∧ m.getLsbD l = true then (s.reader i).flag l ||| fl l else (s.reader i).flag l)

/-- An instruction that writes `n` scalar registers from `d` on with no shift of a chain (R204). -/
def ScalarWritten (i : Instr) (s : State) (d n : Nat) (v : Nat → Word) : Prop :=
  ∃ t, Does i s s (s.reader i) (nextPc s.me.pc) false { s := (List.range n).map (fun k => d + k) } t ∧
    ∀ k, k < n → (t.group s.cur).readS (d + k) = v k

/-- An instruction whose whole effect on its group and on the package is told by `z` and `v`: it goes on at `pc`, and every
register keeps its value. -/
def Becomes (i : Instr) (s v : State) (z : Group) (pc : Dword) (taken : Bool) : Prop := ∃ t, Does i s v z pc taken {} t

/-- An instruction at which the group stays: the rest of the package is as in `v`, no other group changes, and the group is
`z` (R38, R174, R178). -/
def Stays (i : Instr) (s v : State) (z : Group) : Prop :=
  ∃ t, exec i s = .next t ∧ t = { v with groups := t.groups } ∧ (∀ h, h ≠ s.cur → t.group h = s.group h) ∧ t.group s.cur = z

/-- The wait that instruction `i` enters: when it ends, the signature takes the instruction's update and the registers that
its last-read bits free are freed (R58, R174, R317). -/
def waitFor (i : Instr) (s : State) (k : WaitKind) : Wait :=
  ⟨k, (Instr.info i).word, (s.reader i).execMask (Instr.info i).pred, (s.reader i).lastReads (Instr.info i)⟩

/-- Instruction `i` takes a precise trap, and has no effect of its own (R302). -/
def Traps (i : Instr) (s : State) (t : TrapInfo) : Prop := exec i s = .next ((s.seen i).preciseTrap s.cur t)

/-- Instruction `i` does not issue yet: the group stays at it, with nothing changed but the reason (R29). -/
def Stalls (i : Instr) (s : State) (r : Stall) : Prop :=
  exec i s = .next ((s.seen i).modGroup s.cur (fun x => { x with stall := some r }))

/-! ### Memory accesses -/

/-- An access leads to bytes that it may use (R85, R103 to R106, R108, R220, R227, R232): memory that is home in a compute
superstep, and for a bank unit lies in the die's own tier; a line of a live member's scratchpad that an ordinary store may
write; or a root slot where the instruction accepts one. -/
def Reaches (s : State) (u : Use) (a : Access) : Prop :=
  match s.target s.me.wg a.va u.acc with
  | .memory pa _ mir _ =>
    ((s.core s.myCore).exchange = true ∨ mir = true ∨ paDie pa = s.myDie) ∧
      (u.bank = true → paKind pa = 1 ∧ paDie pa = s.myDie)
  | .spad loc _ => u.bank = false ∧ (u.acc = .store → (s.lineAt loc).barrier = false ∧ (s.lineAt loc).queue = false)
  | .slot _ => u.slotOk = true
  | _ => False

/-- The checks of R220 on the accesses of an instruction, all passed: alignment, translation and target, and no race where the
detector traps. -/
structure Accessible (s : State) (u : Use) (l : List Access) : Prop where
  aligned : ∀ a ∈ l, a.va.toNat % u.align = 0
  reaches : ∀ a ∈ l, Reaches s u a
  unraced : (s.ctx s.myCtx).race = 1 → ∀ h ∈ s.hits l u.acc, s.conflicts u h = []

/-- What a load, an atomic or an operand read waits for is there, and none of its accesses is one that returns poison, `bad`
(R62, R104, R312). -/
structure Loadable (s : State) (hs : List Hit) (bad : Option Hit) (nv ns : Nat) : Prop where
  full : s.emptyLine hs = false
  room : s.room s.me.wg nv ns = true
  sound : bad = none

/-- The two states have the same cores but for the contents of their L1 data caches (R101). -/
def SameButL1 (s t : State) : Prop := ∀ c, t.core c = { s.core c with l1 := (t.core c).l1 }

end Sys2Proof.Machine
end

