-- ==== Sys2Proof/Certificates/Slice0/Obligations.lean ====
section
/-! DEFINITION. The statements for the provers. -/

namespace Sys2Proof.Claims

open Sys2Proof.Machine

/-! ## Scalar arithmetic -/

/-- An integer taken modulo 2^n. -/
def wrap (n : Nat) (x : Int) : BitVec n := BitVec.ofInt n x

/-- 1 for a condition that holds, else 0. -/
def bit (c : Bool) : Int := if c then 1 else 0

/-- A row of the table of R158: the instruction, its value as an integer before it is taken modulo 2^n, whether B is one
register that holds a shift count, whether the destination is one register whatever DW is, and whether the latency varies. -/
structure SaluRow where
  instr : FmtS → Instr
  val : (n : Nat) → BitVec n → BitVec n → Int
  count : Bool := false
  narrow : Bool := false
  slow : Bool := false

/-- The quotient truncated toward zero, 0 for a divisor of 0 (R158, R200). -/
def quotI {n : Nat} (a b : BitVec n) : Int := if b = 0 then 0 else Int.tdiv a.toInt b.toInt

/-- The remainder that goes with it, the dividend for a divisor of 0. -/
def remI {n : Nat} (a b : BitVec n) : Int := if b = 0 then a.toInt else a.toInt - b.toInt * Int.tdiv a.toInt b.toInt

/-- The same of unsigned values. -/
def quotN {n : Nat} (a b : BitVec n) : Int := if b = 0 then 0 else ((a.toNat / b.toNat : Nat) : Int)
def remN {n : Nat} (a b : BitVec n) : Int := if b = 0 then a.toNat else ((a.toNat % b.toNat : Nat) : Int)

/-- The two-source rows of R158. -/
def saluRows : List SaluRow :=
  [{ instr := .sadd, val := fun _ a b => a.toInt + b.toInt },
   { instr := .ssub, val := fun _ a b => a.toInt - b.toInt },
   { instr := .smul, val := fun _ a b => a.toInt * b.toInt },
   { instr := .smulhI, val := fun n a b => a.toInt * b.toInt / 2 ^ n },
   { instr := .smulhN, val := fun n a b => (a.toNat : Int) * b.toNat / 2 ^ n },
   { instr := .sdivI, val := fun _ a b => quotI a b, slow := true },
   { instr := .sdivN, val := fun _ a b => quotN a b, slow := true },
   { instr := .sremI, val := fun _ a b => remI a b, slow := true },
   { instr := .sremN, val := fun _ a b => remN a b, slow := true },
   { instr := .sand, val := fun _ a b => (a &&& b).toNat },
   { instr := .sor, val := fun _ a b => (a ||| b).toNat },
   { instr := .sxor, val := fun _ a b => (a ^^^ b).toNat },
   { instr := .sshl, val := fun n a b => a.toNat * 2 ^ (b.toNat % n), count := true },
   { instr := .sshrN, val := fun n a b => (a.toNat : Int) / 2 ^ (b.toNat % n), count := true },
   { instr := .sshrI, val := fun n a b => a.toInt / 2 ^ (b.toNat % n), count := true },
   { instr := .sminI, val := fun _ a b => min a.toInt b.toInt },
   { instr := .smaxI, val := fun _ a b => max a.toInt b.toInt },
   { instr := .sminN, val := fun _ a b => min a.toNat b.toNat },
   { instr := .smaxN, val := fun _ a b => max a.toNat b.toNat },
   { instr := .sseq, val := fun _ a b => bit (a = b), narrow := true },
   { instr := .ssne, val := fun _ a b => bit (a ≠ b), narrow := true },
   { instr := .ssltI, val := fun _ a b => bit (a.toInt < b.toInt), narrow := true },
   { instr := .ssltN, val := fun _ a b => bit (a.toNat < b.toNat), narrow := true },
   { instr := .ssleI, val := fun _ a b => bit (a.toInt ≤ b.toInt), narrow := true },
   { instr := .ssleN, val := fun _ a b => bit (a.toNat ≤ b.toNat), narrow := true }]

/-- r of R158: 64 bits from pairs with DW = 1, else 32 bits; B of a shift is one register. -/
def SaluRow.result (r : SaluRow) (f : FmtS) (x : Group) : Dword :=
  if f.l = 1 then
    wrap 64 (r.val 64 (x.readS2 f.a.toNat) (if r.count then (x.srcS f.b.toNat).zeroExtend 64 else x.readS2 f.b.toNat))
  else (wrap 32 (r.val 32 (x.srcS f.a.toNat) (x.srcS f.b.toNat))).zeroExtend 64

/-- The one-source rows of R158: MOV, POPC (the number of 1 bits) and CLZ (n less the length of the value in binary). -/
def salu1Rows : List ((FmtS1 → Instr) × ((n : Nat) → BitVec n → Int) × Bool) :=
  [(.smov, (fun _ a => (a.toNat : Int)), false),
   (.spopc, (fun n a => (((List.range n).filter (fun i => a.getLsbD i)).length : Int)), true),
   (.sclz, (fun n a => (n : Int) - Nat.size a.toNat), true)]

/-- The rows of R159: the value from A and imm, and whether imm is a shift count. -/
def saluiRows : List ((FmtSi → Instr) × (Word → Word → Int)) :=
  [(.saddi, fun a i => a.toInt + i.toInt),
   (.sandi, fun a i => (a &&& i).toNat),
   (.sori, fun a i => (a ||| i).toNat),
   (.sxori, fun a i => (a ^^^ i).toNat),
   (.sshli, fun a i => a.toNat * 2 ^ i.toNat),
   (.sshriN, fun a i => (a.toNat : Int) / 2 ^ i.toNat),
   (.sshriI, fun a i => a.toInt / 2 ^ i.toNat),
   (.ssltiI, fun a i => bit (a.toInt < i.toInt)),
   (.ssltiN, fun a i => bit (a.toNat < i.toNat))]

/-- imm of R159: the bundle's immediate, or IMM sign-extended. -/
def immOf (x : Group) (i : BitVec 10) : Word := (x.himm).getD (i.signExtend 32)

/-! ## Special registers -/

/-- The registers that SGET reads (R49, R52, R53, R60), each with its content. -/
def specialRows : List (BitVec 10 × (State → Nat → Dword)) :=
  [(0x010, fun s g => BitVec.ofNat 64 (s.group g).width),
   (0x011, fun s g => BitVec.ofNat 64 (s.group g).base),
   (0x012, fun s g => BitVec.ofNat 64 (s.group g).stage),
   (0x013, fun s g => ((List.range (s.group g).width).foldl (fun a l => a ||| (s.group g).flag l) 0).zeroExtend 64),
   (0x014, fun s g => BitVec.ofNat 64 ((s.group g).mstk.length * 2 ^ 16 + (s.group g).rstk.length * 2 ^ 8 +
      ((s.group g).holder.map (·.level)).getD 0)),
   (0x015, fun s g => BitVec.ofNat 64 ((s.group g).rdDepth +
      if (s.group g).rdDepth ≠ 0 ∧ (s.group g).rdPar = true then 2 ^ 8 else 0)),
   (0x016, fun s g => (s.group g).sig.zeroExtend 64),
   (0x017, fun s g => BitVec.ofNat 64 (((s.group g).s.map (·.2.id)).dedup.length * 2 ^ 16 + (s.group g).sliceIds.dedup.length)),
   (0x018, fun s g => BitVec.ofNat 64 ((List.range 4).foldl (fun a k => a +
      (if ((s.group g).vk.getD k noLatch).valid then 2 ^ k else 0) +
      (if ((s.group g).sk.getD k noLatch).valid then 2 ^ (4 + k) else 0)) 0)),
   (0x020, fun s g => BitVec.ofNat 64 (s.wgOf g).idx),
   (0x021, fun s g => BitVec.ofNat 64 (s.wgOf g).idy),
   (0x022, fun s g => BitVec.ofNat 64 (s.wgOf g).idz),
   (0x023, fun s g => BitVec.ofNat 64 (s.wgOf g).lanes),
   (0x028, fun s g => BitVec.ofNat 64 (s.wgOf g).members.length),
   (0x029, fun s g => BitVec.ofNat 64 (s.wgOf g).rank),
   (0x030, fun s g => BitVec.ofNat 64 (s.wgOf g).gx),
   (0x031, fun s g => BitVec.ofNat 64 (s.wgOf g).gy),
   (0x032, fun s g => BitVec.ofNat 64 (s.wgOf g).gz),
   (0x040, fun s g => (s.core (s.coreOf g)).ph),
   (0x041, fun s g => (s.die (s.coreOf g / 12)).ck),
   (0x042, fun s g => let c := s.coreOf g
      BitVec.ofNat 64 (c * 2 ^ 6 + c / 12 * 2 ^ 4 + c % 12 / 4 * 2 ^ 2 + c % 4)),
   (0x043, fun s g => BitVec.ofNat 64 ((s.wgOf g).ctx + if (s.ctx (s.wgOf g).ctx).phased then 64 else 0)),
   (0x044, fun s g => BitVec.ofNat 64 (s.vfree (s.coreOf g))),
   (0x045, fun s g => BitVec.ofNat 64 (s.sfree (s.coreOf g)))]

/-! ## Branches -/

/-- The conditions of R163. -/
def branchRows : List ((FmtBc → Instr) × (Int → Prop)) :=
  [(.bz, (· = 0)), (.bnz, (· ≠ 0)), (.bltz, (· < 0)), (.bgez, (0 ≤ ·)), (.bgtz, (0 < ·)), (.blez, (· ≤ 0))]

/-- PC + 4 × offset, with the bundle's immediate in place of the field (R134, R163). -/
def target {n : Nat} (x : Group) (o : BitVec n) : Dword :=
  x.pc + 4 * (match x.himm with | some v => v.signExtend 64 | none => o.signExtend 64)

/-! ## Vector instructions -/

/-- A lane-wise row: the instruction, a lane's value from A, B and the old D, its flags, and whether the latency varies. -/
structure LaneRow where
  instr : FmtV → Instr
  val : Word → Word → Word → Int
  flags : Word → Word → Word → Flags := fun _ _ _ => 0
  slow : Bool := false

/-- An exact value clamped to a range (R200). -/
def clampTo (lo hi x : Int) : Int := max lo (min hi x)

/-- SAT when a clamp changed the value. -/
def satFlag (lo hi x : Int) : Flags := if x < lo ∨ hi < x then flagSAT else 0

/-- DZ for a non-zero dividend by 0, NV for 0 by 0 (R200). -/
def divideFlags (a b : Word) : Flags := if b = 0 then (if a = 0 then flagNV else flagDZ) else 0

/-- Besides, OF for the least number by -1. -/
def divideFlagsI (a b : Word) : Flags :=
  if b = 0 then (if a = 0 then flagNV else flagDZ) else if a.toInt = -2147483648 ∧ b.toInt = -1 then flagOF else 0

/-- The two-source rows of R200 and R202. -/
def laneRows : List LaneRow :=
  [{ instr := .vaddI32, val := fun a b _ => a.toInt + b.toInt },
   { instr := .vsubI32, val := fun a b _ => a.toInt - b.toInt },
   { instr := .vmulI32, val := fun a b _ => a.toInt * b.toInt },
   { instr := .vmadI32, val := fun a b d => a.toInt * b.toInt + d.toInt },
   { instr := .vminI32, val := fun a b _ => min a.toInt b.toInt },
   { instr := .vmaxI32, val := fun a b _ => max a.toInt b.toInt },
   { instr := .vmulhI32, val := fun a b _ => a.toInt * b.toInt / 2 ^ 32 },
   { instr := .vaddsI32, val := fun a b _ => clampTo (-2147483648) 2147483647 (a.toInt + b.toInt)
     flags := fun a b _ => satFlag (-2147483648) 2147483647 (a.toInt + b.toInt) },
   { instr := .vsubsI32, val := fun a b _ => clampTo (-2147483648) 2147483647 (a.toInt - b.toInt)
     flags := fun a b _ => satFlag (-2147483648) 2147483647 (a.toInt - b.toInt) },
   { instr := .vshlI32, val := fun a b _ => a.toNat * 2 ^ (b.toNat % 32) },
   { instr := .vshrI32, val := fun a b _ => a.toInt / 2 ^ (b.toNat % 32) },
   { instr := .vdivI32, val := fun a b _ => quotI a b, flags := fun a b _ => divideFlagsI a b, slow := true },
   { instr := .vremI32, val := fun a b _ => remI a b, flags := fun a b _ => divideFlags a b, slow := true },
   { instr := .vaddN32, val := fun a b _ => (a.toNat : Int) + b.toNat },
   { instr := .vsubN32, val := fun a b _ => (a.toNat : Int) - b.toNat },
   { instr := .vmulN32, val := fun a b _ => (a.toNat : Int) * b.toNat },
   { instr := .vmadN32, val := fun a b d => (a.toNat : Int) * b.toNat + d.toNat },
   { instr := .vminN32, val := fun a b _ => min a.toNat b.toNat },
   { instr := .vmaxN32, val := fun a b _ => max a.toNat b.toNat },
   { instr := .vmulhN32, val := fun a b _ => (a.toNat : Int) * b.toNat / 2 ^ 32 },
   { instr := .vaddsN32, val := fun a b _ => clampTo 0 4294967295 ((a.toNat : Int) + b.toNat)
     flags := fun a b _ => satFlag 0 4294967295 ((a.toNat : Int) + b.toNat) },
   { instr := .vsubsN32, val := fun a b _ => clampTo 0 4294967295 ((a.toNat : Int) - b.toNat)
     flags := fun a b _ => satFlag 0 4294967295 ((a.toNat : Int) - b.toNat) },
   { instr := .vshlN32, val := fun a b _ => a.toNat * 2 ^ (b.toNat % 32) },
   { instr := .vshrN32, val := fun a b _ => (a.toNat : Int) / 2 ^ (b.toNat % 32) },
   { instr := .vdivN32, val := fun a b _ => quotN a b, flags := fun a b _ => divideFlags a b, slow := true },
   { instr := .vremN32, val := fun a b _ => remN a b, flags := fun a b _ => divideFlags a b, slow := true },
   { instr := .vand, val := fun a b _ => (a &&& b).toNat },
   { instr := .vor, val := fun a b _ => (a ||| b).toNat },
   { instr := .vxor, val := fun a b _ => (a ^^^ b).toNat },
   { instr := .vandn, val := fun a b _ => (a &&& ~~~ b).toNat }]

/-- The one-source rows of R200 and R202, with their flags. -/
def lane1Rows : List ((FmtV1 → Instr) × (Word → Int) × (Word → Flags)) :=
  [(.vabsI32, (fun a => |a.toInt|), fun a => if a.toInt = -2147483648 then flagOF else 0),
   (.vnot, (fun a => (~~~ a).toNat), fun _ => 0),
   (.vmov, (fun a => a.toNat), fun _ => 0),
   (.vpopc, (fun a => ((List.range 32).filter (fun i => a.getLsbD i)).length), fun _ => 0),
   (.vclz, (fun a => 32 - (Nat.size a.toNat : Int)), fun _ => 0)]

/-- The rows of R201, and whether B is one register that holds a shift count. -/
def wideRows : List ((FmtV → Instr) × (Dword → Dword → Int) × Bool) :=
  [(.vaddI64, (fun a b => a.toInt + b.toInt), false),
   (.vsubI64, (fun a b => a.toInt - b.toInt), false),
   (.vminI64, (fun a b => min a.toInt b.toInt), false),
   (.vmaxI64, (fun a b => max a.toInt b.toInt), false),
   (.vminN64, (fun a b => min (a.toNat : Int) b.toNat), false),
   (.vmaxN64, (fun a b => max (a.toNat : Int) b.toNat), false),
   (.vshlI64, (fun a k => a.toNat * 2 ^ (k.toNat % 64)), true),
   (.vshrN64, (fun a k => (a.toNat : Int) / 2 ^ (k.toNat % 64)), true),
   (.vshrI64, (fun a k => a.toInt / 2 ^ (k.toNat % 64)), true)]

end Sys2Proof.Claims

open Sys2Proof Sys2Proof.Machine Sys2Proof.Claims

/-- R158, R160: SALU.
R159, R160: SALUI. -/
def Obligations.ScalarArithmetic : Prop :=
  ((∀ row ∈ saluRows, ∀ (f : FmtS) (s : State), Ready (row.instr f) s →
     HasRoom (row.instr f) s 0 (if f.s = 1 then 0 else if f.l = 1 ∧ row.narrow = false then 2 else 1) →
     ScalarResult (row.instr f) s f.d.toNat (f.s = 1) (f.l = 1 && !row.narrow) row.slow (row.result f (s.reader (row.instr f)))) ∧
   ∀ row ∈ salu1Rows, ∀ (f : FmtS1) (s : State), Ready (row.1 f) s →
     HasRoom (row.1 f) s 0 (if f.s = 1 then 0 else if f.l = 1 ∧ row.2.2 = false then 2 else 1) →
     ScalarResult (row.1 f) s f.d.toNat (f.s = 1) (f.l = 1 && !row.2.2) false
       (if f.l = 1 then wrap 64 (row.2.1 64 ((s.reader (row.1 f)).readS2 f.a.toNat))
        else (wrap 32 (row.2.1 32 ((s.reader (row.1 f)).srcS f.a.toNat))).zeroExtend 64)) ∧
  ((∀ row ∈ saluiRows, ∀ (f : FmtSi) (s : State), Ready (row.1 f) s → HasRoom (row.1 f) s 0 1 →
     ScalarResult (row.1 f) s f.d.toNat false false false
       ((wrap 32 (row.2 ((s.reader (row.1 f)).srcS f.a.toNat) (immOf (s.reader (row.1 f)) f.i))).zeroExtend 64)) ∧
   ∀ (f : FmtSmovi) (s : State), Ready (.smovi f) s → HasRoom (.smovi f) s 0 1 →
     ScalarResult (.smovi f) s f.d.toNat false false false ((immOf (s.reader (.smovi f)) f.i).zeroExtend 64))

/-- R49, R52, R161: SGET of each register of group scope or wider. A register that shows what another rule keeps reads as that
state at issue, before the destination is allocated: log 71. That gp.hold leaves out slices of overwritten results still in
flight is log 106.
R50, R196, R217: SSET, VGET and VSET, and the wait for flags that earlier instructions owe. -/
def Obligations.SpecialRegisters : Prop :=
  (∀ row ∈ specialRows, ∀ (f : FmtSget) (s : State), f.r = row.1 → Ready (.sget f) s →
     HasRoom (.sget f) s 0 (if f.r = 0x040 ∨ f.r = 0x041 then 2 else 1) → (f.r = 0x013 → s.flagsPending s.cur = false) →
     ScalarResult (.sget f) s f.d.toNat false (f.r = 0x040 || f.r = 0x041) false (row.2 (s.seen (.sget f)) s.cur)) ∧
  ((∀ (f : FmtSset) (s : State), Ready (.sset f) s → s.flagsPending s.cur = false → ∃ t,
     Does (.sset f) s s (s.reader (.sset f)) (nextPc s.me.pc) false { flags := true } t ∧
     ∀ l, l < s.me.width → (t.group s.cur).flag l = ((s.reader (.sset f)).srcS f.a.toNat).extractLsb' 0 6) ∧
   (∀ (f : FmtVget) (s : State), Ready (.vget f) s → (f.r = 2 → s.flagsPending s.cur = false) →
     HasRoom (.vget f) s (hitQuarters s.me.width (s.me.execMask f.p.toNat)).length 0 → ∃ t,
     Does (.vget f) s s (s.reader (.vget f)) (nextPc s.me.pc) false { v := [f.d.toNat] } t ∧
     ∀ l, s.me.hasLane l → (t.group s.cur).readV f.d.toNat l =
       if (s.me.execMask f.p.toNat).getLsbD l then
         (if f.r = 0 then BitVec.ofNat 32 l else if f.r = 1 then BitVec.ofNat 32 (s.me.base + l) else (s.me.flag l).zeroExtend 32)
       else s.me.readV f.d.toNat l) ∧
   ∀ (f : FmtVset) (s : State), Ready (.vset f) s → s.flagsPending s.cur = false → ∃ t,
     Does (.vset f) s s (s.reader (.vset f)) (nextPc s.me.pc) false { flags := true } t ∧
     ∀ l, l < 128 → (t.group s.cur).flag l =
       if (s.me.execMask f.p.toNat).getLsbD l then (s.me.srcV f.a.toNat l).extractLsb' 0 6 else s.me.flag l) ∧
  ∀ s : State, s.flagsPending s.cur = true →
    (∀ f : FmtSget, f.r = 0x013 → Ready (.sget f) s → Stalls (.sget f) s .result) ∧
    (∀ f : FmtSset, Ready (.sset f) s → Stalls (.sset f) s .result) ∧
    (∀ f : FmtVget, f.r = 2 → Ready (.vget f) s → Stalls (.vget f) s .result) ∧
    ∀ f : FmtVset, Ready (.vset f) s → Stalls (.vset f) s .result

/-- R163, R191: branches, JMP and NOP, with the words that R163 writes out. That a taken transfer to the next word ends last-read
coverage is log 69.
R14, R66, R163, R164, R182, R306: calls, returns and indirect jumps, with their traps and the words that R164 writes out. That CALLI
drops the latches is log 22, and that RET at depth 0 traps RETURN_STACK before R182 is asked is log 20. -/
def Obligations.ControlTransfers : Prop :=
  ((∀ row ∈ branchRows, ∀ (f : FmtBc) (s : State), Ready (row.1 f) s →
     (row.2 ((s.reader (row.1 f)).srcS f.a.toNat).toInt →
       Becomes (row.1 f) s s (s.reader (row.1 f)) (target s.me f.o) true) ∧
     (¬ row.2 ((s.reader (row.1 f)).srcS f.a.toNat).toInt →
       Becomes (row.1 f) s s (s.reader (row.1 f)) (nextPc s.me.pc) false)) ∧
   (∀ (f : FmtJ) (s : State), Ready (.jmp f) s → Becomes (.jmp f) s s (s.reader (.jmp f)) (target s.me f.o) true) ∧
   (∀ s : State, Ready .nop s → Becomes .nop s s (s.reader .nop) (nextPc s.me.pc) false) ∧
   decodeTableWord 32 0x10500008 = some (.bz ⟨5, 8⟩) ∧ decodeTableWord 32 0x1025FFFE = some (.bltz ⟨2, -2⟩) ∧
   decodeTableWord 32 0x1400000A = some (.jmp ⟨10⟩)) ∧
  ((∀ (f : FmtJ) (s : State), Ready (.call f) s →
     (s.me.rstk.length < 16 → Becomes (.call f) s s
       { (s.reader (.call f)).dropLatches with rstk := nextPc s.me.pc :: s.me.rstk } (target s.me f.o) true) ∧
     (16 ≤ s.me.rstk.length → exec (.call f) s = .next ((s.seen (.call f)).preciseTrap s.cur { trap := .returnStack }))) ∧
   (∀ (f : FmtA) (s : State), Ready (.calli f) s →
     let a := (s.reader (.calli f)).readS2 f.a.toNat
     (a.toNat % 4 = 0 → s.me.rstk.length < 16 → Becomes (.calli f) s s
       { (s.reader (.calli f)).dropLatches with rstk := nextPc s.me.pc :: s.me.rstk } a true) ∧
     (a.toNat % 4 ≠ 0 → exec (.calli f) s = .next ((s.seen (.calli f)).preciseTrap s.cur { trap := .misaligned, addr := a })) ∧
     (a.toNat % 4 = 0 → 16 ≤ s.me.rstk.length →
       exec (.calli f) s = .next ((s.seen (.calli f)).preciseTrap s.cur { trap := .returnStack }))) ∧
   (∀ s : State, Ready .ret s →
     (∀ pc rest, s.me.rstk = pc :: rest → (∀ r, s.me.region = some r → r.rsDepth < s.me.rstk.length) →
       Becomes .ret s s { (s.reader .ret).dropLatches with rstk := rest } pc true) ∧
     (s.me.rstk ≠ [] → (∃ r, s.me.region = some r ∧ s.me.rstk.length ≤ r.rsDepth) → Traps .ret s { trap := .idemRegion }) ∧
     (s.me.rstk = [] → exec .ret s = .next ((s.seen .ret).preciseTrap s.cur { trap := .returnStack }))) ∧
   (∀ (f : FmtA) (s : State), Ready (.jmpi f) s →
     let a := (s.reader (.jmpi f)).readS2 f.a.toNat
     (a.toNat % 4 = 0 → Becomes (.jmpi f) s s (s.reader (.jmpi f)).leaveHandler a true) ∧
     (a.toNat % 4 ≠ 0 → exec (.jmpi f) s = .next ((s.seen (.jmpi f)).preciseTrap s.cur { trap := .misaligned, addr := a }))) ∧
   decodeTableWord 32 0x1C220000 = some (.jmpi ⟨8⟩) ∧ decodeTableWord 32 0x1C320000 = some (.calli ⟨8⟩))

/-- R200, R202: the integer and logic lanes.
R201: 64-bit lanes. -/
def Obligations.IntegerLanes : Prop :=
  ((∀ row ∈ laneRows, ∀ (f : FmtV) (s : State), Ready (row.instr f) s →
     HasRoom (row.instr f) s (if f.s = 1 then 0 else (hitQuarters s.me.width (s.me.execMask f.p.toNat)).length) 0 →
     VectorResult (row.instr f) s f.d.toNat (f.q = 1) (f.s = 1) (s.me.execMask f.p.toNat)
       [fun l => wrap 32 (row.val (s.me.srcV f.a.toNat l) (s.me.srcV f.b.toNat l) (s.me.readV f.d.toNat l))]
       (fun l => row.flags (s.me.srcV f.a.toNat l) (s.me.srcV f.b.toNat l) (s.me.readV f.d.toNat l)) row.slow) ∧
   (∀ row ∈ lane1Rows, ∀ (f : FmtV1) (s : State), Ready (row.1 f) s →
     HasRoom (row.1 f) s (if f.s = 1 then 0 else (hitQuarters s.me.width (s.me.execMask f.p.toNat)).length) 0 →
     VectorResult (row.1 f) s f.d.toNat (f.q = 1) (f.s = 1) (s.me.execMask f.p.toNat)
       [fun l => wrap 32 (row.2.1 (s.me.srcV f.a.toNat l))] (fun l => row.2.2 (s.me.srcV f.a.toNat l)) false) ∧
   (∀ (f : FmtV1) (s : State), Ready (.vbs f) s →
     HasRoom (.vbs f) s (if f.s = 1 then 0 else (hitQuarters s.me.width (s.me.execMask f.p.toNat)).length) 0 →
     VectorResult (.vbs f) s f.d.toNat (f.q = 1) (f.s = 1) (s.me.execMask f.p.toNat)
       [fun _ => (s.reader (.vbs f)).srcS f.a.toNat] (fun _ => 0) false) ∧
   (∀ (f : FmtVimm) (v : Word) (s : State), Ready (.vimm f) s → s.me.himm = some v →
     HasRoom (.vimm f) s (if f.s = 1 then 0 else (hitQuarters s.me.width (s.me.execMask f.p.toNat)).length) 0 →
     VectorResult (.vimm f) s f.d.toNat (f.q = 1) (f.s = 1) (s.me.execMask f.p.toNat) [fun _ => v] (fun _ => 0) false) ∧
   ∀ (f : FmtV) (s : State), Ready (.vsel f) s →
     HasRoom (.vsel f) s (if f.s = 1 then 0 else (hitQuarters s.me.width s.me.curMask).length) 0 →
     VectorResult (.vsel f) s f.d.toNat (f.q = 1) (f.s = 1) s.me.curMask
       [fun l => if (s.me.mask f.p.toNat).getLsbD l then s.me.srcV f.a.toNat l else s.me.srcV f.b.toNat l] (fun _ => 0) false) ∧
  (∀ row ∈ wideRows, ∀ (f : FmtV) (s : State), Ready (row.1 f) s →
     HasRoom (row.1 f) s (if f.s = 1 then 0 else 2 * (hitQuarters s.me.width (s.me.execMask f.p.toNat)).length) 0 →
     let r := fun l => wrap 64 (row.2.1 (s.me.readV2 f.a.toNat l)
       (if row.2.2 then (s.me.srcV f.b.toNat l).zeroExtend 64 else s.me.readV2 f.b.toNat l))
     VectorResult (row.1 f) s f.d.toNat (f.q = 1) (f.s = 1) (s.me.execMask f.p.toNat)
       [fun l => (r l).extractLsb' 0 32, fun l => (r l).extractLsb' 32 32] (fun _ => 0) false)

namespace Sys2Proof.Claims

open Sys2Proof.Machine

/-! ## Floating point -/

/-- What a code stands for (R68 to R70): a NaN, an infinity, or a number with its sign, which zero has too. As an exact result, a
signalling NaN is one that raises NV. -/
inductive Number where
  | nan (signals : Bool)
  | inf (neg : Bool)
  | num (neg : Bool) (x : ℚ)
deriving DecidableEq

/-- A code of a format, from the fields of its layout (R68 to R70). -/
def meaning (f : FFmt) (c : Nat) : Number :=
  let neg := decide (c / 2 ^ (f.ebits + f.fbits) % 2 = 1)
  let sign : ℚ := if neg then -1 else 1
  let ex := c / 2 ^ f.fbits % 2 ^ f.ebits
  let fr := c % 2 ^ f.fbits
  if f.ieee = true ∧ ex + 1 = 2 ^ f.ebits then (if fr = 0 then .inf neg else .nan (fr < 2 ^ (f.fbits - 1)))
  else if ex = 0 then .num neg (sign * fr * (2 : ℚ) ^ (1 - f.bias - f.fbits : Int))
  else .num neg (sign * (2 ^ f.fbits + fr) * (2 : ℚ) ^ (ex - f.bias - f.fbits : Int))

/-- A code of the format for `n`. -/
def IsCode (f : FFmt) (n : Number) (c : Nat) : Prop := c < 2 ^ (1 + f.ebits + f.fbits) ∧ meaning f c = n

/-- The canonical NaN (R78). -/
def quietNan (f : FFmt) : Nat := (2 ^ f.ebits - 1) * 2 ^ f.fbits + 2 ^ (f.fbits - 1)

/-- The greatest finite value of a format, and its least normal one. -/
def greatest (f : FFmt) : ℚ :=
  (2 ^ (f.fbits + 1) - 1) * (2 : ℚ) ^ (2 ^ f.ebits - (if f.ieee then 2 else 1) - f.bias - f.fbits : Int)
def leastNormal (f : FFmt) : ℚ := (2 : ℚ) ^ (1 - f.bias : Int)

/-- A flag, if a condition holds. -/
def when (c : Prop) [Decidable c] (fl : Flags) : Flags := if c then fl else 0

section
variable {K : Type} [Field K] [LinearOrder K] [IsStrictOrderedRing K] [FloorRing K]

/-- A number rounded to an integer (R77). -/
def roundInt (rm : BitVec 2) (y : K) : Int :=
  if rm = 0 then (if y - ⌊y⌋ < 1 / 2 ∨ y - ⌊y⌋ = 1 / 2 ∧ ⌊y⌋ % 2 = 0 then ⌊y⌋ else ⌊y⌋ + 1)
  else if rm = 1 then (if y < 0 then ⌈y⌉ else ⌊y⌋)
  else if rm = 2 then ⌈y⌉ else ⌊y⌋

/-- A number rounded to a multiple of `q`. -/
def multiple (rm : BitVec 2) (y q : K) : K := q * roundInt rm (y / q)

/-- The spacing at a number's binade with exponents unbounded, and with the subnormal range. -/
def freeUlp (f : FFmt) (y : K) : K := (2 : K) ^ (Int.log 2 |y| - f.fbits)
def ulp (f : FFmt) (y : K) : K := max (freeUlp f y) ((2 : K) ^ (1 - f.bias - f.fbits : Int))

/-- The number `y` rounded once into a format with infinities (R77, R78); `neg` is the sign of a zero. A non-zero number is tiny
where it rounds, the exponent unbounded, to less than the least normal value, though it round to zero (log 91). -/
def Rounds (f : FFmt) (rm : BitVec 2) (y : K) (neg : Bool) (c : Nat) (fl : Flags) : Prop :=
  let v := multiple rm y (ulp f y)
  if y = 0 then IsCode f (.num neg 0) c ∧ fl = 0
  else if (greatest f : K) < |v| then
    IsCode f (if rm = 0 ∨ rm = 2 ∧ 0 < y ∨ rm = 3 ∧ y < 0 then .inf (y < 0)
      else .num (y < 0) (if y < 0 then -greatest f else greatest f)) c ∧ fl = flagOF ||| flagNX
  else (∃ x : ℚ, (x : K) = v ∧ IsCode f (.num (y < 0) x) c) ∧
    fl = when (v ≠ y) flagNX ||| when (v ≠ y ∧ |multiple rm y (freeUlp f y)| < (leastNormal f : K)) flagUF

end

/-- An exact result written into a format with infinities. -/
def Delivers (f : FFmt) (rm : BitVec 2) (n : Number) (c : Nat) (fl : Flags) : Prop :=
  match n with
  | .nan nv => c = quietNan f ∧ fl = when (nv = true) flagNV
  | .inf neg => IsCode f (.inf neg) c ∧ fl = 0
  | .num neg x => Rounds f rm x neg c fl

/-- Whether a number is a NaN, a signalling one, or a zero. -/
def Number.isNan (a : Number) : Bool := match a with | .nan _ => true | _ => false
def Number.isZero (a : Number) : Bool := match a with | .num _ x => x = 0 | _ => false
def Number.signals (a : Number) : Bool := match a with | .nan s => s | _ => false

/-- The exact results of R197 and the IEEE 754 special cases: −a, a + b (an exact zero from operands of both signs is +0, and −0
under RD), a × b and a / b, the latter but for a zero divisor. -/
def Number.opposite (a : Number) : Number :=
  match a with
  | .nan s => .nan s
  | .inf n => .inf !n
  | .num n x => .num (!n) (-x)
def Number.plus (rm : BitVec 2) (a b : Number) : Number :=
  match a, b with
  | .nan s, y => .nan (s || y.signals)
  | _, .nan s => .nan s
  | .inf n, .inf m => if n = m then .inf n else .nan true
  | .inf n, .num _ _ => .inf n
  | .num _ _, .inf m => .inf m
  | .num n x, .num m y => .num (if x = 0 ∧ y = 0 ∧ n = m then n else rm = 3) (x + y)
def Number.times (a b : Number) : Number :=
  match a, b with
  | .nan s, y => .nan (s || y.signals)
  | _, .nan s => .nan s
  | .inf n, .inf m => .inf (n != m)
  | .inf n, .num m y => if y = 0 then .nan true else .inf (n != m)
  | .num n x, .inf m => if x = 0 then .nan true else .inf (n != m)
  | .num n x, .num m y => .num (n != m) (x * y)
def Number.over (a b : Number) : Number :=
  match a, b with
  | .nan s, y => .nan (s || y.signals)
  | _, .nan s => .nan s
  | .inf _, .inf _ => .nan true
  | .inf n, .num m _ => .inf (n != m)
  | .num n _, .inf m => .num (n != m) 0
  | .num n x, .num m y => if x = 0 ∧ y = 0 then .nan true else .num (n != m) (x / y)

/-- The order of VMIN and VMAX: −0 below +0. -/
def Number.below (a b : Number) : Bool :=
  match a, b with
  | .inf n, .inf m => n && !m
  | .inf n, .num _ _ => n
  | .num _ _, .inf m => !m
  | .num n x, .num m y => decide (x < y) || decide (x = y) && n && !m
  | _, _ => false

/-- a / b: a finite non-zero number by zero is an infinity, with DZ. -/
def Divides (f : FFmt) (rm : BitVec 2) (a b : Number) (c : Nat) (fl : Flags) : Prop :=
  match a, b with
  | .num n x, .num m y =>
    if x ≠ 0 ∧ y = 0 then IsCode f (.inf (n != m)) c ∧ fl = flagDZ else Delivers f rm (Number.over (.num n x) (.num m y)) c fl
  | a, b => Delivers f rm (a.over b) c fl

/-- The lesser or the greater of two codes. -/
def Chooses (f : FFmt) (greater : Bool) (a b c : Nat) (fl : Flags) : Prop :=
  let x := meaning f a
  let y := meaning f b
  fl = when (x.signals = true ∨ y.signals = true) flagNV ∧
    c = if x.isNan = true ∧ y.isNan = true then quietNan f else if x.isNan then b else if y.isNan then a
      else if x.below y = greater then b else a

/-- √a, with its row of the table of R199. -/
def Roots (f : FFmt) (rm : BitVec 2) (a : Number) (c : Nat) (fl : Flags) : Prop :=
  match a with
  | .nan s => Delivers f rm (.nan s) c fl
  | .inf n => Delivers f rm (if n then .nan true else .inf false) c fl
  | .num n x =>
    if x = 0 then IsCode f (.num n 0) c ∧ fl = 0
    else if x < 0 then Delivers f rm (.nan true) c fl
    else Rounds f rm (Real.sqrt x) false c fl

/-- A NaN gives the canonical NaN and no flag; another code takes the sign bit `neg` (R197). -/
def Resigns (f : FFmt) (neg : Bool) (a c : Nat) (fl : Flags) : Prop :=
  fl = 0 ∧ c = if (meaning f a).isNan then quietNan f
    else a % 2 ^ (f.ebits + f.fbits) + if neg then 2 ^ (f.ebits + f.fbits) else 0

/-! ### Approximations (R199) -/

/-- The exact value of a function at a number of its domain. -/
noncomputable def exactOf (a : Approx) (x : ℝ) : ℝ :=
  match a with
  | .rcp => 1 / x
  | .rsq => 1 / Real.sqrt x
  | .exp2 => (2 : ℝ) ^ x
  | .log2 => Real.logb 2 x
  | .tanh => Real.tanh x

/-- The exact cases of the table. -/
def exactCase (a : Approx) (x : ℝ) : Prop :=
  match a with
  | .rcp => ∃ k : Int, -127 ≤ k ∧ k ≤ 149 ∧ |x| = (2 : ℝ) ^ k
  | .rsq => ∃ k : Int, x = (2 : ℝ) ^ (2 * k)
  | .exp2 => ∃ k : Int, -149 ≤ k ∧ k ≤ 127 ∧ x = k
  | .log2 => ∃ k : Int, x = (2 : ℝ) ^ k
  | .tanh => False

/-- The FP32 bound of the table. -/
noncomputable def errorBound (a : Approx) (x : ℝ) : ℝ :=
  let u := ulp fp32 (exactOf a x)
  match a with
  | .rcp => u
  | .rsq => u
  | .exp2 => 2 * u
  | .log2 => if 1 / 2 ≤ x ∧ x ≤ 2 then (2 : ℝ) ^ (-22 : Int) else 2 * u
  | .tanh => max (2 * u) ((2 : ℝ) ^ (-22 : Int))

/-- The rows of the table of special operands: infinities, zeros, and the numbers outside the domain. -/
def specialOf (a : Approx) (n : Number) : Option (Number × Flags) :=
  match a, n with
  | _, .nan s => some (.nan s, when (s = true) flagNV)
  | .rcp, .inf neg => some (.num neg 0, 0)
  | .rsq, .inf neg => some (if neg then (.nan true, flagNV) else (.num false 0, 0))
  | .exp2, .inf neg => some (if neg then .num false 0 else .inf false, 0)
  | .log2, .inf neg => some (if neg then (.nan true, flagNV) else (.inf false, 0))
  | .tanh, .inf neg => some (.num neg (if neg then -1 else 1), 0)
  | .rcp, .num neg x => if x = 0 then some (.inf neg, flagDZ) else none
  | .rsq, .num neg x => if x = 0 then some (.inf neg, flagDZ) else if x < 0 then some (.nan true, flagNV) else none
  | .exp2, .num _ x => if x = 0 then some (.num false 1, 0) else none
  | .log2, .num _ x => if x = 0 then some (.inf true, flagDZ) else if x < 0 then some (.nan true, flagNV) else none
  | .tanh, .num neg x => if x = 0 then some (.num neg 0, 0) else none

/-- An FP32 approximation: the special operands, the exact cases, a result beyond the range, and else a number that raises NX, and
UF in the subnormal range, zero included (log 9); with `bounded`, one within the bound. -/
def Approximates (bounded : Bool) (a : Approx) (n : Number) (c : Nat) (fl : Flags) : Prop :=
  match specialOf a n, n with
  | some (r, e), _ => fl = e ∧ if r.isNan then c = quietNan fp32 else IsCode fp32 r c
  | none, .num _ x =>
    let y := exactOf a x
    ((2 : ℝ) ^ (128 : Int) - (2 : ℝ) ^ (103 : Int) ≤ |y| → ∃ neg, (neg = true ↔ y < 0) ∧ IsCode fp32 (.inf neg) c ∧ fl = flagOF ||| flagNX) ∧
    (|y| < (2 : ℝ) ^ (128 : Int) - (2 : ℝ) ^ (103 : Int) → ∃ neg v, IsCode fp32 (.num neg v) c ∧
      (exactCase a x → (v : ℝ) = y ∧ fl = 0 ∧ (v = 0 → neg = false)) ∧
      (¬ exactCase a x → fl = flagNX ||| when (|v| < leastNormal fp32) flagUF ∧
        (bounded = true → |(v : ℝ) - y| ≤ errorBound a x)))
  | none, _ => False

/-- An approximation in a format: a 16-bit element is widened, takes the FP32 function and is rounded once; it raises the flags of
both, UF for an inexact result in its own subnormal range (log 9); with `bounded`, it is within 1 ulp of its format. -/
def ApproximatesIn (bounded : Bool) (f : FFmt) (a : Approx) (rm : BitVec 2) (n : Number) (c : Nat) (fl : Flags) : Prop :=
  if f = fp32 then Approximates bounded a n c fl
  else if n.isNan then Delivers f rm n c fl
  else ∃ c' fl' e, Approximates bounded a n c' fl' ∧ Delivers f rm (meaning fp32 c') c e ∧
    fl = (fl' &&& ~~~ flagUF) ||| e ||| when (fl' &&& flagNX ≠ 0 ∧ c % 2 ^ (f.ebits + f.fbits) < 2 ^ f.fbits) flagUF ∧
    (bounded = true → specialOf a n = none → ∀ neg x, n = .num neg x → |exactOf a x| ≤ greatest f →
      ∃ m v, meaning f c = .num m v ∧ |(v : ℝ) - exactOf a x| ≤ ulp f (exactOf a x))

/-! ### The rows of R197 -/

/-- A float row with sources A, B and the old D: the instruction, its format, what it does to an element by the rounding mode and
the three codes, and whether the latency varies. -/
structure FloatRow where
  instr : FmtV → Instr
  fmt : FFmt
  does : BitVec 2 → Nat → Nat → Nat → Nat → Flags → Prop
  slow : Bool := false

/-- The eight two-source functions of R197 in one format. -/
def floatRowsOf (f : FFmt) (add sub mul fma fms min max div : FmtV → Instr) : List FloatRow :=
  let n := meaning f
  [⟨add, f, fun rm a b _ => Delivers f rm ((n a).plus rm (n b)), false⟩,
   ⟨sub, f, fun rm a b _ => Delivers f rm ((n a).plus rm (n b).opposite), false⟩,
   ⟨mul, f, fun rm a b _ => Delivers f rm ((n a).times (n b)), false⟩,
   ⟨fma, f, fun rm a b d => Delivers f rm (((n a).times (n b)).plus rm (n d)), false⟩,
   ⟨fms, f, fun rm a b d => Delivers f rm (((n a).times (n b)).opposite.plus rm (n d)), false⟩,
   ⟨min, f, fun _ a b _ => Chooses f false a b, false⟩, ⟨max, f, fun _ a b _ => Chooses f true a b, false⟩,
   ⟨div, f, fun rm a b _ => Divides f rm (n a) (n b), true⟩]

/-- VF32, VF16 and VBF16 with two sources. -/
def floatRows : List FloatRow :=
  floatRowsOf fp32 .vaddF32 .vsubF32 .vmulF32 .vfmaF32 .vfmsF32 .vminF32 .vmaxF32 .vdivF32 ++
  floatRowsOf fp16 .vaddF16 .vsubF16 .vmulF16 .vfmaF16 .vfmsF16 .vminF16 .vmaxF16 .vdivF16 ++
  floatRowsOf bf16 .vaddBf16 .vsubBf16 .vmulBf16 .vfmaBf16 .vfmsBf16 .vminBf16 .vmaxBf16 .vdivBf16

/-- A one-source float row. -/
structure Float1Row where
  instr : FmtV1 → Instr
  fmt : FFmt
  does : BitVec 2 → Nat → Nat → Flags → Prop
  slow : Bool := true

/-- The one-source functions of R197 in one format; the bounds of VRCP and VRSQ among them. -/
def float1RowsOf (f : FFmt) (abs neg rcp rsq sqrt exp2 log2 tanh : FmtV1 → Instr) : List Float1Row :=
  let n := meaning f
  [⟨abs, f, fun _ a => Resigns f false a, false⟩,
   ⟨neg, f, fun _ a => Resigns f (a / 2 ^ (f.ebits + f.fbits) % 2 = 0) a, false⟩,
   ⟨rcp, f, fun rm a => ApproximatesIn true f .rcp rm (n a), true⟩, ⟨rsq, f, fun rm a => ApproximatesIn true f .rsq rm (n a), true⟩,
   ⟨sqrt, f, fun rm a => Roots f rm (n a), true⟩, ⟨exp2, f, fun rm a => ApproximatesIn false f .exp2 rm (n a), true⟩,
   ⟨log2, f, fun rm a => ApproximatesIn false f .log2 rm (n a), true⟩,
   ⟨tanh, f, fun rm a => ApproximatesIn false f .tanh rm (n a), true⟩]

/-- VF32, VF16 and VBF16 with one source. -/
def float1Rows : List Float1Row :=
  float1RowsOf fp32 .vabsF32 .vnegF32 .vrcpF32 .vrsqF32 .vsqrtF32 .vexp2F32 .vlog2F32 .vtanhF32 ++
  float1RowsOf fp16 .vabsF16 .vnegF16 .vrcpF16 .vrsqF16 .vsqrtF16 .vexp2F16 .vlog2F16 .vtanhF16 ++
  float1RowsOf bf16 .vabsBf16 .vnegBf16 .vrcpBf16 .vrsqBf16 .vsqrtBf16 .vexp2Bf16 .vlog2Bf16 .vtanhBf16

/-- The functions whose exact values are transcendental. -/
def transcendentalRows : List ((FmtV1 → Instr) × FFmt × Approx) :=
  [(.vexp2F32, fp32, .exp2), (.vlog2F32, fp32, .log2), (.vtanhF32, fp32, .tanh), (.vexp2F16, fp16, .exp2), (.vlog2F16, fp16, .log2),
   (.vtanhF16, fp16, .tanh), (.vexp2Bf16, bf16, .exp2), (.vlog2Bf16, bf16, .log2), (.vtanhBf16, bf16, .tanh)]

/-- Element `k` of a register of a format: the register itself in FP32, and its lower or upper half in a 16-bit format (R76). -/
def part (fmt : FFmt) (k : Nat) (x : Word) : Nat := if fmt = fp32 then x.toNat else x.toNat / 65536 ^ k % 65536

/-- The number of elements of a register. -/
def parts (fmt : FFmt) : Nat := if fmt = fp32 then 1 else 2

/-- A lane-wise float instruction completes, with `does` of lane, element, code and flags for each element of the executing lanes;
a lane raises the flags of all its elements (R194, R197). -/
def Elementwise (i : Instr) (s : State) (f : FFmt) (d : Nat) (quiet ws : Bool) (m : Mask) (slow : Bool)
    (does : Nat → Nat → Nat → Flags → Prop) : Prop :=
  ∃ (r : Nat → Word) (fl : Nat → Nat → Flags),
    VectorResult i s d quiet ws m [r] (fun l => if f = fp32 then fl l 0 else fl l 0 ||| fl l 1) slow ∧
    ∀ l, m.getLsbD l = true → ∀ k, k < parts f → does l k (part f k (r l)) (fl l k)

/-! ## Conversions -/

/-- The widths of the types of R138, and the integer ones among them: those with a sign, and their ranges (R79). -/
def typeWidth (t : Nat) : Nat := [32, 16, 16, 8, 8, 4, 4, 8, 8, 16, 16, 32, 32, 64, 64].getD t 0
def floatType (t : Nat) : FFmt := [fp32, fp16, bf16, e4m3, e5m2, e2m1].getD t fp32
def signedType (t : Nat) : Bool := [6, 7, 9, 11, 13].contains t
def highest (t : Nat) : Int := if signedType t then 2 ^ (typeWidth t - 1) - 1 else 2 ^ typeWidth t - 1
def lowest (t : Nat) : Int := if t = 6 then -7 else if signedType t then -2 ^ (typeWidth t - 1) else 0

/-- A code of a type. -/
def typeMeaning (t c : Nat) : Number :=
  if t < 6 then meaning (floatType t) c
  else
    let z : Int := if signedType t = true ∧ 2 ^ (typeWidth t - 1) ≤ c then c - 2 ^ typeWidth t else c
    .num (z < 0) z

/-- A conversion into a format without infinities (R79). -/
def Saturates (f : FFmt) (rm : BitVec 2) (n : Number) (c : Nat) (fl : Flags) : Prop :=
  let top := fun (neg : Bool) => IsCode f (.num neg (if neg then -greatest f else greatest f)) c ∧ fl = flagOF ||| flagNX ||| flagSAT
  match n with
  | .nan _ => c = 0 ∧ fl = flagNV
  | .inf neg => top neg
  | .num neg x =>
    let v := multiple rm x (ulp f x)
    if greatest f < |x| then top neg
    else IsCode f (.num neg v) c ∧ fl = when (v ≠ x) flagNX ||| when (v ≠ x ∧ |x| < leastNormal f) flagUF

/-- A conversion into an integer type (R79). -/
def Clamps (t : Nat) (rm : BitVec 2) (n : Number) (c : Nat) (fl : Flags) : Prop :=
  let code := fun (z : Int) => c = (z % 2 ^ typeWidth t).toNat
  let out := fun (neg : Bool) => code (if neg then lowest t else highest t) ∧ fl = flagOF ||| flagNX ||| flagSAT
  match n with
  | .nan _ => c = 0 ∧ fl = flagNV
  | .inf neg => out neg
  | .num _ x =>
    let z := roundInt rm x
    if highest t < z then out false else if z < lowest t then out true else code z ∧ fl = when ((z : ℚ) ≠ x) flagNX

/-- convert() of R206, from a number and from a code; the i4x escape is 0 with NV. -/
def ConvertsTo (t : Nat) (rm : BitVec 2) (n : Number) (c : Nat) (fl : Flags) : Prop :=
  if t < 3 then Delivers (floatType t) rm n c fl else if t < 6 then Saturates (floatType t) rm n c fl else Clamps t rm n c fl
def Converts (st dt : Nat) (rm : BitVec 2) (a c : Nat) (fl : Flags) : Prop :=
  if st = 6 ∧ a = 8 then c = 0 ∧ fl = flagNV else ConvertsTo dt rm (typeMeaning st a) c fl

/-- Element `k` of `n` bits of a register (R76). -/
def packed (n k : Nat) (x : Word) : Nat := x.toNat / 2 ^ (n * k) % 2 ^ n

/-! ## Tagged blocks -/

/-- The lanes of a segment, the packed bytes of a lane, and the first lane of the segment of a lane (R208). -/
def segmentLanes (fmt : Nat) : Nat := if fmt < 2 then 16 else 32
def packedBytes (fmt : Nat) : Nat := if fmt < 2 then 4 else 2
def firstLane (fmt l : Nat) : Nat := l / segmentLanes fmt * segmentLanes fmt

/-- Source element `i` of the segment that begins at a lane: +0 from a lane outside the execute mask (R208). -/
def sourceElement (x : Group) (m : Mask) (a base i : Nat) : Nat :=
  if m.getLsbD (base + i / 4) then (x.readV (a + i % 4) (base + i / 4)).toNat else 0

/-- The magnitude of an element that is finite. -/
def magnitude (c : Nat) : Option ℚ := match meaning fp32 c with | .num _ x => some |x| | _ => none

/-- The rule of R75 for the scale code; where the elements leave no magnitude to choose, a is 0 (log 74). -/
def scaleRule (fmt budget : Nat) (cs : List Nat) : Nat :=
  if cs.any (fun c => (meaning fp32 c).isNan) then 255
  else
    let a := ((cs.filterMap magnitude).insertionSort (fun x y => y ≤ x)).getD (if fmt = 3 then budget else 0) 0
    if a = 0 then 127 else (max 0 (min 254 (Int.log 2 a - [8, 16, 2, 2].getD fmt 0 + 127))).toNat

/-- q of R210, and 2^(s − 127) otherwise. -/
def divisor (s : Nat) : ℚ := if s = 255 then 1 else (2 : ℚ) ^ ((s : Int) - 127)

/-- x / q. -/
def quotient (s c : Nat) : Number :=
  match meaning fp32 c with
  | .num neg x => .num neg (x / divisor s)
  | n => n

/-- The escapes of R211: the candidates `ms`, in their order, that may be placed beside those before them. -/
def placedEscapes (s : Nat) (rm : BitVec 2) (xs : Nat → Nat) (runs : Nat → Bool) (ms : List Nat) : List Nat :=
  ms.foldl (fun esc m =>
    let saturates : Bool := match quotient s (xs m) with | .num _ y => 7 < |roundInt rm y| | _ => false
    if m % 2 = 0 ∧ m / 2 ≤ 62 ∧ saturates = true ∧ runs (m / 2 / 2) = true ∧ runs ((m / 2 + 1) / 2) = true ∧
        ∀ c ∈ esc, 2 ≤ |((m / 2 : Nat) : Int) - c| then m / 2 :: esc else esc) []

/-- The candidates of R211: the finite elements in descending magnitude and, on equal magnitude, in ascending index. -/
def candidates (budget : Nat) (xs : Nat → Nat) : List Nat :=
  let of := fun i => (magnitude (xs i)).getD 0
  ((((List.range 128).filter (fun i => (magnitude (xs i)).isSome)).insertionSort
    (fun i j => of j < of i ∨ of i = of j ∧ i ≤ j))).take budget

/-- What VQUANT puts into the two bytes of lane `j` of an i4x segment, and its flags, from the codes and flags of the elements as
i4x and as e4m3 (R211). -/
def EscapedLane (esc : List Nat) (xs : Nat → Nat) (i4 o8 : Nat → Nat) (fi fo : Nat → Flags) (j r : Nat) (fl : Flags) : Prop :=
  let byte := fun b => if b ∈ esc then 16 * i4 (2 * b + 1) + 8 else if 0 < b ∧ b - 1 ∈ esc then o8 (2 * (b - 1))
    else 16 * i4 (2 * b + 1) + i4 (2 * b)
  let flag := fun i => if i % 2 = 0 ∧ i / 2 ∈ esc then fo i
    else if 1 < i ∧ i / 2 - 1 ∈ esc then when ((meaning fp32 (xs i)).isZero = false) flagNX else fi i
  r = byte (2 * j) + 256 * byte (2 * j + 1) ∧ fl = flag (4 * j) ||| flag (4 * j + 1) ||| flag (4 * j + 2) ||| flag (4 * j + 3)

/-- Byte `b` of the block of the segment that begins at a lane (R208). -/
def blockByte (x : Group) (fmt a base b : Nat) : Nat :=
  packed 8 (b % packedBytes fmt) (x.srcV a (base + b / packedBytes fmt))

/-- Whether the walk of R71 comes to a byte: not to one that an escape before it takes as its outlier. -/
def walked (blk : Nat → Nat) (b : Nat) : Bool :=
  match b with
  | 0 => true
  | k + 1 => !(walked blk k && blk k % 16 = 8)

/-- Element `i` of a block before scaling, and whether its nibble is invalid (R69 to R71). -/
def blockElement (fmt : Nat) (blk : Nat → Nat) (i : Nat) : Number × Bool :=
  let nibble := blk (i / 2) / 16 ^ (i % 2) % 16
  match fmt with
  | 0 => (meaning e4m3 (blk i), false)
  | 1 => (meaning e5m2 (blk i), false)
  | 2 => (meaning e2m1 nibble, false)
  | _ =>
    if walked blk (i / 2) = false then (.num false 0, false)
    else if nibble ≠ 8 then (typeMeaning 6 nibble, false)
    else if i % 2 = 0 ∧ i / 2 < 63 then (meaning e4m3 (blk (i / 2 + 1)), false)
    else (.num false 0, true)

/-- An element of a block decoded into FP32 with scale code `s` (R74, R212). -/
def Decodes (s : Nat) (rm : BitVec 2) (e : Number) (c : Nat) (fl : Flags) : Prop :=
  if s = 255 then c = quietNan fp32 ∧ fl = 0
  else match e with
    | .num neg x => Rounds fp32 rm (x * divisor s) neg c fl
    | _ => False

/-- The value of a code, where it is finite. -/
def valueOf (fmt : FFmt) (c : Nat) : Option ℚ :=
  match fmt.decode c with
  | .fin neg m e => some ((if neg then -1 else 1) * (m : ℚ) * (2 : ℚ) ^ e)
  | _ => none

/-! ## Compares -/

/-- Whether one number that is no NaN is less than another, −0 and +0 being equal. -/
def less (x y : FVal) : Bool :=
  match x, y with
  | .fin n m e, .fin n' m' e' =>
    decide ((if n then -1 else 1) * (m : ℚ) * (2 : ℚ) ^ e < (if n' then -1 else 1) * (m' : ℚ) * (2 : ℚ) ^ e')
  | .inf a, .inf b => a && !b
  | .inf a, .fin _ _ _ => a
  | .fin _ _ _, .inf b => !b
  | _, _ => false

/-- A row of R203: the instruction, the relation in terms of "less" and "equal", its result with a NaN operand, and whether any
NaN signals. -/
structure CmpRow where
  instr : FmtVm → Instr
  rel : Bool → Bool → Bool
  onNan : Bool
  anyNan : Bool

/-- The rows of R203. -/
def cmpRows : List CmpRow :=
  [⟨.vceq, fun _ e => e, false, false⟩, ⟨.vcne, fun _ e => !e, true, false⟩, ⟨.vclt, fun l _ => l, false, true⟩,
   ⟨.vcle, fun l e => l || e, false, true⟩, ⟨.vcgt, fun l e => !l && !e, false, true⟩, ⟨.vcge, fun l _ => !l, false, true⟩,
   ⟨.vcun, fun _ _ => false, true, false⟩, ⟨.vcor, fun _ _ => true, false, false⟩]

/-- The result of a row in the type that TY names, and its flags. -/
def CmpRow.result (r : CmpRow) (ty : BitVec 4) (a b : Dword) : Bool × Flags :=
  if ty = 0 then
    let x := fp32.decode (a.toNat % 2 ^ 32)
    let y := fp32.decode (b.toNat % 2 ^ 32)
    if x.isNan || y.isNan then (r.onNan, if r.anyNan || x.snan || y.snan then flagNV else 0)
    else (r.rel (less x y) (!less x y && !less y x), 0)
  else if ty = 11 then (r.rel ((loOf a).toInt < (loOf b).toInt) (loOf a = loOf b), 0)
  else if ty = 12 then (r.rel ((loOf a).toNat < (loOf b).toNat) (loOf a = loOf b), 0)
  else if ty = 13 then (r.rel (a.toInt < b.toInt) (a = b), 0)
  else (r.rel (a.toNat < b.toNat) (a = b), 0)

/-! ## Masks -/

/-- The rows of R204 with two mask sources. -/
def maskRows : List ((FmtMk → Instr) × (Bool → Bool → Bool)) :=
  [(.mand, fun a b => a && b), (.mor, fun a b => a || b), (.mxor, fun a b => a != b), (.mandn, fun a b => a && !b)]

/-- The rows of R204 with one mask source. -/
def mask1Rows : List ((FmtMk1 → Instr) × (Bool → Bool)) := [(.mnot, fun a => !a), (.mmov, fun a => a)]

/-! ## Cross-lane operations -/

/-- The rows of R215: the lane that lane i reads, from the width, i and the operand B, and whether B names a scalar. -/
def shuffleRows : List ((FmtV → Instr) × (Nat → Nat → Nat → Nat) × Bool) :=
  [(.vshfl, (fun w _ b => b % w), false), (.vshfx, (fun w i b => i ^^^ (b % w)), false),
   (.vrot, (fun w i t => (i + t) % w), true), (.vbcast, (fun w _ t => t % w), true),
   (.vshup, (fun _ i t => if t ≤ i then i - t else i), true), (.vshdn, (fun w i t => if i + t < w then i + t else i), true)]

/-- An integer operation of reductions and scans on codes. -/
def onWords (f : Word → Word → Word) (_ : BitVec 2) (a b : Nat) : Nat × Flags :=
  ((f (BitVec.ofNat 32 a) (BitVec.ofNat 32 b)).toNat, 0)

/-- A reduction row of R216: the operation and the identity. -/
structure ReduceRow where
  instr : FmtV1 → Instr
  op : BitVec 2 → Nat → Nat → Nat × Flags
  identity : Nat := 0

/-- The reductions of R216. -/
def reduceRows : List ReduceRow :=
  [⟨.vrsumF32, fp32.add, 0⟩, ⟨.vrmaxF32, fun _ => fp32.minmax true, 0xFF800000⟩, ⟨.vrminF32, fun _ => fp32.minmax false, 0x7F800000⟩,
   ⟨.vrsumI32, onWords (fun a b => a + b), 0⟩, ⟨.vrmaxI32, onWords (fun a b => if a.toInt ≤ b.toInt then b else a), 0⟩,
   ⟨.vrminI32, onWords (fun a b => if a.toInt ≤ b.toInt then a else b), 0⟩,
   ⟨.vrmaxN32, onWords (fun a b => if a.toNat ≤ b.toNat then b else a), 0⟩,
   ⟨.vrminN32, onWords (fun a b => if a.toNat ≤ b.toNat then a else b), 0⟩]

/-- The scans of R216. -/
def scanRows : List ((FmtV1 → Instr) × (BitVec 2 → Nat → Nat → Nat × Flags)) :=
  [(.vssumF32, fp32.add), (.vssumI32, onWords (fun a b => a + b)), (.vsmaxF32, fun _ => fp32.minmax true),
   (.vsmaxI32, onWords (fun a b => if a.toInt ≤ b.toInt then b else a))]

/-- node[lv][j] of R82. -/
def node (op : Nat → Nat → Nat × Flags) (val : Nat → Option Nat) (lv j : Nat) : Option Nat :=
  match lv with
  | 0 => val j
  | k + 1 =>
    match node op val k (2 * j), node op val k (2 * j + 1) with
    | none, y => y
    | some x, none => some x
    | some x, some y => some (op x y).1

/-- x[i] after `n` steps of the scan of R216, at the distances 1, 2, 4, ... -/
def scanned (op : Nat → Nat → Nat × Flags) (val : Nat → Option Nat) (n i : Nat) : Option Nat :=
  match n with
  | 0 => val i
  | k + 1 =>
    if i < 2 ^ k then scanned op val k i
    else match scanned op val k (i - 2 ^ k), scanned op val k i with
      | none, y => y
      | some x, none => some x
      | some x, some y => some (op x y).1

/-- Flags that are raised by some of the combinations of two values that `meets` names, and no others. -/
def Raised (op : Nat → Nat → Nat × Flags) (meets : Option Nat → Option Nat → Prop) (fl : Flags) : Prop :=
  ∀ b, fl.getLsbD b = true ↔ ∃ x y, meets (some x) (some y) ∧ (op x y).2.getLsbD b = true

/-- The register that lane `l` contributes to a reduction or scan, if it executes. -/
def contribution (x : Group) (m : Mask) (a l : Nat) : Option Nat :=
  if l < x.width ∧ m.getLsbD l = true then some (x.srcV a l).toNat else none

end Sys2Proof.Claims

open Sys2Proof Sys2Proof.Machine Sys2Proof.Claims

/-- R76, R194, R197 to R199: the float lanes, element by element: the exact result rounded once, the special operands, VRCP and
VRSQ within their bounds, and the exact cases and flags of the other approximations. That a result that underflows to zero is tiny
is log 91, how an approximation in 16 bits takes its flags is log 9, and that an approximation which overflows gives infinity in
every rounding mode is log 99. -/
def Obligations.FloatLanes : Prop :=
  (∀ row ∈ floatRows, ∀ (f : FmtV) (s : State), Ready (row.instr f) s →
    HasRoom (row.instr f) s (if f.s = 1 then 0 else (hitQuarters s.me.width (s.me.execMask f.p.toNat)).length) 0 →
    let m := s.me.execMask f.p.toNat
    Elementwise (row.instr f) s row.fmt f.d.toNat (f.q = 1) (f.s = 1) m row.slow (fun l k =>
      row.does s.me.rm (part row.fmt k (s.me.srcV f.a.toNat l)) (part row.fmt k (s.me.srcV f.b.toNat l))
        (part row.fmt k (s.me.readV f.d.toNat l)))) ∧
  ∀ row ∈ float1Rows, ∀ (f : FmtV1) (s : State), Ready (row.instr f) s →
    HasRoom (row.instr f) s (if f.s = 1 then 0 else (hitQuarters s.me.width (s.me.execMask f.p.toNat)).length) 0 →
    let m := s.me.execMask f.p.toNat
    Elementwise (row.instr f) s row.fmt f.d.toNat (f.q = 1) (f.s = 1) m row.slow (fun l k =>
      row.does s.me.rm (part row.fmt k (s.me.srcV f.a.toNat l)))

/-- R199: VEXP2, VLOG2 and VTANH within their bounds, in FP32, and in FP16 and BF16 within 1 ulp of the format. Which value within a
bound is free (log 9); that VEXP2 gives infinity in every rounding mode where it overflows is log 99. -/
def Obligations.ApproximationBounds : Prop :=
  ∀ row ∈ transcendentalRows, ∀ (f : FmtV1) (s : State), Ready (row.1 f) s →
    HasRoom (row.1 f) s (if f.s = 1 then 0 else (hitQuarters s.me.width (s.me.execMask f.p.toNat)).length) 0 →
    let m := s.me.execMask f.p.toNat
    Elementwise (row.1 f) s row.2.1 f.d.toNat (f.q = 1) (f.s = 1) m true (fun l k =>
      ApproximatesIn true row.2.1 row.2.2 s.me.rm (meaning row.2.1 (part row.2.1 k (s.me.srcV f.a.toNat l))))

/-- R77, R78: every rounding into FP32, FP16 and BF16, in each mode. -/
def Obligations.RoundingIsCorrect : Prop :=
  ∀ fmt ∈ [fp32, fp16, bf16], ∀ (rm : BitVec 2) (neg : Bool) (m : Nat) (e : Int), m ≠ 0 →
    let x : ℚ := (if neg then -1 else 1) * (m : ℚ) * (2 : ℚ) ^ e
    let r := fmt.round rm neg m e
    (r.2 &&& flagOF ≠ 0 → r.2 &&& flagNX ≠ 0 ∧ (∀ c y, valueOf fmt c = some y → |y| < |x|) ∧
      r.1 = (if neg then fmt.signBit else 0) +
        (if rm = 0 ∨ rm = 2 ∧ neg = false ∨ rm = 3 ∧ neg = true then fmt.infCode else fmt.infCode - 1)) ∧
    (r.2 &&& flagOF = 0 → ∃ v, valueOf fmt r.1 = some v ∧ (r.2 &&& flagNX = 0 ↔ v = x) ∧
      ∀ c y, valueOf fmt c = some y →
        (rm = 0 → |v - x| ≤ |y - x| ∧ (|v - x| = |y - x| → y ≠ v → r.1 % 2 = 0)) ∧
        (rm = 1 → |v| ≤ |x| ∧ (|y| ≤ |x| → |y| ≤ |v|)) ∧
        (rm = 2 → x ≤ v ∧ (x ≤ y → v ≤ y)) ∧
        (rm = 3 → v ≤ x ∧ (y ≤ x → y ≤ v)))

/-- R203: compares.
R204: masks, the moves between masks and scalars, and VBALLOT. -/
def Obligations.ComparesAndMasks : Prop :=
  (∀ row ∈ cmpRows, ∀ (f : FmtVm) (s : State), Ready (row.instr f) s →
     let m := s.me.execMask f.p.toNat
     let src := fun (n : BitVec 6) l => if f.t = 13 ∨ f.t = 14 then s.me.readV2 n.toNat l else (s.me.srcV n.toNat l).zeroExtend 64
     let v := fun l => row.result f.t (src f.a l) (src f.b l)
     MaskResult (row.instr f) s f.d.toNat (fun l => if m.getLsbD l then (v l).1 else (s.me.mask f.d.toNat).getLsbD l)
       (f.q = 1) m (fun l => (v l).2)) ∧
  ((∀ row ∈ maskRows, ∀ (f : FmtMk) (s : State), Ready (row.1 f) s →
     MaskResult (row.1 f) s f.d.toNat (fun l => row.2 ((s.me.mask f.a.toNat).getLsbD l) ((s.me.mask f.b.toNat).getLsbD l))
       true 0 (fun _ => 0)) ∧
   (∀ row ∈ mask1Rows, ∀ (f : FmtMk1) (s : State), Ready (row.1 f) s →
     MaskResult (row.1 f) s f.d.toNat (fun l => row.2 ((s.me.mask f.a.toNat).getLsbD l)) true 0 (fun _ => 0)) ∧
   (∀ (f : FmtMlds) (s : State), Ready (.mlds f) s →
     MaskResult (.mlds f) s f.d.toNat (fun l => ((s.reader (.mlds f)).srcS (f.x.toNat + l / 32)).getLsbD (l % 32)) true 0
       (fun _ => 0)) ∧
   (∀ (f : FmtMx) (s : State), Ready (.msts f) s → HasRoom (.msts f) s 0 (max 1 (s.me.width / 32)) →
     ScalarWritten (.msts f) s f.x.toNat (max 1 (s.me.width / 32))
       (fun k => (s.me.mask f.a.toNat).extractLsb' (32 * k) 32)) ∧
   (∀ (f : FmtMx) (s : State), Ready (.mpopc f) s → HasRoom (.mpopc f) s 0 1 →
     ScalarWritten (.mpopc f) s f.x.toNat 1 (fun _ => BitVec.ofNat 32 (lanesOf (s.me.mask f.a.toNat)).length)) ∧
   (∀ (f : FmtMx) (s : State), Ready (.mfirst f) s → HasRoom (.mfirst f) s 0 1 →
     ScalarWritten (.mfirst f) s f.x.toNat 1 (fun _ =>
       ((lanesOf (s.me.mask f.a.toNat)).head?.map (BitVec.ofNat 32)).getD 0xFFFFFFFF)) ∧
   ∀ (f : FmtBallot) (s : State), Ready (.vballot f) s →
     MaskResult (.vballot f) s f.d.toNat
       (fun l => (s.me.execMask f.p.toNat).getLsbD l && s.me.srcV f.x.toNat l != 0) true 0 (fun _ => 0))

/-- R215: the cross-lane moves.
R82, R216: reductions and scans. -/
def Obligations.CrossLane : Prop :=
  (∀ row ∈ shuffleRows, ∀ (f : FmtV) (s : State), Ready (row.1 f) s →
     HasRoom (row.1 f) s (if f.s = 1 then 0 else (hitQuarters s.me.width (s.me.execMask f.p.toNat)).length) 0 →
     VectorResult (row.1 f) s f.d.toNat true (f.s = 1) (s.me.execMask f.p.toNat)
       [fun l => s.me.srcV f.a.toNat (row.2.1 s.me.width l
         (if row.2.2 then (s.reader (row.1 f)).srcS f.b.toNat else s.me.srcV f.b.toNat l).toNat)] (fun _ => 0) false) ∧
  ((∀ row ∈ reduceRows, ∀ (f : FmtV1) (s : State), Ready (row.instr f) s →
     HasRoom (row.instr f) s (if f.s = 1 then 0 else (hitQuarters s.me.width (s.me.execMask f.p.toNat)).length) 0 →
     let m := s.me.execMask f.p.toNat
     let at_ := node (row.op s.me.rm) (contribution s.me m f.a.toNat)
     ∃ fl, Raised (row.op s.me.rm) (fun x y => ∃ lv j, lv < Nat.log2 s.me.width ∧ at_ lv (2 * j) = x ∧ at_ lv (2 * j + 1) = y) fl ∧
       VectorResult (row.instr f) s f.d.toNat (f.q = 1) (f.s = 1) m
         [fun _ => BitVec.ofNat 32 ((at_ (Nat.log2 s.me.width) 0).getD row.identity)] (fun _ => fl) false) ∧
   (∀ row ∈ scanRows, ∀ (f : FmtV1) (s : State), Ready (row.1 f) s →
     HasRoom (row.1 f) s (if f.s = 1 then 0 else (hitQuarters s.me.width (s.me.execMask f.p.toNat)).length) 0 →
     let m := s.me.execMask f.p.toNat
     let at_ := scanned (row.2 s.me.rm) (contribution s.me m f.a.toNat)
     ∃ fl, Raised (row.2 s.me.rm)
         (fun x y => ∃ k i, k < Nat.log2 s.me.width ∧ 2 ^ k ≤ i ∧ i < s.me.width ∧ at_ k (i - 2 ^ k) = x ∧ at_ k i = y) fl ∧
       VectorResult (row.1 f) s f.d.toNat (f.q = 1) (f.s = 1) m
         [fun l => BitVec.ofNat 32 ((at_ (Nat.log2 s.me.width) l).getD 0)] (fun _ => fl) false) ∧
   ∀ (f : FmtV1) (s : State) (k : Nat), Ready (.vssumI32 f) s → s.me.width = 2 ^ k →
     HasRoom (.vssumI32 f) s (if f.s = 1 then 0 else (hitQuarters s.me.width (s.me.execMask f.p.toNat)).length) 0 →
     let m := s.me.execMask f.p.toNat
     VectorResult (.vssumI32 f) s f.d.toNat (f.q = 1) (f.s = 1) m
       [fun l => wrap 32 (((List.range (l + 1)).filter (fun i => m.getLsbD i)).map (fun i => (s.me.srcV f.a.toNat i).toInt)).sum]
       (fun _ => 0) false)

/-- R79, R205, R206: VCVT and VCVTQ between any two types. -/
def Obligations.Conversions : Prop :=
  ∀ row ∈ [(Instr.vcvt, false), (Instr.vcvtq, true)], ∀ (f : FmtVc) (s : State), Ready (row.1 f) s →
    HasRoom (row.1 f) s (if f.w = 1 then 0
      else (if typeWidth f.t.toNat = 64 then 2 else 1) * (hitQuarters s.me.width (s.me.execMask f.p.toNat)).length) 0 →
    let m := s.me.execMask f.p.toNat
    let k := f.e.toNat
    let from_ := typeWidth f.s.toNat
    let into := typeWidth f.t.toNat
    let a := fun l => if from_ = 64 then (s.me.readV2 f.a.toNat l).toNat
      else if from_ = 32 then (s.me.srcV f.a.toNat l).toNat else packed from_ k (s.me.srcV f.a.toNat l)
    ∃ (lo hi : Nat → Word) (c : Nat → Nat) (fl : Nat → Flags),
      VectorResult (row.1 f) s f.d.toNat row.2 (f.w = 1) m (if into = 64 then [lo, hi] else [lo]) fl false ∧
      ∀ l, m.getLsbD l = true →
        Converts f.s.toNat f.t.toNat s.me.rm (a l) (c l) (fl l) ∧
        (into = 64 → (lo l).toNat + 2 ^ 32 * (hi l).toNat = c l) ∧ (into = 32 → (lo l).toNat = c l) ∧
        (into < 32 → ∀ i, i < 32 / into →
          packed into i (lo l) = if i = k then c l else packed into i (s.me.readV f.d.toNat l))

/-- R69 to R71, R74, R75, R208 to R212: VBSCALE, VQUANT and VDEQ. That a segment whose elements leave no magnitude takes scale code
0x7F is log 74; elements outside the mask are as log 37 says. -/
def Obligations.TaggedBlocks : Prop :=
  (∀ (f : FmtBscale) (s : State), Ready (.vbscale f) s →
    HasRoom (.vbscale f) s (if f.s = 1 then 0 else (hitQuarters s.me.width (s.me.execMask f.p.toNat)).length) 0 →
    let m := s.me.execMask f.p.toNat
    let fmt := f.f.toNat
    VectorResult (.vbscale f) s f.d.toNat true (f.s = 1) m
      [fun l => BitVec.ofNat 32 (256 * scaleRule fmt (s.me.himm.getD 0).toNat
        ((List.range (4 * segmentLanes fmt)).map (sourceElement s.me m f.a.toNat (firstLane fmt l))) + (4 + fmt))]
      (fun _ => 0) true) ∧
  (∀ (f : FmtQuant) (s : State), Ready (.vquant f) s →
    HasRoom (.vquant f) s (if f.s = 1 then 0 else (hitQuarters s.me.width (s.me.execMask f.p.toNat)).length) 0 →
    let m := s.me.execMask f.p.toNat
    let fmt := f.f.toNat
    let base := fun l => firstLane fmt l
    let xs := fun l => sourceElement s.me m f.a.toNat (base l)
    let scale := fun l => packed 8 1 (s.me.srcV f.b.toNat (base l))
    let to_ := fun l t i => ConvertsTo t s.me.rm (quotient (scale l) (xs l i))
    ∃ (r : Nat → Word) (fl : Nat → Flags) (c o : Nat → Nat → Nat) (fc fo : Nat → Nat → Flags),
      VectorResult (.vquant f) s f.d.toNat (f.q = 1) (f.s = 1) m [r] fl true ∧
      ∀ l, m.getLsbD l = true →
        (∀ i, i < 4 * segmentLanes fmt → to_ l (3 + fmt) i (c l i) (fc l i) ∧ to_ l 3 i (o l i) (fo l i)) ∧
        let j := l - base l
        if fmt = 3 then
          EscapedLane (placedEscapes (scale l) s.me.rm (xs l) (fun n => m.getLsbD (base l + n))
            (candidates (s.me.himm.getD 0).toNat (xs l))) (xs l) (c l) (o l) (fc l) (fo l) j (r l).toNat (fl l)
        else
          (r l).toNat = ((List.range 4).map (fun k => c l (4 * j + k) * 2 ^ (typeWidth (3 + fmt) * k))).sum ∧
          fl l = fc l (4 * j) ||| fc l (4 * j + 1) ||| fc l (4 * j + 2) ||| fc l (4 * j + 3)) ∧
  ∀ (f : FmtQuant) (s : State), Ready (.vdeq f) s →
    HasRoom (.vdeq f) s (if f.s = 1 then 0 else 4 * (hitQuarters s.me.width (s.me.execMask f.p.toNat)).length) 0 →
    let m := s.me.execMask f.p.toNat
    let fmt := f.f.toNat
    let base := fun l => firstLane fmt l
    let scale := fun l => packed 8 1 (s.me.srcV f.b.toNat (base l))
    let elem := fun l k => blockElement fmt (blockByte s.me fmt f.a.toNat (base l)) (4 * (l - base l) + k)
    ∃ (r : Nat → Nat → Word) (fl : Nat → Nat → Flags),
      VectorResult (.vdeq f) s f.d.toNat (f.q = 1) (f.s = 1) m [r 0, r 1, r 2, r 3]
        (fun l => fl l 0 ||| fl l 1 ||| fl l 2 ||| fl l 3) true ∧
      ∀ l, m.getLsbD l = true → ∀ k, k < 4 → ∃ e,
        Decodes (scale l) s.me.rm (elem l k).1 (r k l).toNat e ∧ fl l k = e ||| when ((elem l k).2 = true) flagNV

namespace Sys2Proof.Claims

open Sys2Proof.Machine

/-- The condition of VIF and VWHILE: m[MA], or its complement within the group (R167, R169). -/
def condition (x : Group) (m : BitVec 3) (neg : BitVec 1) : Mask :=
  if neg = 1 then fullMask x.width &&& ~~~ x.mask m.toNat else x.mask m.toNat

/-- A VELSE or VEND that goes on at `pc`, with the group otherwise as in `z`: the signature takes the instruction's update with
the execute mask and then the update with the mask that is current (R317). -/
def Reconverges (i : Instr) (s v : State) (z : Group) (pc : Dword) : Prop :=
  ∃ t y, exec i s = .next t ∧ t = { v with groups := t.groups } ∧ (∀ h, h ≠ s.cur → t.group h = s.group h) ∧
    Ran i (s.reader i) z y pc false {} ∧ t.group s.cur = { y with sig := sigMask y.sig z.curMask }

/-- The entry below the top of the mask stack, or all ones (R166). -/
def below (x : Group) : Mask :=
  match x.mstk with
  | _ :: e :: _ => e.mask
  | _ => fullMask x.width

/-- Whether an instruction on the top entry would act on what the open region saved (R182). -/
def frozen (x : Group) : Prop := ∃ r, x.region = some r ∧ x.mstk.length ≤ r.msDepth

/-- No compaction of this group ends at the top entry (R171). -/
def noReturn (x : Group) : Prop := ∀ h, x.holder = some h → h.level ≠ x.mstk.length

/-- The issuing group is listed, and the groups are listed in the order of their numbers. -/
def Listed (s : State) : Prop := Fmap.risingFrom 0 s.groups = true ∧ (Fmap.find s.groups s.cur).isSome = true

/-- What group `g` has come to know as `y`, by an acquire at workgroup scope, of bytes that loads read past the cache: what `own` gives,
or what a group of its workgroup knew in `s`, whichever is later (R114, R116). That the acquire takes in every such group is log 7. -/
def Learns (s : State) (g : Nat) (own : Nat → Nat) (y : Group) : Prop :=
  Fmap.risingFrom 0 s.groups = true → (Fmap.find s.groups g).isSome = true → ∀ a, let v := Fmap.get 0 y.past a
    let others := fun (p : Nat × Group) => p ∈ s.groups ∧ p.1 ≠ g ∧ p.2.wg = (s.group g).wg
    own a ≤ v ∧ (∀ p, others p → Fmap.get 0 p.2.past a ≤ v) ∧ (v = own a ∨ ∃ p, others p ∧ v = Fmap.get 0 p.2.past a)

/-- A group that leaves its rendezvous with status `code` in register `d` (R23, R66, R173): it is otherwise as in `x`. -/
def Leaves (x y : Group) (d code : Nat) : Prop :=
  y.readS d = BitVec.ofNat 32 code ∧ y.wait = none ∧ y.pc = nextPc x.pc ∧ y.bundle = none ∧ y.hlr = [] ∧ y.hrun = x.hrun ∧
    (∀ l ∈ y.sk ++ y.vk, l.valid = false) ∧ y.base = x.base ∧ y.width = x.width ∧ y.m = x.m ∧ y.flags = x.flags ∧ y.mstk = x.mstk ∧
    y.rstk = x.rstk ∧ y.status = x.status ∧ y.wg = x.wg

/-- An arrival at a barrier that passes the checks of R177: its word at location `loc`, its membership, its lanes. -/
structure Arrives (s : State) (m : Member) (off k : Nat) : Prop where
  alive : m.kind = 3 → s.hasExited k = false
  inside : off < 1048576 ∧ off < 128 * (s.wg k).lines
  aligned : off % 32 = 0
  line : (s.lineAt (spadLoc (s.wg k).core (128 * (s.wg k).line0 + off))).barrier = true
  member : let loc := spadLoc (s.wg k).core (128 * (s.wg k).line0 + off)
    if s.barKind loc = 0 then s.validMember s.myWg m = true else m = s.storedMember loc
  named : m.kind = 1 → ∀ r ∈ s.arrivalLanes s.me, blocksNamed m r = true
  total : m.kind ≠ 1 → s.barArr (spadLoc (s.wg k).core (128 * (s.wg k).line0 + off)) + ((s.arrivalLanes s.me).map (·.2)).sum ≤ m.a
  acked : m.kind = 3 → s.storesOut s.cur = false
  live : s.me.status = .live ∧ 0 < s.me.width

/-- The three arrivals (R177): the membership in the registers, and the workgroup whose scratchpad holds the word. -/
def barrierRows : List ((FmtBa → Instr) × (FmtBa → Group → Member) × (State → Group → Nat)) :=
  [(.barb, (fun f x => ⟨1, (x.readS2 f.a.toNat).toNat, (x.readS (f.a.toNat + 2)).toNat⟩), fun _ x => x.wg),
   (.barn, (fun f x => ⟨2, (x.readS f.a.toNat).toNat, (x.readS (f.a.toNat + 1)).toNat⟩), fun _ x => x.wg),
   (.barc, (fun f x => ⟨3, (x.readS f.a.toNat).toNat, (x.readS (f.a.toNat + 1)).toNat⟩),
     fun s x => (s.wg x.wg).members.head?.getD x.wg)]

end Sys2Proof.Claims

open Sys2Proof Sys2Proof.Machine Sys2Proof.Claims

/-- R166 to R169, R182: VIF, VLOOP and VWHILE, with the words that R167 and R169 write out.
R168, R170, R182, R317: VELSE and VEND where no compaction ends. That MASK_STACK is asked before IDEM_REGION is log 20. -/
def Obligations.MaskStack : Prop :=
  ((∀ (f : FmtVif) (s : State), Ready (.vif f) s →
     let els := (match s.me.himm with | some v => v.toNat / 65536 | none => f.e.toNat)
     let off := (match s.me.himm with | some v => v.toNat % 65536 | none => f.o.toNat)
     let t := s.me.curMask &&& condition s.me f.m f.n
     let e := s.me.curMask &&& ~~~ condition s.me f.m f.n
     let at_ := fun k => s.me.pc + BitVec.ofNat 64 (4 * k)
     (s.me.mstk.length < 32 → Becomes (.vif f) s s
       { s.reader (.vif f) with mstk := ⟨if els = 0 then 0 else at_ els, t, at_ off⟩ :: s.me.mstk }
       (if t ≠ 0 then nextPc s.me.pc else if els ≠ 0 ∧ e ≠ 0 then at_ els else at_ off) false) ∧
     (32 ≤ s.me.mstk.length → Traps (.vif f) s { trap := .maskStack })) ∧
   (∀ (f : FmtVloop) (s : State), Ready (.vloop f) s →
     let off := (match s.me.himm with | some v => v.toNat | none => f.o.toNat)
     let out := s.me.pc + BitVec.ofNat 64 (4 * off)
     (s.me.mstk.length < 32 → Becomes (.vloop f) s s
       { s.reader (.vloop f) with mstk := ⟨(s.me.pc + 4) ||| 1, s.me.curMask, out⟩ :: s.me.mstk }
       (if s.me.curMask = 0 then out else nextPc s.me.pc) false) ∧
     (32 ≤ s.me.mstk.length → Traps (.vloop f) s { trap := .maskStack })) ∧
   (∀ (f : FmtVwhile) (s : State), Ready (.vwhile f) s →
     let back := s.me.pc - BitVec.ofNat 64 (4 * (match s.me.himm with | some v => v.toNat | none => f.o.toNat))
     let loops := fun (e : MaskEntry) => e.resume.getLsbD 0 = true ∧ e.resume - 1 = back ∧ s.me.pc.toNat < e.recon.toNat
     (∀ e rest, s.me.mstk = e :: rest → loops e → ¬ frozen s.me →
       let m := e.mask &&& condition s.me f.m f.n
       Becomes (.vwhile f) s s { s.reader (.vwhile f) with mstk := { e with mask := m } :: rest }
         (if m ≠ 0 then back else nextPc s.me.pc) false) ∧
     ((∀ e rest, s.me.mstk = e :: rest → ¬ loops e) → Traps (.vwhile f) s { trap := .maskStack }) ∧
     (∀ e rest, s.me.mstk = e :: rest → loops e → frozen s.me → Traps (.vwhile f) s { trap := .idemRegion })) ∧
   decodeTableWord 32 0x21000004 = some (.vif ⟨2, 0, 0, 4⟩) ∧ decodeTableWord 32 0x24000005 = some (.vloop ⟨5⟩) ∧
   decodeTableWord 32 0x29C00004 = some (.vwhile ⟨3, 1, 4⟩)) ∧
  ((∀ s : State, Ready .velse s →
     (∀ e rest, s.me.mstk = e :: rest → e.resume ≠ 0 → e.resume = s.me.pc → ¬ frozen s.me → noReturn s.me →
       let m := below s.me &&& ~~~ e.mask
       Reconverges .velse s s { s.reader .velse with mstk := { e with mask := m, resume := 0 } :: rest }
         (if m = 0 then e.recon else nextPc s.me.pc)) ∧
     ((∀ e rest, s.me.mstk = e :: rest → e.resume = 0 ∨ e.resume ≠ s.me.pc) → Traps .velse s { trap := .maskStack }) ∧
     (∀ e rest, s.me.mstk = e :: rest → e.resume ≠ 0 → e.resume = s.me.pc → frozen s.me → Traps .velse s { trap := .idemRegion })) ∧
   ∀ s : State, Ready .vend s →
     (∀ e rest, s.me.mstk = e :: rest → e.recon = s.me.pc → ¬ frozen s.me → noReturn s.me →
       (e.resume.getLsbD 0 = true → e.mask ≠ 0 → Reconverges .vend s s (s.reader .vend) (e.resume - 1)) ∧
       (e.resume.getLsbD 0 = false ∨ e.mask = 0 →
         Reconverges .vend s s { s.reader .vend with mstk := rest } (nextPc s.me.pc))) ∧
     ((∀ e rest, s.me.mstk = e :: rest → e.recon ≠ s.me.pc) → Traps .vend s { trap := .maskStack }) ∧
     (∀ e rest, s.me.mstk = e :: rest → e.recon = s.me.pc → frozen s.me → Traps .vend s { trap := .idemRegion }))

/-- R20, R28, R122, R188: EXIT. What issued matrix operations have yet to write keeps its slices, and the closed batches run on. Those
that wait at a barrier or in a rendezvous for the group meet its exit. -/
def Obligations.Exit : Prop :=
  (∀ s : State, Ready .exit s → s.me.holder ≠ none → Traps .exit s { trap := .widthState }) ∧
  ∀ s : State, Ready .exit s → s.me.holder = none → s.myWg.state ≠ .saved →
    let written := fun (k : Nat) (sl : Slice) => ∃ p ∈ s.mops, p.2.g = s.cur ∧
      (64 + 32 * p.2.acc ≤ k / 16 ∧ k / 16 < 96 + 32 * p.2.acc ∨ k / 16 < 64 ∧ ∃ q ∈ p.2.fills, q.2 = sl.id)
    ∃ t, exec .exit s = .next t ∧
      t = { (if s.me.rdDepth = 0 then s else s.modCnt s.myCore s.me.rdPar (· - 1)) with
              groups := t.groups, mem := t.mem, poison := t.poison, pend := t.pend } ∧
      t.group s.cur =
        { s.reader .exit with
            status := .exited, region := none, bundle := none, hlr := [], hrun := 0, stall := none, pendTraps := []
            poolHold := none, rollbackDue := false, wait := none, v := Fmap.select s.me.v (fun k sl => decide (written k sl)), s := []
            batchOpen := false, openStatus := 0, rdDepth := 0, rdPar := if s.me.rdDepth = 0 then s.me.rdPar else false } ∧
      ((∀ p ∈ s.groups, p.1 ≠ s.cur → p.2.wait = none) →
        t.mem = s.mem ∧ t.poison = s.poison ∧ t.pend = s.pend ∧ ∀ h, h ≠ s.cur → t.group h = s.group h) ∧
      (∀ h loc n c w e r, h ≠ s.cur → (s.group h).wait = some ⟨.barrier loc n true c, w, e, r⟩ → 0 < n →
        (s.group h).status = .live → (s.group h).wg = s.me.wg → s.namesLanes loc s.me = true →
        (∀ b ∈ s.barrierWaits, b.1 = loc ∨ b.1 + 32 ≤ loc ∨ loc + 32 ≤ b.1) → .barrierOrphan ∈ (t.group h).pendTraps) ∧
      (∀ h loc n b w e r, h ≠ s.cur → (s.group h).wait = some ⟨.barrier loc n b true, w, e, r⟩ → (s.group h).status = .live →
        (s.group h).wg ∈ s.myWg.members → Listed s → (∀ p ∈ s.groups, p.1 ≠ s.cur → p.2.wg = s.me.wg → p.2.status ≠ .live) →
        .peerExited ∈ (t.group h).pendTraps) ∧
      ∀ h n d w e, h ≠ s.cur → Listed s →
        (s.group h).wait = some ⟨.fuse n d, w, e, []⟩ ∨ (s.group h).wait = some ⟨.compact d, w, e, []⟩ ∧ n = 2 * (s.group h).width →
        (s.group h).status = .live → (s.group h).wg = s.me.wg →
        (s.group h).base / n * n < s.me.base + s.me.width → s.me.base < (s.group h).base / n * n + n →
        Leaves (s.group h) (t.group h) d.toNat 2

/-- R102, R114, R116, R187 to R190: YIELD, SNAP, FENCE and TRAP. That a FENCE at workgroup scope takes in what every group of its
workgroup knows is log 7.
R38, R40, R125, R180: PHEND, XEND and GPWAIT. -/
def Obligations.SystemAndPhases : Prop :=
  ((∀ s : State, Ready .yield s → Becomes .yield s s
     { s.reader .yield with hrun := 0, readySince := (s.die s.myDie).ck.toNat + 1 } (nextPc s.me.pc) false) ∧
   (∀ s : State, Ready .snap s → Becomes .snap s
     (if s.root.snapPerm.getLsbD s.myCtx = true ∧ s.root.snapPend = [] then
       { s with root := { s.root with snapSeq := s.root.snapSeq + 1, snapPend := (List.range 117).filter s.blockAlive } }
      else s) (s.reader .snap) (nextPc s.me.pc) false) ∧
   (∀ (f : FmtFence) (s : State), Ready (.fence f) s →
     (f.c.toNat < 2 ∨ (∀ p ∈ s.stores, p.2.g ≠ s.cur) → ∃ t, Does (.fence f) s
       (if 2 ≤ f.c.toNat then s.setCore s.myCore { s.core s.myCore with l1 := [] } else s)
       { s.reader (.fence f) with interval := s.me.interval + 1, past := (t.group s.cur).past } (nextPc s.me.pc) false {} t ∧
       (f.c.toNat ≠ 1 → (t.group s.cur).past = s.me.past) ∧
       (f.c.toNat = 1 → Learns s s.cur (Fmap.get 0 s.me.past) (t.group s.cur))) ∧
     (2 ≤ f.c.toNat → (∃ p ∈ s.stores, p.2.g = s.cur) → Stalls (.fence f) s .order)) ∧
   ∀ (f : FmtTrap) (s : State), Ready (.trap f) s → Traps (.trap f) s { trap := .user, imm := f.i }) ∧
  ((∀ s : State, Ready .phend s → Stays .phend s
     (if s.root.wave = none ∧ s.root.ph.getLsbD 0 = false then { s with root := { s.root with wave := some .computeEnd } } else s)
     { (s.reader .phend).dropLatches with
         interval := s.me.interval + 1, wait := some (waitFor .phend s .phend), stall := none }) ∧
   (∀ s : State, Ready .xend s → Stays .xend s s
     { (s.reader .xend).dropLatches with
         interval := s.me.interval + 1, wait := some (waitFor .xend s .xend), stall := none }) ∧
   ∀ s : State, Ready .gpwait s →
     (s.me.rdDepth = 0 → Stays .gpwait s
       { s with root := { s.root with
           incoming := if .boundary ∈ s.root.incoming then s.root.incoming else s.root.incoming ++ [.boundary] } }
       { s.reader .gpwait with wait := some (waitFor .gpwait s (.gpwait s.root.ph.toNat)), stall := none }) ∧
     (s.me.rdDepth ≠ 0 → Traps .gpwait s { trap := .readerSection }))

/-- R59, R181 to R183: IDEMB and IDEME.
R120: RDENTER and RDEXIT. -/
def Obligations.RegionsAndReaders : Prop :=
  ((∀ s : State, Ready .idemb s →
     (∀ r, s.myWg.kern.regions.find? (fun r => r.1 = s.me.pc) = some r →
       Becomes .idemb s
         { s with mops := Fmap.mapVals (fun _ (o : MOp) => if o.g = s.cur then { o with inRegion := false } else o) s.mops }
         { s.reader .idemb with
             region := some { restart := nextPc s.me.pc, regionEnd := r.2, msDepth := s.me.mstk.length, rsDepth := s.me.rstk.length
                              m := s.me.m, flags := s.me.flags, rdDepth := s.me.rdDepth, rdPar := s.me.rdPar
                              sig := sigStep s.me.sig (Instr.info .idemb).word (s.me.execMask 0), v := s.me.v, s := s.me.s }
             rollbacks := 0 } (nextPc s.me.pc) false) ∧
     (s.myWg.kern.regions.find? (fun r => r.1 = s.me.pc) = none → Traps .idemb s { trap := .idemRegion })) ∧
   ∀ s : State, Ready .ideme s →
     (∀ r, s.me.region = some r → s.me.pc = r.regionEnd → s.me.mstk.length = r.msDepth → s.me.rstk.length = r.rsDepth →
       Becomes .ideme s s { s.reader .ideme with region := none } (nextPc s.me.pc) false) ∧
     ((∀ r, s.me.region = some r → s.me.pc ≠ r.regionEnd ∨ s.me.mstk.length ≠ r.msDepth ∨ s.me.rstk.length ≠ r.rsDepth) →
       Traps .ideme s { trap := .idemRegion })) ∧
  ((∀ s : State, Ready .rdenter s →
     let par := (s.core s.myCore).parity
     (s.me.rdDepth = 0 → Becomes .rdenter s
       (s.setCore s.myCore (if par then { s.core s.myCore with cnt1 := (s.core s.myCore).cnt1 + 1 }
         else { s.core s.myCore with cnt0 := (s.core s.myCore).cnt0 + 1 }))
       { s.reader .rdenter with rdDepth := 1, rdPar := par } (nextPc s.me.pc) false) ∧
     (s.me.rdDepth ≠ 0 → s.me.rdDepth ≠ 255 → Becomes .rdenter s s
       { s.reader .rdenter with rdDepth := s.me.rdDepth + 1 } (nextPc s.me.pc) false) ∧
     (s.me.rdDepth = 255 → Traps .rdenter s { trap := .readerSection })) ∧
   ∀ s : State, Ready .rdexit s →
     (s.me.rdDepth = 1 → Becomes .rdexit s
       (s.setCore s.myCore (if s.me.rdPar then { s.core s.myCore with cnt1 := (s.core s.myCore).cnt1 - 1 }
         else { s.core s.myCore with cnt0 := (s.core s.myCore).cnt0 - 1 }))
       { s.reader .rdexit with rdDepth := 0, rdPar := false } (nextPc s.me.pc) false) ∧
     (1 < s.me.rdDepth → Becomes .rdexit s s
       { s.reader .rdexit with rdDepth := s.me.rdDepth - 1 } (nextPc s.me.pc) false) ∧
     (s.me.rdDepth = 0 → Traps .rdexit s { trap := .readerSection }))

/-- R26, R27, R66, R177: arrivals at barriers. That a completion comes before a test for orphans is log 24, and what an acquire at
workgroup scope takes in is log 7. -/
def Obligations.BarrierArrivals : Prop :=
  ∀ row ∈ barrierRows, ∀ (f : FmtBa) (s : State), Ready (row.1 f) s →
    let m := row.2.1 f (s.reader (row.1 f))
    let off := ((s.reader (row.1 f)).srcS f.b.toNat).toNat
    let k := row.2.2 s s.me
    let loc := spadLoc (s.wg k).core (128 * (s.wg k).line0 + off)
    let count := ((s.arrivalLanes s.me).map (·.2)).sum
    let noExit := (∀ p ∈ s.groups, p.2.wg = s.me.wg → p.2.status ≠ .exited) ∧ (∀ p ∈ s.myWg.members, s.hasExited p = false)
    Arrives s m off k → Listed s →
      (s.barArr loc + count ≠ m.need → noExit →
        Stays (row.1 f) s
          (s.setBar loc (if m.kind = 1 then m.a else 0) (if m.kind = 1 then 0 else m.b) (if m.kind = 1 then m.b else m.a)
            (s.barArr loc + count) (s.barEpoch loc) m.kind)
          { s.reader (row.1 f) with
              wait := some (waitFor (row.1 f) s (.barrier loc count (m.kind = 1) (m.kind = 3))), stall := none }) ∧
      (s.barArr loc + count = m.need →
        ∃ t, exec (row.1 f) s = .next t ∧
          t = { s with groups := t.groups, mem := t.mem, poison := t.poison, cores := t.cores } ∧
          (m.kind ≠ 3 → t.cores = s.cores) ∧ (m.kind = 3 → (t.core s.myCore).l1 = []) ∧
          t.barKind loc = 0 ∧ t.barMask loc = 0 ∧ t.barSig loc = 0 ∧ t.barNB loc = 0 ∧ t.barArr loc = 0 ∧
          t.barEpoch loc = (s.barEpoch loc + 1) % 4294967296 ∧
          (∀ a, a < loc ∨ loc + 32 ≤ a → t.byteAt a = s.byteAt a) ∧
          Ran (row.1 f) (s.reader (row.1 f))
            { s.reader (row.1 f) with wait := none, interval := s.me.interval + 1, past := (t.group s.cur).past }
            (t.group s.cur) (nextPc s.me.pc) false {} ∧
          (∀ h ∈ s.waitersAt loc, h ≠ s.cur → (t.group h).wait = none ∧ (t.group h).pc = nextPc (s.group h).pc) ∧
          (∀ h, h = s.cur ∨ h ∈ s.waitersAt loc →
            (m.kind = 3 → (t.group h).past = (s.group h).past) ∧
            (m.kind ≠ 3 → Learns s h (Fmap.get 0 (s.group h).past) (t.group h))) ∧
          ∀ h, h ∉ s.waitersAt loc → h ≠ s.cur → t.group h = s.group h)

/-- R28, R177, R178: what keeps an arrival from being made, in the order of the checks. The address reported is log 23.
R179, R232: BLSET and BLCLR. -/
def Obligations.BarrierChecksAndLines : Prop :=
  (∀ row ∈ barrierRows, ∀ (f : FmtBa) (s : State), Ready (row.1 f) s →
     let m := row.2.1 f (s.reader (row.1 f))
     let off := ((s.reader (row.1 f)).srcS f.b.toNat).toNat
     let k := row.2.2 s s.me
     let loc := spadLoc (s.wg k).core (128 * (s.wg k).line0 + off)
     let va := BitVec.ofNat 64 (0x0F00000000000000 + off)
     let gone := m.kind = 3 ∧ s.hasExited k = true
     let out := 1048576 ≤ off ∨ 128 * (s.wg k).lines ≤ off
     (gone → Traps (row.1 f) s { trap := .peerExited, addr := va }) ∧
     (¬ gone → out → Traps (row.1 f) s { trap := .scratchRange, addr := va }) ∧
     (¬ gone → ¬ out → off % 32 ≠ 0 → Traps (row.1 f) s { trap := .misaligned, addr := va }) ∧
     (¬ gone → ¬ out → off % 32 = 0 → (s.lineAt loc).barrier = false → Traps (row.1 f) s { trap := .barrierLine, addr := va }) ∧
     (¬ gone → ¬ out → off % 32 = 0 → (s.lineAt loc).barrier = true →
       let other := s.barKind loc = 0 ∧ s.validMember s.myWg m = false ∨ s.barKind loc ≠ 0 ∧ m ≠ s.storedMember loc
       let unnamed := m.kind = 1 ∧ ∃ r ∈ s.arrivalLanes s.me, blocksNamed m r = false
       let beyond := m.kind ≠ 1 ∧ m.a < s.barArr loc + ((s.arrivalLanes s.me).map (·.2)).sum
       (other ∨ unnamed ∨ beyond → Traps (row.1 f) s { trap := .barrierMembership }) ∧
       (¬ (other ∨ unnamed ∨ beyond) → m.kind = 3 → s.storesOut s.cur = true → Stalls (row.1 f) s .order))) ∧
  (∀ row ∈ [(Instr.blset, true), (Instr.blclr, false)], ∀ (f : FmtBl) (s : State), Ready (row.1 f) s →
     let off := ((s.reader (row.1 f)).srcS f.b.toNat).toNat
     let loc := spadLoc s.myCore (128 * s.myWg.line0 + off)
     let l := s.lineAt loc
     let va := BitVec.ofNat 64 (0x0F00000000000000 + off)
     let inside := off < 1048576 ∧ off < 128 * s.myWg.lines
     let free := if row.2 then l.full = true ∧ l.count = 0
       else ∀ d ∈ [0, 32, 64, 96], s.barKind (loc / 128 * 128 + d) = 0
     (¬ inside → Traps (row.1 f) s { trap := .scratchRange, addr := va }) ∧
     (inside → l.queue = true → Traps (row.1 f) s { trap := .queue, addr := va }) ∧
     (inside → l.queue = false → l.barrier = row.2 → Becomes (row.1 f) s s (s.reader (row.1 f)) (nextPc s.me.pc) false) ∧
     (inside → l.queue = false → l.barrier ≠ row.2 → ¬ free → Traps (row.1 f) s { trap := .barrierLine, addr := va }) ∧
     (inside → l.queue = false → l.barrier ≠ row.2 → free → ∃ t,
       Does (row.1 f) s { s with mem := t.mem, poison := t.poison, lines := t.lines } (s.reader (row.1 f)) (nextPc s.me.pc) false {} t ∧
       (∀ a, t.byteAt a = if a / 128 = loc / 128 then 0 else s.byteAt a) ∧
       ∀ a, t.lineAt a = if a / 128 = loc / 128 then { l with barrier := row.2 } else s.lineAt a))

/-- R58, R133 to R137: the hint words. -/
def Obligations.HintWords : Prop :=
  (∀ (f : FmtHlr) (s : State),
    (s.me.bundle = none → exec (.hlr f) s = .next (s.setGroup s.cur
      { s.me with hlr := (List.range 8).map (fun k => f.l.extractLsb' (3 * k) 3), pc := s.me.pc + 4, stall := none })) ∧
    (s.me.bundle ≠ none → exec (.hlr f) s = .next (s.preciseTrap s.cur { trap := .illegalOp }))) ∧
  (∀ (f : FmtHrun) (s : State),
    (s.me.bundle = none → exec (.hrun f) s = .next (s.setGroup s.cur
      { s.me with hrun := f.n.toNat + 1, pc := s.me.pc + 4, stall := none })) ∧
    (s.me.bundle ≠ none → exec (.hrun f) s = .next (s.preciseTrap s.cur { trap := .illegalOp }))) ∧
  (∀ (f : FmtHsig) (s : State), (s.me.bundle ≠ none → exec (.hsig f) s = .next (s.preciseTrap s.cur { trap := .illegalOp })) ∧
    (s.me.bundle = none → f.s.toNat = s.me.sig.toNat % 65536 → exec (.hsig f) s = .next (s.setGroup s.cur { s.me with pc := s.me.pc + 4, stall := none })) ∧
    (s.me.bundle = none → f.s.toNat ≠ s.me.sig.toNat % 65536 → exec (.hsig f) s = .next (s.preciseTrap s.cur { trap := .silentError }))) ∧
  (∀ (f : FmtHimm) (s : State),
    let b := s.me.bundle.getD ⟨s.me.pc, none, none, none⟩
    let on := fun b' => exec (.himm f) s = .next (s.setGroup s.cur { s.me with bundle := some b', pc := s.me.pc + 4, stall := none })
    (b.himm = none → b.himmHi = none → f.h = 1 → on { b with himmHi := some f.v }) ∧
    (b.himm = none → b.himmHi = none → f.h = 0 → on { b with himm := some (f.v.signExtend 32) }) ∧
    (∀ hi, b.himm = none → b.himmHi = some hi → f.h = 0 →
      on { b with himmHi := none, himm := some (BitVec.ofNat 32 (hi.toNat * 65536 + f.v.toNat)) }) ∧
    (b.himm ≠ none ∨ b.himmHi ≠ none ∧ f.h = 1 → exec (.himm f) s = .next (s.preciseTrap s.cur { trap := .illegalOp }))) ∧
  ∀ (f : FmtHmod) (s : State),
    let b := s.me.bundle.getD ⟨s.me.pc, none, none, none⟩
    let ok := f.c.toNat < 6 ∧ f.k ≠ 3 ∧ (f.e = 1 ∨ f.r = 0) ∧ (f.s = 1 ∨ f.c = 0) ∧ (f.g = 1 ∨ f.k = 0)
    (ok → b.hmod = none → b.himmHi = none → exec (.hmod f) s = .next (s.setGroup s.cur
      { s.me with bundle := some { b with hmod := some f }, pc := s.me.pc + 4, stall := none })) ∧
    (¬ ok ∨ b.hmod ≠ none ∨ b.himmHi ≠ none → exec (.hmod f) s = .next (s.preciseTrap s.cur { trap := .illegalOp }))

namespace Sys2Proof.Claims

open Sys2Proof.Machine

/-- The child of `y` that holds its lanes from `lo` on, `n` of them (R18, R19). -/
structure ChildOf (y c : Group) (lo n : Nat) : Prop where
  vectors : ∀ r l, l < n → c.readV r l = y.readV r (lo + l)
  masks : ∀ k l, k ≠ 0 → l < n → (c.mask k).getLsbD l = (y.mask k).getLsbD (lo + l)
  flags : ∀ l, l < n → c.flag l = y.flag (lo + l)
  stack : c.mstk.length = y.mstk.length ∧ ∀ (k : Nat) (e : MaskEntry), y.mstk[k]? = some e → ∃ e', c.mstk[k]? = some e' ∧
    e'.resume = e.resume ∧ e'.recon = e.recon ∧ ∀ l, l < n → e'.mask.getLsbD l = e.mask.getLsbD (lo + l)
  rest : c = { y.dropLatches with base := y.base + lo, width := n, v := c.v, m := c.m, flags := c.flags, mstk := c.mstk
                                  hlr := [], hrun := 0, interval := y.interval + 1, readySince := c.readySince }

/-- The status of a GSPLIT into width `n`, by the order of the table of R23. -/
def splitStatus (s : State) (x : Group) (n : Nat) : Nat :=
  if x.holder ≠ none then 13 else if x.width ≤ n then 9 else if x.region ≠ none then 6
  else if s.futurePending x = true ∨ x.batchOpen = true ∨ x.batches ≠ [] then 7 else 0

/-- The groups that cover lanes [b, b + n) of workgroup `k`, an exited one among them (R20). -/
def partners (s : State) (k b n : Nat) : List Group :=
  (s.groups.filter (fun p => p.2.wg = k ∧ p.2.status ≠ .terminated ∧ p.2.base < b + n ∧ b < p.2.base + p.2.width)).map (·.2)

/-- All of a list of groups are alike in something. -/
def Alike {α : Type} (f : Group → α) (ps : List Group) : Prop := ∀ x ∈ ps, ∀ y ∈ ps, f x = f y

/-- The status that a rendezvous on lanes [b, b + n) of workgroup `k` has at issue (R20, R21, R23), `two` for a GCOMPACT, which has
two partners: ALIGN, EXITED, COMPACTED, or none, which is 0. -/
def earlyStatus (s : State) (k b n : Nat) (two : Bool) : Nat :=
  let ps := partners s k b n
  if ¬ ((ps.length = 2 ∨ ps.length = 4 ∧ two = false) ∧ (∀ p ∈ ps, p.width * ps.length = n) ∧ b + n ≤ (s.wg k).lanes) then 1
  else if ∃ p ∈ ps, p.status = .exited then 2
  else if ∃ p ∈ ps, p.holder ≠ none ∨ p.parked ≠ none then 13
  else 0

open Classical in
/-- The statuses that GFUSE and GCOMPACT share once every partner has arrived, in the order of the table of R23; `rest` comes after
them. -/
noncomputable def sharedStatus (s : State) (ps : List Group) (rest : Nat) : Nat :=
  if ¬ Alike (·.pc) ps then 3
  else if ¬ (Alike (·.rdDepth) ps ∧ Alike (·.rdPar) ps) then 4
  else if ¬ Alike (·.rstk) ps then 5
  else if ∃ p ∈ ps, p.region ≠ none then 6
  else if ∃ p ∈ ps, s.futurePending p = true ∨ p.batchOpen = true ∨ p.batches ≠ [] then 7
  else rest

open Classical in
/-- The status of a GFUSE on lanes [b, b + n) of core `c` whose partners have all arrived (R23, R24). -/
noncomputable def fuseStatus (s : State) (ps : List Group) (c n b : Nat) : Nat :=
  sharedStatus s ps
    (if ∃ q, q < 4 ∧ (s.core c).fenced.getLsbD q = true ∧ (n = 128 ∨ n = 64 ∧ q / 2 = b / 64 % 2) then 8
     else if ∃ p ∈ ps, p.mstk ≠ [] then 10
     else if ¬ Alike (·.stage) ps then 12
     else 0)

open Classical in
/-- The status of a GCOMPACT of groups `a` and `b` that have both arrived (R21, R23). -/
noncomputable def compactStatus (s : State) (a b : Group) : Nat :=
  sharedStatus s [a, b]
    (if ¬ (∃ e r e' r', a.mstk = e :: r ∧ b.mstk = e' :: r' ∧ r.length = r'.length ∧ e.recon = e'.recon) then 10
     else if a.width < countOf a.curMask + countOf b.curMask then 11
     else if a.stage ≠ b.stage then 12
     else 0)

/-- Group `g` waits in a GFUSE under another target than `n`, on lanes of [b, b + n) of workgroup `k` (R20). -/
def Clashes (s : State) (k b n g : Nat) : Prop :=
  let x := s.group g
  x.wg = k ∧ x.status = .live ∧ ∃ u d w e r, x.wait = some ⟨.fuse u d, w, e, r⟩ ∧ u ≠ n ∧
    x.base / u * u < b + n ∧ b < x.base / u * u + u

/-- A group comes to wait in a rendezvous: it is `z`, and one entry of its core's pool that was free is held for its status
(R62, R173). -/
def Joins (i : Instr) (s : State) (z : Group) : Prop :=
  ∃ id, id ∉ s.usedEntries s.myCore ∧ Stays i s (s.addPend ⟨.status, s.cur, s.me.wg, s.myCore, [], [id]⟩) z

/-- The results in flight are those of `s` but for the entries held for the status of the groups `gs`. -/
def HoldsDropped (s t : State) (gs : List Nat) : Prop :=
  ∀ p, p ∈ t.pend ↔ p ∈ s.pend ∧ ¬ (p.2.kind = .status ∧ p.2.g ∈ gs)

/-- Groups `x` and `y` have become `x'` and `y'` by an exchange of lanes, `moves` pairing a lane of `y` with a lane of `x`: the
vector registers, m1 to m7 and the flags of moved lanes are the other group's, and those of the other lanes are as they were
(R21). -/
def Exchanged (x y x' y' : Group) (moves : List (Nat × Nat)) : Prop :=
  let as := fun (z' : Group) (l' : Nat) (z : Group) (l : Nat) =>
    (∀ r, z'.readV r l' = z.readV r l) ∧ z'.flag l' = z.flag l ∧
      ∀ k, 1 ≤ k → k ≤ 7 → (z'.mask k).getLsbD l' = (z.mask k).getLsbD l
  (∀ m ∈ moves, as x' m.2 y m.1 ∧ as y' m.1 x m.2) ∧
    ∀ l, l < 128 → ((∀ m ∈ moves, m.2 ≠ l) → as x' l x l) ∧ ((∀ m ∈ moves, m.1 ≠ l) → as y' l y l)

/-- The top mask of `y'` is that of `y` but in the lanes that `moves` names first, which have the bit of `m` in the lane named second:
what a group that was parked takes back (R171). -/
def TopReturned (y y' : Group) (m : Mask) (moves : List (Nat × Nat)) : Prop :=
  (y.mstk = [] → y'.mstk = []) ∧ ∀ e rest, y.mstk = e :: rest → ∃ e', y'.mstk = e' :: rest ∧ e' = { e with mask := e'.mask } ∧
    (∀ p ∈ moves, e'.mask.getLsbD p.1 = m.getLsbD p.2) ∧
    ∀ l, l < 128 → (∀ p ∈ moves, p.1 ≠ l) → e'.mask.getLsbD l = e.mask.getLsbD l

/-- The last stage of a GFUSE: all partners wait for it, and the groups `ids` are they, in the order of their lanes. -/
structure Gathered (s : State) (f : FmtWd) (ids : List Nat) : Prop where
  two : 2 ≤ ids.length
  mine : s.cur ∈ ids
  once : ids.Nodup
  there : ∀ g ∈ ids, (Fmap.find s.groups g).isSome = true
  live : ∀ g ∈ ids, (s.group g).status = .live ∧ (s.group g).wg = s.me.wg ∧ (s.group g).width = s.me.width
  bases : ∀ j g, ids[j]? = some g →
    (s.group g).base = s.me.base / widthOf f.w * widthOf f.w + j * s.me.width
  shape : ∀ g ∈ ids, Fmap.risingFrom 0 (s.group g).v = true ∧ (∀ p ∈ (s.group g).v, p.1 % 16 < s.me.width / 8) ∧
    ∀ p ∈ (s.group g).flags, p.1 < s.me.width
  width : 0 < s.me.width ∧ s.me.width % 8 = 0 ∧ s.me.width * ids.length = widthOf f.w
  waiting : ∀ g ∈ ids, g ≠ s.cur → ∃ d w e, (s.group g).wait = some ⟨.fuse (widthOf f.w) d, w, e, []⟩
  only : ∀ p ∈ s.groups, p.2.wg = s.me.wg → p.2.status ≠ .terminated → p.1 ∉ ids →
    p.2.base + p.2.width ≤ s.me.base / widthOf f.w * widthOf f.w ∨
      s.me.base / widthOf f.w * widthOf f.w + widthOf f.w ≤ p.2.base

/-- What a GFUSE of groups `ids` makes of the package in `s`, `lo` being the lowest of them (R18, R62, R120): what was in flight of any
of them is the fused group's, what they held for their status is given back, and the group counts once in its core's reader
counter. -/
def fusedWorld (s : State) (ids : List Nat) (lo : Nat) : State :=
  let to_ := fun (g : Nat) => if g ∈ ids then lo else g
  { (if (s.group lo).rdDepth = 0 then s else s.modCnt s.myCore (s.group lo).rdPar (· - (ids.length - 1))) with
      pend := Fmap.mapVals (fun _ (p : Pend) => { p with g := to_ p.g })
        (s.pend.filter (fun p => ¬ (p.2.kind = .status ∧ p.2.g ∈ ids)))
      stores := Fmap.mapVals (fun _ (p : StoreOp) => { p with g := to_ p.g }) s.stores
      engs := Fmap.mapVals (fun _ (p : EngOp) => { p with g := to_ p.g }) s.engs
      mops := Fmap.mapVals (fun _ (p : MOp) => { p with g := to_ p.g }) s.mops
      colls := s.colls.map (fun c => { c with here := c.here.map (fun l => { l with g := to_ l.g }) })
      shadow := Fmap.mapVals (fun _ (p : Shadow) => { p with g := to_ p.g }) s.shadow
      dies := Fmap.mapVals (fun _ (d : Die) => { d with walkQ := d.walkQ.map (fun q => { q with g := to_ q.g }) }) s.dies
      cur := lo }

/-- The group `y` that a GFUSE makes of groups `ids`, of width `n` each; `x` is the lowest of them, and `d` the destination (R18, R23, R66,
R127, R173): each lane with its registers, masks and flags; the lowest group's scalars, return stack and counts of readers; and the
pending traps of them all. `w` and `e` are the word and the execute mask that update the signature. -/
structure FusedGroup (s : State) (ids : List Nat) (x y : Group) (n : Nat) (d : BitVec 6) (w : Nat) (e : Mask) : Prop where
  status : y.readS d.toNat = 0
  scalars : ∀ k, k ≠ d.toNat → Fmap.find y.s k = Fmap.find x.s k
  lanes : ∀ (j g : Nat), ids[j]? = some g → ∀ l, l < n →
    (∀ r, y.readV r (j * n + l) = (s.group g).readV r l) ∧ y.flag (j * n + l) = (s.group g).flag l ∧
      ∀ k, 1 ≤ k → k ≤ 7 → (y.mask k).getLsbD (j * n + l) = ((s.group g).mask k).getLsbD l
  handler : y.handler = true ↔ ∃ g ∈ ids, (s.group g).handler = true
  traps : ∀ t, t ∈ y.pendTraps ↔ ∃ g ∈ ids, t ∈ (s.group g).pendTraps
  interval : ∀ g ∈ ids, (s.group g).interval < y.interval
  loads : (∀ g ∈ ids, (s.group g).lastLoad ≤ y.lastLoad) ∧ ∃ g ∈ ids, (s.group g).lastLoad = y.lastLoad
  knows : ∀ a, (∀ g ∈ ids, Fmap.get 0 (s.group g).past a ≤ Fmap.get 0 y.past a) ∧
    ∃ g ∈ ids, Fmap.get 0 (s.group g).past a = Fmap.get 0 y.past a
  latches : ∀ l ∈ y.sk ++ y.vk, l.valid = false
  rest : y = { x with width := n * ids.length, pc := nextPc x.pc, wait := none, stall := none, bundle := none, hlr := [], hrun := 0
                      sig := sigStep x.sig w e, s := y.s, v := y.v, m := y.m, flags := y.flags, sk := y.sk, vk := y.vk
                      handler := y.handler, pendTraps := y.pendTraps, interval := y.interval, lastLoad := y.lastLoad, past := y.past }

end Sys2Proof.Claims

open Sys2Proof Sys2Proof.Machine Sys2Proof.Claims

/-- R18, R19, R23, R173: GSPLIT. Since when each child is ready, child 0 as the group was and the others from the next clk, is
log 97. -/
def Obligations.Split : Prop :=
  ∀ (f : FmtWd) (s : State), Ready (.gsplit f) s → HasRoom (.gsplit f) s 0 1 →
    let n := 8 * 2 ^ f.w.toNat
    let k := s.me.width / n
    let code := splitStatus s s.me n
    let z := (s.reader (.gsplit f)).dropLatches
    (code ≠ 0 → ∃ t, Does (.gsplit f) s s z (nextPc s.me.pc) true { s := [f.d.toNat] } t ∧
      (t.group s.cur).readS f.d.toNat = BitVec.ofNat 32 code) ∧
    (code = 0 → s.me.width ≤ 128 → s.cur < s.nextId → s.storesOut s.cur = false → (∀ p ∈ s.groups, p.2.rendezvous = none) →
      ∃ t y, exec (.gsplit f) s = .next t ∧
        t = { (if s.me.rdDepth = 0 then s else s.modCnt s.myCore s.me.rdPar (· + (k - 1))) with
                groups := t.groups, nextId := s.nextId + (k - 1) } ∧
        Ran (.gsplit f) (s.reader (.gsplit f)) z y (nextPc s.me.pc) true { s := [f.d.toNat] } ∧ y.readS f.d.toNat = 0 ∧
        (∀ j, j < k → ChildOf y (t.group (if j = 0 then s.cur else s.nextId + j - 1)) (j * n) n) ∧
        (t.group s.cur).readySince = s.me.readySince ∧
        (∀ j, j + 1 < k → (t.group (s.nextId + j)).readySince = (s.die s.myDie).ck.toNat + 1) ∧
        ∀ h, h ≠ s.cur → (h < s.nextId ∨ s.nextId + k ≤ h + 1) → t.group h = s.group h)

/-- R18, R20, R23, R62, R173: GFUSE. Where it succeeds, the lowest group holds the lanes of all, with their registers, masks and
flags; nothing changes outside the partners but to whom what they have in flight belongs. That the early codes come before the
comparison of targets and widths, and that the entry of the status is taken at issue, is log 25; which word names the status of each
is log 26. -/
def Obligations.Fuse : Prop :=
  (∀ (f : FmtWd) (s : State), Ready (.gfuse f) s → HasRoom (.gfuse f) s 0 1 →
    let n := widthOf f.w
    let b := s.me.base / n * n
    let early := earlyStatus s s.me.wg b n false
    let covers := fun (x : Group) => x.wg = s.me.wg ∧ x.status ≠ .terminated ∧ x.base < b + n ∧ b < x.base + x.width
    (early ≠ 0 → Listed s → ∃ t, exec (.gfuse f) s = .next t ∧ t = { s with groups := t.groups, pend := t.pend } ∧
      HoldsDropped s t [s.cur] ∧ (∀ h, h ≠ s.cur → t.group h = s.group h) ∧ Leaves s.me (t.group s.cur) f.d.toNat early) ∧
    (early = 0 → (∃ g, Clashes s s.me.wg b n g) → (∀ g, Clashes s s.me.wg b n g → g ≠ s.cur) → Listed s →
      ∃ t, exec (.gfuse f) s = .next t ∧ t = { s with groups := t.groups, pend := t.pend } ∧
        (∀ h, h ≠ s.cur → ¬ Clashes s s.me.wg b n h → t.group h = s.group h) ∧ Leaves s.me (t.group s.cur) f.d.toNat 9 ∧
        ∀ g u d w e, Clashes s s.me.wg b n g → (s.group g).wait = some ⟨.fuse u d, w, e, []⟩ →
          Leaves (s.group g) (t.group g) d.toNat 9) ∧
    (early = 0 → (∀ g, ¬ Clashes s s.me.wg b n g) →
      (∃ p ∈ s.groups, covers p.2 ∧ p.1 ≠ s.cur ∧ ∀ d w e r, p.2.wait ≠ some ⟨.fuse n d, w, e, r⟩) →
      Listed s →
      Joins (.gfuse f) s
        { s.reader (.gfuse f) with wait := some (waitFor (.gfuse f) s (.fuse n f.d)), stall := none })) ∧
  ∀ (f : FmtWd) (s : State) (ids : List Nat), Ready (.gfuse f) s → HasRoom (.gfuse f) s 0 1 → Gathered s f ids →
    earlyStatus s s.me.wg (s.me.base / widthOf f.w * widthOf f.w) (widthOf f.w) false = 0 →
    Listed s → (∀ p ∈ s.groups, p.1 ∉ ids → p.2.rendezvous = none) →
    let lo := ids.headD 0
    let x := s.group lo
    let code := fuseStatus s (ids.map s.group) s.myCore (widthOf f.w) (s.me.base / widthOf f.w * widthOf f.w)
    ∃ t, exec (.gfuse f) s = .next t ∧
      (code ≠ 0 → t = { s with groups := t.groups, pend := t.pend } ∧ HoldsDropped s t ids ∧ ∀ h, h ∉ ids → t.group h = s.group h) ∧
      (code ≠ 0 → ∀ g ∈ ids, ∃ d, (if g = s.cur then d = f.d else ∃ w e, (s.group g).wait = some ⟨.fuse (widthOf f.w) d, w, e, []⟩) ∧
        Leaves (s.group g) (t.group g) d.toNat code) ∧
      (code = 0 →
        t = { fusedWorld s ids lo with groups := t.groups } ∧ (∀ h, h ∉ ids → t.group h = s.group h) ∧
        (∀ g ∈ ids, g ≠ lo → Fmap.find t.groups g = none) ∧
        ∃ w e, (if lo = s.cur then w = (Instr.info (.gfuse f)).word ∧ e = s.me.execMask (Instr.info (.gfuse f)).pred
            else ∃ d, (s.group lo).wait = some ⟨.fuse (widthOf f.w) d, w, e, []⟩) ∧
          FusedGroup s ids x (t.group lo) s.me.width f.d w e)

/-- R21, R23, R62, R173: GCOMPACT until both groups have arrived, and where a check fails. The order of the early codes, and that
the entry of the status is taken at issue, is log 25. -/
def Obligations.CompactArrival : Prop :=
  ∀ (f : FmtWd0) (s : State), Ready (.gcompact f) s → HasRoom (.gcompact f) s 0 1 →
    let n := 2 * s.me.width
    let b := s.me.base / n * n
    let early := earlyStatus s s.me.wg b n true
    let z := { s.reader (.gcompact f) with wait := some (waitFor (.gcompact f) s (.compact f.d)), stall := none }
    (early ≠ 0 → Listed s → ∃ t, exec (.gcompact f) s = .next t ∧ t = { s with groups := t.groups, pend := t.pend } ∧
      HoldsDropped s t [s.cur] ∧ (∀ h, h ≠ s.cur → t.group h = s.group h) ∧ Leaves s.me (t.group s.cur) f.d.toNat early) ∧
    (early = 0 → (∀ y, s.sibling s.cur = some y → (s.group y).inCompact = false) → Listed s →
      Joins (.gcompact f) s z) ∧
    ∀ y d w e, early = 0 → s.sibling s.cur = some y → (s.group y).status = .live →
      (s.group y).wait = some ⟨.compact d, w, e, []⟩ → Listed s →
      let lower := if s.me.base = b then s.cur else y
      let upper := if s.me.base = b then y else s.cur
      let code := compactStatus s (s.group lower) (s.group upper)
      (code = 0 → Joins (.gcompact f) s z) ∧
      (code ≠ 0 → ∃ t, exec (.gcompact f) s = .next t ∧ t = { s with groups := t.groups, pend := t.pend } ∧
        HoldsDropped s t [s.cur, y] ∧ (∀ h, h ≠ s.cur → h ≠ y → t.group h = s.group h) ∧
        Leaves s.me (t.group s.cur) f.d.toNat code ∧ Leaves (s.group y) (t.group y) d.toNat code)

/-- R21, R62, R171: the exchange that completes a GCOMPACT, and the return of the lanes at the VELSE or VEND that ends it, which
is log 21: the moved lanes go back with their bits of the holder's top mask, the partner goes on at that instruction, and the holder
executes it with the bits that are left. No lane but the moved ones changes, no scalar and no return stack, nor any group but the two
and those that the exchange turns away from a rendezvous on their lanes. -/
def Obligations.CompactedLanes : Prop :=
  (∀ (a b : Nat) (s : State) (da db : BitVec 6) (w w' : Nat) (e e' : Mask), s.sibling a = some b → (s.group a).status = .live →
    (s.group b).status = .live → (s.group a).wait = some ⟨.compact da, w, e, []⟩ → (s.group b).wait = some ⟨.compact db, w', e', []⟩ →
    (s.group a).base < (s.group b).base → (s.wgOf a).state = .resident → compactStatus s (s.group a) (s.group b) = 0 →
    s.vectorLoadsOut a = false → s.vectorLoadsOut b = false → s.matrixBusy a = false → s.matrixBusy b = false →
    (s.group a).width ≤ 128 → a ≠ b → Fmap.risingFrom 0 s.groups = true →
    let moves := (lanesOf (s.group b).curMask).zip
      ((List.range (s.group a).width).filter (fun l => !(s.group a).curMask.getLsbD l))
    s.room (s.group a).wg (s.exchangeNeed a b moves) 0 = true →
    ∃ t, exec (.compactionExchange a) s = .next t ∧ t = { s with groups := t.groups, pend := t.pend } ∧
      (∀ p ∈ t.pend, p ∈ s.pend) ∧ (∀ p ∈ s.pend, p.2.kind ≠ .status → p ∈ t.pend) ∧
      (t.group a).holder = some ⟨(s.group a).mstk.length, b, moves⟩ ∧ (t.group b).parked = some a ∧
      (t.group a).wait = none ∧ (t.group b).wait = none ∧ (t.group a).readS da.toNat = 0 ∧ (t.group b).readS db.toNat = 0 ∧
      (t.group a).curMask = (s.group a).curMask ||| maskOf (moves.map (·.2)) ∧ (t.group b).mstk = (s.group b).mstk ∧
      (∀ p ∈ [(a, da), (b, db)], (t.group p.1).pc = nextPc (s.group p.1).pc ∧ (t.group p.1).rstk = (s.group p.1).rstk ∧
        (∀ n, n ≠ p.2.toNat → Fmap.find (t.group p.1).s n = Fmap.find (s.group p.1).s n) ∧
        ∀ l ∈ (t.group p.1).sk ++ (t.group p.1).vk, l.valid = false) ∧
      Exchanged (s.group a) (s.group b) (t.group a) (t.group b) moves ∧
      ∀ h, h ≠ a → h ≠ b →
        (∀ b' n d, (s.group h).rendezvous = some (b', n, d) → (s.group h).wg = (s.group a).wg → (s.group h).status = .live →
          b' + n ≤ (s.group a).base ∨ (s.group a).base + 2 * (s.group a).width ≤ b') →
        t.group h = s.group h) ∧
  ∀ i ∈ [Instr.velse, Instr.vend], ∀ (s : State) (h : Compaction) (top : MaskEntry) (rest : List MaskEntry), Ready i s →
    s.me.mstk = top :: rest → (if i = .velse then top.resume ≠ 0 ∧ top.resume = s.me.pc else top.recon = s.me.pc) → ¬ frozen s.me →
    s.me.holder = some h → h.level = s.me.mstk.length → h.partner ≠ s.cur → s.resultsOut s.cur = false →
    (h.moves.map (·.1)).Nodup → (h.moves.map (·.2)).Nodup → (∀ m ∈ h.moves, m.1 < 128 ∧ m.2 < 128) →
    s.room s.me.wg (s.exchangeNeed s.cur h.partner h.moves) 0 = true →
    let x := s.me
    let y := s.group h.partner
    let kept := top.mask &&& ~~~ maskOf (h.moves.map (·.2))
    let other := below x &&& ~~~ kept
    let repeats := top.resume.getLsbD 0 = true ∧ kept ≠ 0
    let loads := max x.lastLoad y.lastLoad
    ∃ t, exec i s = .next t ∧ t = { s with groups := t.groups } ∧ (∀ k, k ≠ s.cur → k ≠ h.partner → t.group k = s.group k) ∧
      Exchanged x y (t.group s.cur) (t.group h.partner) h.moves ∧ TopReturned y (t.group h.partner) top.mask h.moves ∧
      (let z := t.group s.cur
       z = { x.dropLatches with
               holder := none, interval := x.interval + 1, lastLoad := loads, past := z.past, v := z.v, m := z.m, flags := z.flags
               mstk := if i = .velse then { top with mask := other, resume := 0 } :: rest
                 else if repeats then { top with mask := kept } :: rest else rest
               pc := if i = .velse then (if other = 0 then top.recon else nextPc x.pc)
                 else if repeats then top.resume - 1 else nextPc x.pc
               sig := sigMask (sigStep x.sig (Instr.info i).word (kept &&& fullMask x.width)) z.curMask
               hlr := [], bundle := none, stall := none }) ∧
      let z := t.group h.partner
      z = { y.dropLatches with
              parked := none, pc := x.trapPc, interval := y.interval + 1, lastLoad := loads, past := z.past, v := z.v, m := z.m
              flags := z.flags, mstk := z.mstk, hlr := [], hrun := 0 }

namespace Sys2Proof.Claims

open Sys2Proof.Machine

/-- The accesses of the executing lanes of VLD and VST (R219). -/
def vectorAccesses (x : Group) (m : Mask) (a i : BitVec 6) (strided : Bool) : List Access :=
  (lanesOf m).map (fun l => ⟨some l, laneAddr x a i strided l⟩)

/-- The location that an access of this workgroup reaches. -/
def placeOf (s : State) (a : Acc) (va : Dword) : Option Nat := (s.target s.me.wg va a).loc?

/-- A loaded value of 2^z bytes, sign-extended or zero-extended (R221, R222). -/
def loaded (n : Nat) (sx : Bool) (x : Nat) : Dword :=
  if sx then (if n = 1 then (BitVec.ofNat 8 x).signExtend 64 else (BitVec.ofNat 16 x).signExtend 64) else BitVec.ofNat 64 x

/-- Byte `k` of what a load of `n` bytes of the issuing group meets (R101): of the line of its core's L1 where the policy looks the
cache up and the line is held, and of memory otherwise. A load whose address depends on load `dep` takes no line filled before
that load (R113), and none filled before a load of its own group that read one of the bytes past the cache (R112). Lines of 128 bytes
are log 73. -/
def suppliedByte (s : State) (dep n : Nat) (t : Target) (k : Nat) : Byte :=
  match t with
  | .memory pa cp _ _ =>
    match (if paKind pa = 0 ∧ s.me.policy.getD cp ≠ 2 then
        (Fmap.find (s.core s.myCore).l1 (pa / 128)).filter
          (fun l => dep ≤ l.filled ∧ ∀ j, j < n → Fmap.get 0 s.me.past (pa + j) ≤ l.filled) else none) with
    | some l => l.data.getD (pa % 128 + k) 0
    | none => s.byteAt (pa + k)
  | .spad loc _ => s.byteAt (loc + k)
  | .slot j => s.byteAt (slotLoc s.myDie j + k)
  | _ => 0

/-- The number of `n` bytes that a load returns (R3, R101). -/
def supplied (s : State) (dep : Nat) (t : Target) (n : Nat) : Nat :=
  ((List.range n).map (fun k => (suppliedByte s dep n t k).toNat * 256 ^ k)).sum

/-- Byte `a` is one that loads of `n` bytes at the addresses `vas` read past the cache: of DRAM, under policy BYPASS (R101). -/
def PastCache (s : State) (vas : List Dword) (n a : Nat) : Prop :=
  ∃ va ∈ vas, ∃ pa cp mir res, s.target s.me.wg va .load = .memory pa cp mir res ∧ paKind pa = 0 ∧ s.me.policy.getD cp = 2 ∧
    pa ≤ a ∧ a < pa + n

open Classical in
/-- What the group of loads knows of byte `a` of those that loads read past the cache: the number of this load where it read it so, and
what `x` knew where it did not (R112). -/
noncomputable def passed (s : State) (x : Group) (vas : List Dword) (n a : Nat) : Nat :=
  if PastCache s vas n a then s.nextId + 1 else Fmap.get 0 x.past a

/-- Group `y` knows of every byte that these loads read past the cache, and of the others what `x` knew (R112); after an acquire at
workgroup scope, also what the groups of its workgroup know (R114, R116). -/
def Passes (s : State) (x y : Group) (vas : List Dword) (n : Nat) (acquires : Prop) : Prop :=
  (¬ acquires → ∀ a, Fmap.get 0 y.past a = passed s x vas n a) ∧ (acquires → Learns s s.cur (passed s x vas n) y)

/-- Where no race is logged, loads of the issuing group leave the package in `t` as in `v`, but for its groups, for the lines in the
L1 of its core, and for the free value that a full L1 draws to choose the line that goes (log 7): no byte of memory, no tag and no
shadow record changes among the rest. -/
def OnlyL1 (s v t : State) : Prop :=
  (s.ctx s.myCtx).race ≠ 2 →
    t = { v with groups := t.groups, cores := t.cores, free := t.free } ∧ SameButL1 s t ∧ ∀ c, c ≠ s.myCore → t.core c = s.core c

/-- The load that the value of a scalar name can depend on, and that of a vector register: the last one before the name was
written; of a latch, the group's last (R113, log 102). -/
def fromS (x : Group) (n : Nat) : Nat := if n < 60 then (match Fmap.find x.s n with | some e => e.dep | none => 0) else x.lastLoad
def fromV (x : Group) (n : Nat) : Nat :=
  if n < 60 then ((List.range 16).map (fun q => match Fmap.find x.v (vkey n q) with | some sl => sl.dep | none => 0)).foldl max 0
  else x.lastLoad

/-- The load that the addresses of SLD, and those of VLD, can depend on. -/
def fromPair (x : Group) (a : BitVec 6) : Nat := max (fromS x a.toNat) (fromS x (a.toNat + 1))
def fromLanes (x : Group) (a i : BitVec 6) (strided : Bool) : Nat :=
  max (fromPair x a) (if strided then fromS x i.toNat else fromV x i.toNat)

/-- Byte `k` of a number (R3). -/
def byteOf (x k : Nat) : Byte := BitVec.ofNat 8 (x / 256 ^ k)

/-- The vector atomics and bank operations (R225, R227, R228): with a width field, and of one width. -/
noncomputable def atomicRows : List ((FmtAt → Instr) × AOp × Bool) :=
  [(.vatomAdd, .add, false), (.vatomMinI, .minI, false), (.vatomMaxI, .maxI, false), (.vatomMinN, .minN, false),
   (.vatomMaxN, .maxN, false), (.vatomAnd, .and, false), (.vatomOr, .or, false), (.vatomXor, .xor, false),
   (.vatomXchg, .xchg, false), (.vatomCas, .cas, false), (.bxchg, .xchg, true), (.bcas, .cas, true)]
noncomputable def atomic1Rows : List ((FmtAt1 → Instr) × AOp × Bool × Bool) :=
  [(.vatomAddF32, .fadd, false, false), (.badd, .add, true, false), (.baddF32, .fadd, true, false), (.bminI32, .minI, true, false),
   (.bmaxI32, .maxI, true, false), (.bminN32, .minN, true, false), (.bmaxN32, .maxN, true, false), (.binc, .inc, true, false),
   (.bmaxp, .maxp, true, true), (.bor, .or, true, false), (.band, .and, true, false)]

/-- The scalar atomics (R226). -/
noncomputable def scalarAtomicRows : List ((FmtSat → Instr) × AOp) :=
  [(.satomAdd, .add), (.satomMinI, .minI), (.satomMaxI, .maxI), (.satomMinN, .minN), (.satomMaxN, .maxN), (.satomAnd, .and),
   (.satomOr, .or), (.satomXor, .xor), (.satomXchg, .xchg), (.satomCas, .cas)]

/-- The number that `n` bytes from `loc` on encode, little-endian (R3), in a memory told byte by byte. -/
def numberIn (mem : Nat → Byte) (loc n : Nat) : Nat := ((List.range n).map (fun k => (mem (loc + k)).toNat * 256 ^ k)).sum

/-- Memory has become `mem'` from `mem` by the writing of the number `v` into `n` bytes at `loc`: no other byte changes. -/
def Wrote (mem mem' : Nat → Byte) (loc n v : Nat) : Prop :=
  (∀ k, k < n → mem' (loc + k) = byteOf v k) ∧ ∀ a, a < loc ∨ loc + n ≤ a → mem' a = mem a

/-- The atomics of the lanes of `m` one after another in ascending order (R88, R226): `mem j` is memory before the atomic of the lane
that is number `j` of them, `place` gives each lane's location, and `operands` its operand and its compare value. Each reads the
place as the lower lanes left it and writes the new value there, and nothing else. -/
def OneByOne (op : AOp) (rm : BitVec 2) (n : Nat) (m : Mask) (place : Nat → Option Nat) (operands : Nat → Nat × Nat)
    (mem : Nat → Nat → Byte) : Prop :=
  ∀ (j l loc : Nat), (lanesOf m)[j]? = some l → place l = some loc →
    Wrote (mem j) (mem (j + 1)) loc n (op.apply (8 * n) rm (numberIn (mem j) loc n) (operands l).1 (operands l).2).1

/-- What a vector atomic does (R88, R225 to R228): the lanes' atomics one after another, the old values in D under the execute mask,
in flight until they are written, and the flags in the lanes unless Q is set; D and the flags of the other lanes stay. -/
def AtomicResult (i : Instr) (s : State) (op : AOp) (bank wide : Bool) (d a b : BitVec 6) (q : BitVec 1) (p : BitVec 2) : Prop :=
  let x := s.reader i
  let m := x.execMask p.toNat
  let n := if wide then 8 else 4
  let u : Use := { size := n, align := n, acc := .store, bank := bank, atomic := true, scope := if bank then 3 else x.scope }
  let acc := (lanesOf m).map (fun l => (⟨some l, x.readV2 a.toNat l⟩ : Access))
  let hs := (s.seen i).hits acc .store
  let S := (s.seen i).logRaces u hs
  let mode := if bank then 0 else x.rm
  let operands := vectorOperand x b wide
  let place := fun (l : Nat) => placeOf (s.seen i) .store (x.readV2 a.toNat l)
  let r := S.atomics u op mode (hs.map (fun h => (h, operands (h.lane.getD 0))))
  ((s.ctx s.myCtx).race ≠ 2 → ∀ a, S.byteAt a = s.byteAt a) ∧
  (m = 0 → Becomes i s s x (nextPc x.pc) false) ∧
  (m ≠ 0 → Accessible (s.seen i) u acc →
    Loadable (s.seen i) hs ((s.seen i).poisonedHit hs n) ((if wide then 2 else 1) * (hitQuarters x.width m).length) 0 →
    ∃ t e, Does i s (r.1.addPend e) x (nextPc x.pc) false
        { v := if wide then [d.toNat, d.toNat + 1] else [d.toNat], flags := q = 0 } t ∧
      e.kind = .atomic ∧
      (∃ mem : Nat → Nat → Byte, (∀ a, mem 0 a = S.byteAt a) ∧ (∀ a, t.byteAt a = mem (countOf m) a) ∧
        OneByOne op mode n m place operands mem ∧
        ∀ (j l : Nat), (lanesOf m)[j]? = some l → ∃ loc, place l = some loc ∧
          let old := numberIn (mem j) loc n
          let fl := (op.apply (8 * n) mode old (operands l).1 (operands l).2).2
          (x.hasLane l → (t.group s.cur).readV d.toNat l = BitVec.ofNat 32 old ∧
            (wide = true → (t.group s.cur).readV (d.toNat + 1) l = BitVec.ofNat 32 (old / 4294967296))) ∧
          (t.group s.cur).flag l = if q = 0 then x.flag l ||| fl else x.flag l) ∧
      (∀ l, x.hasLane l → m.getLsbD l = false →
        (t.group s.cur).readV d.toNat l = x.readV d.toNat l ∧
        (wide = true → (t.group s.cur).readV (d.toNat + 1) l = x.readV (d.toNat + 1) l)) ∧
      ∀ l, l < 128 → m.getLsbD l = false → (t.group s.cur).flag l = x.flag l)

/-- The new value of an integer operation on n bits, from the old value, the operand and the compare value (R225, R228). -/
def atomicTable : List (AOp × (Nat → Nat → Nat → Nat → Int)) :=
  [(.add, fun _ o b _ => o + b), (.and, fun n o b _ => (BitVec.ofNat n o &&& BitVec.ofNat n b).toNat),
   (.or, fun n o b _ => (BitVec.ofNat n o ||| BitVec.ofNat n b).toNat),
   (.xor, fun n o b _ => (BitVec.ofNat n o ^^^ BitVec.ofNat n b).toNat),
   (.minI, fun n o b _ => min (BitVec.ofNat n o).toInt (BitVec.ofNat n b).toInt),
   (.maxI, fun n o b _ => max (BitVec.ofNat n o).toInt (BitVec.ofNat n b).toInt),
   (.minN, fun _ o b _ => min o b), (.maxN, fun _ o b _ => max o b), (.xchg, fun _ _ b _ => b),
   (.cas, fun _ o b c => if o = c then b else o), (.inc, fun _ o b _ => if o < b then o + 1 else o)]

/-- The pair in word `x` has a greater key than the pair in word `o` (R228): the greater score, −0 below +0 and every NaN below −∞,
and on equal scores the lower index. -/
def PairAbove (x o : Nat) : Prop :=
  let score := fun (w : Nat) => meaning fp32 (w / 4294967296)
  let less := fun (a b : Number) => b.isNan = false ∧ (a.isNan = true ∨ a.below b = true)
  less (score o) (score x) ∨
    ((score o).isNan = true ∧ (score x).isNan = true ∨ score o = score x) ∧ x % 4294967296 < o % 4294967296

/-- The entries of the queue at `loc` of workgroup `k` lie outside the 16 bytes of its line's fields (R232). -/
def QueueLaid (s : State) (k loc : Nat) : Prop := ∀ e, s.qEntry k loc e + 4 ≤ loc ∨ loc + 16 ≤ s.qEntry k loc e

/-- Address `va` leads to the queue line at `loc` of the issuing group's own window (R103, R232), at any of its bytes (log 100). -/
structure QueueAt (s : State) (va : Dword) (loc : Nat) : Prop where
  window : 0x0F00000000000000 ≤ va.toNat ∧ va.toNat < 0x0F00000000100000
  inside : va.toNat - 0x0F00000000000000 < 128 * s.myWg.lines
  line : loc = spadLoc s.myCore (128 * s.myWg.line0 + (va.toNat - 0x0F00000000000000)) / 128 * 128
  queue : (s.lineAt loc).queue = true

/-- What QPUSH and QPOP of `n` entries trap on (R103, R106, R108, R232, R233): more entries than CAP, an address that leads to no queue
line of the own window, one beyond an allocation, and one of a member that has exited. -/
def QueueStops (i : Instr) (s : State) (va : Dword) (n : Nat) : Prop :=
  let S := s.seen i
  let tgt := S.target s.me.wg va .load
  (∀ loc, QueueAt S va loc → S.qCap loc < n → Traps i s { trap := .queue, addr := va }) ∧
  ((∀ loc, ¬ QueueAt S va loc) →
    (∃ loc w, tgt = .spad loc w) ∨
      (∃ pa cp mir res, tgt = .memory pa cp mir res ∧ ((s.core s.myCore).exchange = true ∨ mir = true ∨ paDie pa = s.myDie)) →
    Traps i s { trap := .queue, addr := va }) ∧
  (∀ j, tgt = .slot j → Traps i s { trap := .rootSlot, addr := va }) ∧
  (tgt = .range → Traps i s { trap := .scratchRange, addr := va }) ∧ (tgt = .exited → Traps i s { trap := .peerExited, addr := va })

/-- The queue after a push of `vals` (R233): TAIL is stepped and the entries from TAIL on hold the values. -/
structure Pushed (s t : State) (k loc : Nat) (vals : List Word) : Prop where
  tail : t.qTail loc = (s.qTail loc + vals.length) % 4294967296
  entries : ∀ j v, vals[j]? = some v → t.natAt (s.qEntry k loc (s.qTail loc + j)) 4 = v.toNat

/-- No byte changes outside `n` bytes at `lo` and the entries that a push of `vals` fills. -/
def OnlyEntries (s t : State) (k loc : Nat) (vals : List Word) (lo n : Nat) : Prop :=
  ∀ a, (a < lo ∨ lo + n ≤ a) →
    (∀ j, j < vals.length → a < s.qEntry k loc (s.qTail loc + j) ∨ s.qEntry k loc (s.qTail loc + j) + 4 ≤ a) → t.byteAt a = s.byteAt a

/-- The wait of group `g` is over: it goes on, with the signature's update and without the registers that last-read bits free, and
nothing else of it changes but its vector registers and its knowledge, which are the claim's to tell (R58, R174, R317). -/
def GoesOn (s t : State) (g n : Nat) : Prop :=
  let x := s.group g
  let y := t.group g
  y = { x with wait := none, pc := nextPc x.pc, stall := none, bundle := none, sig := y.sig, hlr := x.hlr.drop 1
               s := y.s, v := y.v, past := y.past, interval := x.interval + n } ∧
    ∀ w, x.wait = some w → y.sig = sigStep x.sig w.word w.exec ∧ ∀ k, (0, k) ∉ w.frees → Fmap.find y.s k = Fmap.find x.s k

/-- The waiting QPOP of group `g` has popped the first entries of the queue into the lanes of `m` (R233): its wait is over, and
each lane holds its entry as the queue holds it in `t`. It is an acquire at workgroup scope (R114). -/
structure PoppedBy (s t : State) (loc g : Nat) (d : BitVec 6) (m : Mask) : Prop where
  ended : GoesOn s t g 0
  learns : Learns s g (Fmap.get 0 (s.group g).past) (t.group g)
  others : ∀ k, k / 16 ≠ d.toNat → Fmap.find (t.group g).v k = Fmap.find (s.group g).v k
  head : t.qHead loc = (s.qHead loc + countOf m) % 4294967296
  lanes : ∀ (j l : Nat), (lanesOf m)[j]? = some l → (s.group g).hasLane l →
    (t.group g).readV d.toNat l = BitVec.ofNat 32 (t.natAt (s.qEntry (s.group g).wg loc (s.qHead loc + j)) 4)

/-- Group `g`, and no other, waits at the queue for a QPOP, or for a QPUSH. -/
structure OnePop (s : State) (loc g : Nat) (d : BitVec 6) (m : Mask) : Prop where
  waits : ∃ turn w e r, (s.group g).wait = some ⟨.qpop loc turn d m, w, e, r⟩ ∧ (∀ q ∈ r, q.1 = 0) ∧ s.popWaiters loc = [(turn, g)]
  alone : s.pushWaiters loc = []
  other : g ≠ s.cur ∧ (s.group g).wg = s.me.wg
structure OnePush (s : State) (loc g : Nat) (vals : List Word) : Prop where
  waits : ∃ turn w e r, (s.group g).wait = some ⟨.qpush loc turn vals, w, e, r⟩ ∧ s.pushWaiters loc = [(turn, g)]
  alone : s.popWaiters loc = []
  other : g ≠ s.cur ∧ (s.group g).wg = s.me.wg

end Sys2Proof.Claims

open Sys2Proof Sys2Proof.Machine Sys2Proof.Claims

/-- R101, R102, R112, R113, R128, R219 to R223, R312, R313: VLD and SLD. A load that would return poison is an uncorrectable error,
with the virtual address in ADDR of its record (log 30). That a load is performed when it issues, and which lines an L1 still holds, is
log 7; lines of 128 bytes are log 73; what an address is taken to depend on is log 102. -/
def Obligations.Loads : Prop :=
  (∀ (f : FmtVld) (s : State), Ready (.vld f) s →
    let x := s.reader (.vld f)
    let m := x.execMask f.p.toNat
    let n := 2 ^ f.z.toNat
    let u : Use := { size := n, align := n, acc := .load, slotOk := n = 8, scope := x.scope }
    let acc := vectorAccesses x m f.a f.i (f.t = 1)
    let hs := (s.seen (.vld f)).hits acc .load
    let dep := fromLanes x f.a f.i (f.t = 1)
    let regs := if n = 8 then 2 else 1
    let val := fun l =>
      loaded n (f.x = 1) (supplied (s.seen (.vld f)) dep ((s.seen (.vld f)).target x.wg (laneAddr x f.a f.i (f.t = 1) l) .load) n)
    (m = 0 → Becomes (.vld f) s s x (nextPc x.pc) false) ∧
    (m ≠ 0 → Accessible (s.seen (.vld f)) u acc → (s.seen (.vld f)).emptyLine hs = false →
      HasRoom (.vld f) s (regs * (hitQuarters x.width m).length) 0 →
      ∀ h, (s.seen (.vld f)).poisonedLoad dep hs n = some h →
        exec (.vld f) s = .next ((s.seen (.vld f)).uncorrectable s.cur 1 h.va.toNat)) ∧
    (m ≠ 0 → Accessible (s.seen (.vld f)) u acc →
      Loadable (s.seen (.vld f)) hs ((s.seen (.vld f)).poisonedLoad dep hs n) (regs * (hitQuarters x.width m).length) 0 →
      ∃ t e, Does (.vld f) s
          (((s.seen (.vld f)).addPend e).afterLoads u (f.r = 1) (fun pa => (s.seen (.vld f)).sinceLoad dep pa n) hs)
          { x with lastLoad := s.nextId + 1, past := (t.group s.cur).past } (nextPc x.pc) false
          { v := if n = 8 then [f.d.toNat, f.d.toNat + 1] else [f.d.toNat] } t ∧
        Passes (s.seen (.vld f)) x (t.group s.cur) (acc.map (·.va)) n (f.r = 1 ∧ x.scope = 1) ∧ OnlyL1 s (s.addPend e) t ∧
        e.kind = .load ∧ (f.r = 1 → 2 ≤ x.scope → (t.core s.myCore).l1 = []) ∧
        (∀ q ∈ hitQuarters x.width m, ∃ sl, Fmap.find (t.group s.cur).v (vkey f.d.toNat q) = some sl ∧ sl.dep = s.nextId + 1) ∧
        ∀ l, x.hasLane l →
          (t.group s.cur).readV f.d.toNat l = (if m.getLsbD l then loOf (val l) else x.readV f.d.toNat l) ∧
          (n = 8 → (t.group s.cur).readV (f.d.toNat + 1) l = if m.getLsbD l then hiOf (val l) else x.readV (f.d.toNat + 1) l))) ∧
  ∀ (f : FmtSld) (s : State), Ready (.sld f) s →
    let x := s.reader (.sld f)
    let n := 2 ^ f.z.toNat
    let va := x.readS2 f.a.toNat + (match x.himm with | some v => v.signExtend 64 | none => f.o.signExtend 64)
    let u : Use := { size := n, align := n, acc := .load, slotOk := n = 8, scope := x.scope }
    let hs := (s.seen (.sld f)).hits [⟨none, va⟩] .load
    let dep := fromPair x f.a
    let val := loaded n (f.x = 1) (supplied (s.seen (.sld f)) dep ((s.seen (.sld f)).target x.wg va .load) n)
    Accessible (s.seen (.sld f)) u [⟨none, va⟩] →
    ((s.seen (.sld f)).emptyLine hs = false → HasRoom (.sld f) s 0 (if n = 8 then 2 else 1) →
      ∀ h, (s.seen (.sld f)).poisonedLoad dep hs n = some h →
        exec (.sld f) s = .next ((s.seen (.sld f)).uncorrectable s.cur 1 va.toNat)) ∧
    (Loadable (s.seen (.sld f)) hs ((s.seen (.sld f)).poisonedLoad dep hs n) 0 (if n = 8 then 2 else 1) →
      ∃ t e, Does (.sld f) s
          (((s.seen (.sld f)).addPend e).afterLoads u (f.r = 1) (fun pa => (s.seen (.sld f)).sinceLoad dep pa n) hs)
          { x with lastLoad := s.nextId + 1, past := (t.group s.cur).past } (nextPc x.pc) false
          { s := if n = 8 then [f.d.toNat, f.d.toNat + 1] else [f.d.toNat] } t ∧
        Passes (s.seen (.sld f)) x (t.group s.cur) [va] n (f.r = 1 ∧ x.scope = 1) ∧ OnlyL1 s (s.addPend e) t ∧
        e.kind = .load ∧ (f.r = 1 → 2 ≤ x.scope → (t.core s.myCore).l1 = []) ∧
        (t.group s.cur).readS f.d.toNat = loOf val ∧ (n = 8 → (t.group s.cur).readS (f.d.toNat + 1) = hiOf val) ∧
        ∃ e', Fmap.find (t.group s.cur).s f.d.toNat = some e' ∧ e'.dep = s.nextId + 1)

/-- R88, R102, R107, R219 to R223: VST and SST. That a store is performed when it issues is log 7; the scope that a release store's
shadow record has is log 29, and that the record carries the interval which the release ends is log 93. -/
def Obligations.Stores : Prop :=
  (∀ (f : FmtVst) (s : State), Ready (.vst f) s →
    let x := s.reader (.vst f)
    let m := x.execMask f.p.toNat
    let n := 2 ^ f.z.toNat
    let u : Use := { size := n, align := n, acc := .store, scope := if f.r = 1 then x.scope else 0 }
    let acc := vectorAccesses x m f.a f.i (f.t = 1)
    let hs := (s.seen (.vst f)).hits acc .store
    let value := fun l => if n = 8 then (x.readV2 f.d.toNat l).toNat else (x.srcV f.d.toNat l).toNat
    (m = 0 → Becomes (.vst f) s s x (nextPc x.pc) false) ∧
    (m ≠ 0 → Accessible (s.seen (.vst f)) u acc → (f.r = 1 → 2 ≤ x.scope → s.storesOut s.cur = false) →
      Becomes (.vst f) s
        ((((s.seen (.vst f)).logRaces u hs).storeAll u (hs.map (fun h => (h, leBytes n (value (h.lane.getD 0)))))).addStores hs)
        (if f.r = 1 then { x with interval := x.interval + 1 } else x) (nextPc x.pc) false) ∧
    (m ≠ 0 → Accessible (s.seen (.vst f)) u acc → f.r = 1 → 2 ≤ x.scope → s.storesOut s.cur = true → Stalls (.vst f) s .order)) ∧
  ∀ (f : FmtSst) (s : State), Ready (.sst f) s →
    let x := s.reader (.sst f)
    let n := 2 ^ f.z.toNat
    let va := x.readS2 f.a.toNat + (match x.himm with | some v => v.signExtend 64 | none => f.o.signExtend 64)
    let u : Use := { size := n, align := n, acc := .store, scope := if f.r = 1 then x.scope else 0 }
    let hs := (s.seen (.sst f)).hits [⟨none, va⟩] .store
    let value := if n = 8 then (x.readS2 f.d.toNat).toNat else (x.srcS f.d.toNat).toNat
    Accessible (s.seen (.sst f)) u [⟨none, va⟩] → (f.r = 1 → 2 ≤ x.scope → s.storesOut s.cur = false) →
    Becomes (.sst f) s
      ((((s.seen (.sst f)).logRaces u hs).storeAll u (hs.map (fun h => (h, leBytes n value)))).addStores hs)
      (if f.r = 1 then { x with interval := x.interval + 1 } else x) (nextPc x.pc) false

/-- R3, R88, R219, R221, R222: which bytes VST and SST change, and to what. Where races are logged, the records come first, and the
bytes outside the places stored to are as these leave them. That bytes change when the store issues is log 7. -/
def Obligations.StoredBytes : Prop :=
  (∀ (f : FmtVst) (s t : State), Ready (.vst f) s →
    let x := s.reader (.vst f)
    let m := x.execMask f.p.toNat
    let n := 2 ^ f.z.toNat
    let u : Use := { size := n, align := n, acc := .store, scope := if f.r = 1 then x.scope else 0 }
    let acc := vectorAccesses x m f.a f.i (f.t = 1)
    let S := (s.seen (.vst f)).logRaces u ((s.seen (.vst f)).hits acc .store)
    let place := fun l => placeOf (s.seen (.vst f)) .store (laneAddr x f.a f.i (f.t = 1) l)
    let value := fun l => if n = 8 then (x.readV2 f.d.toNat l).toNat else (x.srcV f.d.toNat l).toNat
    (f.r = 1 → 2 ≤ x.scope → s.storesOut s.cur = false) → Accessible (s.seen (.vst f)) u acc → exec (.vst f) s = .next t →
    ((s.ctx s.myCtx).race ≠ 2 → ∀ a, S.byteAt a = s.byteAt a) ∧
    (∀ a, (∀ l loc, m.getLsbD l = true → place l = some loc → a < loc ∨ loc + n ≤ a) → t.byteAt a = S.byteAt a) ∧
    ∀ l loc k, m.getLsbD l = true → place l = some loc → k < n →
      (∀ l' loc', l < l' → m.getLsbD l' = true → place l' = some loc' → loc + k < loc' ∨ loc' + n ≤ loc + k) →
      t.byteAt (loc + k) = byteOf (value l) k) ∧
  ∀ (f : FmtSst) (s t : State), Ready (.sst f) s →
    let x := s.reader (.sst f)
    let n := 2 ^ f.z.toNat
    let va := x.readS2 f.a.toNat + (match x.himm with | some v => v.signExtend 64 | none => f.o.signExtend 64)
    let u : Use := { size := n, align := n, acc := .store, scope := if f.r = 1 then x.scope else 0 }
    let S := (s.seen (.sst f)).logRaces u ((s.seen (.sst f)).hits [⟨none, va⟩] .store)
    (f.r = 1 → 2 ≤ x.scope → s.storesOut s.cur = false) → Accessible (s.seen (.sst f)) u [⟨none, va⟩] → exec (.sst f) s = .next t →
    ((s.ctx s.myCtx).race ≠ 2 → ∀ a, S.byteAt a = s.byteAt a) ∧
    ∃ loc, placeOf (s.seen (.sst f)) .store va = some loc ∧
      Wrote S.byteAt t.byteAt loc n (if n = 8 then (x.readS2 f.d.toNat).toNat else (x.srcS f.d.toNat).toNat)

/-- R88, R225 to R228: the atomics and the bank operations of vectors. That they are performed when the instruction issues, one lane
after another in one step, is log 7. -/
def Obligations.VectorAtomics : Prop :=
  (∀ row ∈ atomicRows, ∀ (f : FmtAt) (s : State), Ready (row.1 f) s →
    AtomicResult (row.1 f) s row.2.1 row.2.2 (f.l = 1) f.d f.a f.b f.q f.p) ∧
  ∀ row ∈ atomic1Rows, ∀ (f : FmtAt1) (s : State), Ready (row.1 f) s →
    AtomicResult (row.1 f) s row.2.1 row.2.2.1 row.2.2.2 f.d f.a f.b f.q f.p

/-- R225, R226: the scalar atomics: the old value of the place goes to the destination and the new one into the place. That one is
performed when it issues is log 7. -/
def Obligations.ScalarAtomics : Prop :=
  let claim := fun (i : Instr) (s : State) (op : AOp) (wide : Bool) (d a b : BitVec 6) (q : BitVec 1) =>
    let x := s.reader i
    let n := if wide then 8 else 4
    let u : Use := { size := n, align := n, acc := .store, atomic := true, scope := x.scope }
    let acc : List Access := [⟨none, x.readS2 a.toNat⟩]
    let hs := (s.seen i).hits acc .store
    let S := (s.seen i).logRaces u hs
    let r := S.atomics u op x.rm (hs.map (fun h => (h, scalarOperand x b wide)))
    ((s.ctx s.myCtx).race ≠ 2 → ∀ a, S.byteAt a = s.byteAt a) ∧
    (Accessible (s.seen i) u acc → Loadable (s.seen i) hs ((s.seen i).poisonedHit hs n) 0 (if wide then 2 else 1) →
      ∃ t e loc, Does i s (r.1.addPend e) x (nextPc x.pc) false
          { s := if wide then [d.toNat, d.toNat + 1] else [d.toNat], flags := q = 0 } t ∧
        e.kind = .atomic ∧ placeOf (s.seen i) .store (x.readS2 a.toNat) = some loc ∧
        let old := numberIn S.byteAt loc n
        let new := op.apply (8 * n) x.rm old (scalarOperand x b wide).1 (scalarOperand x b wide).2
        Wrote S.byteAt t.byteAt loc n new.1 ∧ (t.group s.cur).readS d.toNat = BitVec.ofNat 32 old ∧
        (wide = true → (t.group s.cur).readS (d.toNat + 1) = BitVec.ofNat 32 (old / 4294967296)) ∧
        ∀ l, l < 128 → (t.group s.cur).flag l = if q = 0 ∧ l < x.width then x.flag l ||| new.2 else x.flag l)
  (∀ row ∈ scalarAtomicRows, ∀ (f : FmtSat) (s : State), Ready (row.1 f) s →
    claim (row.1 f) s row.2 (f.l = 1) f.d f.a f.b f.q) ∧
  ∀ (f : FmtSat1) (s : State), Ready (.satomAddF32 f) s → claim (.satomAddF32 f) s .fadd false f.d f.a f.b f.q

/-- R87, R225, R226, R228: one atomic: the old value, the new value, and no other byte. -/
def Obligations.OneAtomic : Prop :=
  (∀ row ∈ atomicTable, ∀ n ∈ [32, 64], ∀ (rm : BitVec 2) (o b c : Nat), o < 2 ^ n → b < 2 ^ n → c < 2 ^ n →
    row.1.apply n rm o b c = ((wrap n (row.2 n o b c)).toNat, 0)) ∧
  (∀ (rm : BitVec 2) (o b c : Nat), AOp.apply .fadd 32 rm o b c = fp32.add rm o b) ∧
  (∀ (rm : BitVec 2) (o b c : Nat), o < 2 ^ 64 → b < 2 ^ 64 →
    (PairAbove b o → AOp.apply .maxp 64 rm o b c = (b, 0)) ∧ (¬ PairAbove b o → AOp.apply .maxp 64 rm o b c = (o, 0))) ∧
  ∀ (s : State) (n : Nat) (scope : Nat) (bank : Bool) (op : AOp) (rm : BitVec 2) (h : Hit) (b c : Nat) (loc : Nat),
    n = 4 ∨ n = 8 → h.tgt.loc? = some loc →
    let u : Use := { size := n, align := n, acc := .store, bank := bank, atomic := true, scope := scope }
    let old := s.natAt loc n
    let r := s.atomicHit u op rm h b c
    r.2 = ⟨h.lane, old, (op.apply (8 * n) rm old b c).2⟩ ∧ r.1.natAt loc n = (op.apply (8 * n) rm old b c).1 % 2 ^ (8 * n) ∧
    (∀ a, a < loc ∨ loc + n ≤ a → r.1.byteAt a = s.byteAt a) ∧ r.1.groups = s.groups

/-- R72, R104, R112, R113, R229, R231: TAGLD, TAGST, SETE and SETF. A TAGLD is an access to every byte of its block of DRAM, which
no cache serves. That tags are read and written when the instruction issues is log 7, and that what follows TAGLD can depend on it,
as on every load, is log 102. -/
def Obligations.TagsAndFullBits : Prop :=
  (∀ (f : FmtDa) (s : State), Ready (.tagld f) s →
    let x := s.reader (.tagld f)
    let S := s.seen (.tagld f)
    let acc : List Access := [⟨none, x.readS2 f.a.toNat⟩]
    let u : Use := { size := 64, align := 64, acc := .load }
    ∀ loc, placeOf S .load (x.readS2 f.a.toNat) = some loc → Accessible S u acc → S.emptyLine (S.hits acc .load) = false →
      HasRoom (.tagld f) s 0 1 → Fmap.get false s.tagPoison (loc / 64) = false →
      let direct := fun (a : Nat) => (∃ cp mir res, S.target x.wg (x.readS2 f.a.toNat) .load = .memory loc cp mir res) ∧ paKind loc = 0 ∧
        loc ≤ a ∧ a < loc + 64
      ∃ t e, Does (.tagld f) s ((S.addPend e).logRaces u (S.hits acc .load))
          { x with lastLoad := s.nextId + 1, past := (t.group s.cur).past } (nextPc x.pc) false { s := [f.d.toNat] } t ∧
        (∀ a, (direct a → Fmap.get 0 (t.group s.cur).past a = s.nextId + 1) ∧
          (¬ direct a → Fmap.get 0 (t.group s.cur).past a = Fmap.get 0 x.past a)) ∧
        e.kind = .load ∧ (t.group s.cur).readS f.d.toNat = (s.tagAt loc).zeroExtend 32 ∧
        ∃ e', Fmap.find (t.group s.cur).s f.d.toNat = some e' ∧ e'.dep = s.nextId + 1) ∧
  (∀ (f : FmtAb) (s : State), Ready (.tagst f) s →
    let x := s.reader (.tagst f)
    let S := s.seen (.tagst f)
    let acc : List Access := [⟨none, x.readS2 f.a.toNat⟩]
    let u : Use := { size := 64, align := 64, acc := .store }
    ∀ loc, placeOf S .store (x.readS2 f.a.toNat) = some loc → Accessible S u acc → (s.ctx s.myCtx).race ≠ 2 →
      ∃ t, Does (.tagst f) s { s with tags := t.tags, tagPoison := t.tagPoison, shadow := t.shadow, dirty := t.dirty
                                      dirtyNext := t.dirtyNext, stores := t.stores, nextId := t.nextId }
          x (nextPc x.pc) false {} t ∧
        ∀ a, t.tagAt a = if a / 64 = loc / 64 then (x.srcS f.b.toNat).extractLsb' 0 16 else s.tagAt a) ∧
  ∀ row ∈ [(Instr.sete, false), (Instr.setf, true)], ∀ (f : FmtA) (s : State), Ready (row.1 f) s →
    let x := s.reader (row.1 f)
    let va := x.readS2 f.a.toNat
    let tgt := (s.seen (row.1 f)).target x.wg va .store
    (∀ loc w, tgt = .spad loc w → (s.lineAt loc).barrier = false → (s.lineAt loc).queue = false →
      ∃ t, Does (row.1 f) s { s with lines := t.lines } x (nextPc x.pc) false {} t ∧
        ∀ a, t.lineAt a = if a / 128 = loc / 128 then { s.lineAt loc with full := row.2 } else s.lineAt a) ∧
    (∀ loc w, tgt = .spad loc w → (s.lineAt loc).barrier = true → Traps (row.1 f) s { trap := .barrierLine, addr := va }) ∧
    (∀ loc w, tgt = .spad loc w → (s.lineAt loc).barrier = false → (s.lineAt loc).queue = true →
      Traps (row.1 f) s { trap := .queue, addr := va }) ∧
    (tgt = .exited → Traps (row.1 f) s { trap := .peerExited, addr := va }) ∧
    (tgt ≠ .exited → (∀ loc w, tgt ≠ .spad loc w) → Traps (row.1 f) s { trap := .scratchRange, addr := va })

/-- R232, R233, R312: QPUSH and QPOP, and what they trap on. That a waiting QPOP holds its slices from its issue on, and a waiting
QPUSH its values, is log 33; the entries of one instruction are numbered on from TAIL and HEAD without a wrap at 2^32 (log 104); any
byte of the line is its address (log 100); ADDR of the record of an uncorrectable error is the virtual address (log 30); what the
acquire of a QPOP takes in is log 7; and an address of a member that has exited is that also beyond its allocation (log 118). -/
def Obligations.StageQueues : Prop :=
  (∀ (f : FmtQpush) (s : State), Ready (.qpush f) s →
    let x := s.reader (.qpush f)
    let S := s.seen (.qpush f)
    let m := x.execMask f.p.toNat
    let vals := (lanesOf m).map (fun l => x.srcV f.b.toNat l)
    (m = 0 → Becomes (.qpush f) s s x (nextPc x.pc) false) ∧
    (m ≠ 0 → QueueStops (.qpush f) s (x.readS2 f.a.toNat) (countOf m)) ∧
    ∀ loc, m ≠ 0 → QueueAt S (x.readS2 f.a.toNat) loc → countOf m ≤ s.qCap loc → QueueLaid s x.wg loc →
      let y := { x with interval := x.interval + 1 }
      let fits := s.qUsed loc + vals.length ≤ s.qCap loc
      (S.pushWaiters loc = [] → fits →
        (S.popWaiters loc = [] ∨ ∃ g d m', OnePop S loc g d m' ∧ s.qUsed loc + vals.length < countOf m') →
        ∃ t, Does (.qpush f) s { s with mem := t.mem, poison := t.poison } y (nextPc x.pc) false {} t ∧
          Pushed s t x.wg loc vals ∧ OnlyEntries s t x.wg loc vals (loc + 4) 4) ∧
      (∀ g d m', OnePop S loc g d m' → fits → countOf m' ≤ s.qUsed loc + vals.length →
        (∀ j, j < countOf m' → s.poisoned (s.qEntry x.wg loc (s.qHead loc + j)) 4 = false) → Listed s →
        ∃ t, exec (.qpush f) s = .next t ∧ t = { s with groups := t.groups, mem := t.mem, poison := t.poison } ∧
          Ran (.qpush f) x y (t.group s.cur) (nextPc x.pc) false {} ∧ PoppedBy s t loc g d m' ∧
          (∀ h, h ≠ s.cur → h ≠ g → t.group h = s.group h) ∧
          Pushed s t x.wg loc vals ∧ OnlyEntries s t x.wg loc vals loc 8) ∧
      (S.pushWaiters loc ≠ [] ∨ s.qCap loc < s.qUsed loc + vals.length →
        Stays (.qpush f) s { s with nextId := s.nextId + 1 }
          { x with wait := some (waitFor (.qpush f) s (.qpush loc s.nextId vals)), stall := none })) ∧
  ∀ (f : FmtQpop) (s : State), Ready (.qpop f) s →
    let x := s.reader (.qpop f)
    let S := s.seen (.qpop f)
    let m := x.execMask f.p.toNat
    (m = 0 → Becomes (.qpop f) s s x (nextPc x.pc) false) ∧
    (m ≠ 0 → QueueStops (.qpop f) s (x.readS2 f.a.toNat) (countOf m)) ∧
    ∀ loc, m ≠ 0 → QueueAt S (x.readS2 f.a.toNat) loc → countOf m ≤ s.qCap loc →
      HasRoom (.qpop f) s (hitQuarters x.width m).length 0 →
      let bad := ∃ j, j < countOf m ∧ s.poisoned (s.qEntry x.wg loc (s.qHead loc + j)) 4 = true
      (bad → S.popWaiters loc = [] → countOf m ≤ s.qUsed loc →
        exec (.qpop f) s = .next (S.uncorrectable s.cur 1 (x.readS2 f.a.toNat).toNat)) ∧
      (¬ bad → S.pushWaiters loc = [] → S.popWaiters loc = [] → countOf m ≤ s.qUsed loc →
        ∃ t, Does (.qpop f) s (S.popped loc (countOf m)) { x with past := (t.group s.cur).past } (nextPc x.pc) false
            { v := [f.d.toNat] } t ∧
          Learns s s.cur (Fmap.get 0 x.past) (t.group s.cur) ∧
          t.qHead loc = (s.qHead loc + countOf m) % 4294967296 ∧ (∀ a, a < loc ∨ loc + 4 ≤ a → t.byteAt a = s.byteAt a) ∧
          ∀ l, x.hasLane l →
            (m.getLsbD l = false → (t.group s.cur).readV f.d.toNat l = x.readV f.d.toNat l) ∧
            ∀ j, (lanesOf m)[j]? = some l → (t.group s.cur).readV f.d.toNat l =
              BitVec.ofNat 32 (s.natAt (s.qEntry x.wg loc (s.qHead loc + j)) 4)) ∧
      (∀ g vals, OnePush S loc g vals → ¬ bad → countOf m ≤ s.qUsed loc →
        s.qUsed loc - countOf m + vals.length ≤ s.qCap loc → QueueLaid s x.wg loc → Listed s →
        ∃ t, exec (.qpop f) s = .next t ∧ t = { s with groups := t.groups, mem := t.mem, poison := t.poison } ∧
          Ran (.qpop f) x { x with past := (t.group s.cur).past } (t.group s.cur) (nextPc x.pc) false { v := [f.d.toNat] } ∧
          Learns s s.cur (Fmap.get 0 x.past) (t.group s.cur) ∧
          GoesOn s t g 1 ∧ (t.group g).past = (s.group g).past ∧
          (∀ w, (s.group g).wait = some w → w.frees = [] → (t.group g).v = (s.group g).v) ∧
          (∀ h, h ≠ s.cur → h ≠ g → t.group h = s.group h) ∧ t.qHead loc = (s.qHead loc + countOf m) % 4294967296 ∧
          Pushed s t x.wg loc vals ∧ OnlyEntries s t x.wg loc vals loc 8 ∧
          ∀ (j l : Nat), x.hasLane l → (lanesOf m)[j]? = some l → (t.group s.cur).readV f.d.toNat l =
            BitVec.ofNat 32 (s.natAt (s.qEntry x.wg loc (s.qHead loc + j)) 4)) ∧
      (S.popWaiters loc ≠ [] ∨ s.qUsed loc < countOf m →
        ∃ t, exec (.qpop f) s = .next t ∧ t = { s with groups := t.groups, nextId := s.nextId + 1 } ∧
          (∀ h, h ≠ s.cur → t.group h = s.group h) ∧
          t.group s.cur = { x with wait := some (waitFor (.qpop f) s (.qpop loc s.nextId f.d m)), stall := none
                                   v := (t.group s.cur).v } ∧
          (∀ k, k / 16 ≠ f.d.toNat → Fmap.find (t.group s.cur).v k = Fmap.find x.v k) ∧
          ∀ r l, x.hasLane l → (t.group s.cur).readV r l = x.readV r l)

/-- R102, R108, R123, R243: PUB. A core of the issuing die that holds the line, of 128 bytes (log 73), sees the write at once.
R244, R247, R248: POOLA, POOLF and RETIRE. -/
def Obligations.PublishAndPools : Prop :=
  (∀ (f : FmtAb) (s : State), Ready (.pub f) s →
     let x := s.reader (.pub f)
     let S := s.seen (.pub f)
     let va := x.readS2 f.a.toNat
     let u : Use := { size := 8, align := 8, acc := .store, slotOk := true, scope := 4 }
     Accessible S u [⟨none, va⟩] →
       (s.storesOut s.cur = true → Stalls (.pub f) s .order) ∧
       (s.storesOut s.cur = false → (s.ctx s.myCtx).race ≠ 2 →
         ∃ t, Does (.pub f) s
             { s with mem := t.mem, poison := t.poison, cores := t.cores, shadow := t.shadow, dirty := t.dirty, dirtyNext := t.dirtyNext
                      dirtySlots := t.dirtySlots, dirtySlotsNext := t.dirtySlotsNext, stores := t.stores, nextId := t.nextId }
             { x with interval := x.interval + 1 } (nextPc x.pc) false {} t ∧ SameButL1 s t ∧
           ∀ loc, (match S.target x.wg va .store with | .slot j => some (slotLoc s.myDie j) | r => r.loc?) = some loc →
             (∀ k, k < 8 → t.byteAt (loc + k) = byteOf (x.readS2 f.b.toNat).toNat k) ∧
             (∀ a, a < loc ∨ loc + 8 ≤ a → t.byteAt a = s.byteAt a) ∧
             ∀ cp mir res c l, S.target x.wg va .store = .memory loc cp mir res → c / 12 = s.myDie →
               Fmap.find (s.core c).l1 (loc / 128) = some l → l.data.length = 128 →
               ∃ l', Fmap.find (t.core c).l1 (loc / 128) = some l' ∧
                 ∀ k, k < 8 → l'.data.getD (loc % 128 + k) 0 = byteOf (x.readS2 f.b.toNat).toNat k)) ∧
  ((∀ (f : FmtDa) (s : State), Ready (.poola f) s →
     let x := s.reader (.poola f)
     let p := (x.srcS f.a.toNat).toNat
     let pool := s.pool s.myDie s.myCtx p
     let named := p < 16 ∧ pool.configured = true
     let block := match pool.stack with | j :: _ => some j | [] => if pool.next < pool.count then some pool.next else none
     (¬ named → Traps (.poola f) s { trap := .rcuOperand }) ∧
     (named → HasRoom (.poola f) s 0 2 →
       (block = none → ∃ t, Does (.poola f) s s x (nextPc x.pc) false { s := [f.d.toNat, f.d.toNat + 1] } t ∧
         (t.group s.cur).readS2 f.d.toNat = 0) ∧
       ∀ j, block = some j →
         let y := if pool.stack = [] then { pool with next := pool.next + 1 } else { pool with stack := pool.stack.tail }
         ∃ t, Does (.poola f) s ((s.setPool s.myDie s.myCtx p y).clearL1 s.myCore) x (nextPc x.pc) false
             { s := [f.d.toNat, f.d.toNat + 1] } t ∧
           (t.group s.cur).readS2 f.d.toNat = pool.baseVa + BitVec.ofNat 64 (pool.bytes * j))) ∧
   (∀ (f : FmtAb) (s : State), Ready (.poolf f) s →
     let x := s.reader (.poolf f)
     let p := (x.srcS f.b.toNat).toNat
     let pool := s.pool s.myDie s.myCtx p
     let off := (x.readS2 f.a.toNat - pool.baseVa).toNat
     let ok := p < 16 ∧ pool.configured = true ∧ off % pool.bytes = 0 ∧ off / pool.bytes < pool.next ∧ off / pool.bytes ∉ pool.stack
     (¬ ok → Traps (.poolf f) s { trap := .rcuOperand }) ∧
     (ok → s.storesOut s.cur = true → Stalls (.poolf f) s .order) ∧
     (ok → s.storesOut s.cur = false → Becomes (.poolf f) s
       (s.setPool s.myDie s.myCtx p
         { pool with stack := off / pool.bytes :: pool.stack
                     freed := Fmap.insert pool.freed (off / pool.bytes) (Fmap.get 0 pool.freed (off / pool.bytes) + 1) })
       { x with interval := x.interval + 1 } (nextPc x.pc) false)) ∧
   ∀ (f : FmtDab) (s : State), Ready (.retire f) s →
     let x := s.reader (.retire f)
     let ptr := x.readS2 f.a.toNat
     let w := (x.readS (f.b.toNat + 1)).toNat
     let kind := w / 268435456
     let pool := s.pool s.myDie s.myCtx (w % 65536)
     let legal := kind < 3 ∧ w / 65536 % 4096 = 0 ∧ (kind = 0 → w % 65536 < 16) ∧ (kind = 2 → w % 65536 < 16384)
     let d := s.die s.myDie
     (¬ legal → Traps (.retire f) s { trap := .rcuOperand }) ∧
     (legal → kind = 0 → pool.allocatedAt ptr = none → Traps (.retire f) s { trap := .rcuOperand }) ∧
     ∀ n, legal → (if kind = 0 then (pool.allocatedAt ptr).map (Fmap.get 0 pool.freed) = some n else n = 0) →
       HasRoom (.retire f) s 0 1 →
       (65536 ≤ d.retireQ.length → ∃ t, Does (.retire f) s s x (nextPc x.pc) false { s := [f.d.toNat] } t ∧
         (t.group s.cur).readS f.d.toNat = 1) ∧
       (d.retireQ.length < 65536 → ∃ t, Does (.retire f) s
           ((s.setDie s.myDie { d with retireQ := d.retireQ ++
             [⟨s.myCtx, ptr, x.readS f.b.toNat, kind, w % 65536, (s.core s.myCore).ph.toNat, n⟩] }).request .boundary)
           x (nextPc x.pc) false { s := [f.d.toNat] } t ∧ (t.group s.cur).readS f.d.toNat = 0))

namespace Sys2Proof.Claims

open Sys2Proof.Machine

/-- Whether an address passes the checks that a scalar address meets at issue (R220): aligned, and inside the scratchpad of a live
member where it names one. -/
def scalarOk (s : State) (align : Nat) (va : Dword) : Prop :=
  va.toNat % align = 0 ∧ s.target s.me.wg va .engineRead ≠ .range ∧ s.target s.me.wg va .engineRead ≠ .exited

/-- What the issue of an engine operation does (R104, R234): the operation in flight holds its destination lines, and sD is bound to
it and has a handle that no uncompleted operation of the core has. -/
def EngineIssued (i : Instr) (s : State) (d : Nat) (o : EngOp) : Prop :=
  let S := s.seen i
  let m := S.linesOf o.wg o
  (64 ≤ s.heldBy s.cur ∨ 4096 ≤ s.heldOn s.myCore ∨ S.linesFit m = false → Stalls i s .limit) ∧
  (s.heldBy s.cur < 64 → s.heldOn s.myCore < 4096 → S.linesFit m = true → HasRoom i s 0 1 →
    ∃ t h, Does i s
        { S.takeLines m with
            engs := Fmap.insert s.engs s.nextId { o with handle := h, lines := m }, nextId := s.nextId + 1, free := s.free + 1 }
        (s.reader i) (nextPc s.me.pc) false { s := [d] } t ∧
      h < 4096 ∧ (t.group s.cur).readS d = BitVec.ofNat 32 (2147483648 + h) ∧ (t.group s.cur).futOf d = some s.nextId ∧
      ∀ p ∈ s.engs, p.2.kind ≠ .xput → p.2.kind ≠ .xget → (s.wg p.2.wg).core = s.myCore → (s.wg p.2.wg).state ≠ .saved →
        p.2.handle ≠ h)

/-- A copy under a zero execute mask: DONE in sD, which is bound to nothing (R236). -/
def NothingCopied (i : Instr) (s : State) (d : Nat) : Prop :=
  HasRoom i s 0 1 → ∃ t, Does i s s (s.reader i) (nextPc s.me.pc) false { s := [d] } t ∧
    (t.group s.cur).readS d = 0 ∧ (t.group s.cur).futOf d = none

/-! ### Matrix operations -/

/-- A matrix operation that the issuing group puts into its open batch (R262, R266, R267): the tile `a` is allocated where the
operation writes it, and reads as before. -/
def MatrixIssued (i : Instr) (s : State) (writes : Bool) (a : Nat) (o : MOp) : Prop :=
  let S := s.seen i
  (S.mopLimit = true → Stalls i s .limit) ∧
  (S.mopLimit = false → HasRoom i s (if writes then ((s.reader i).tileNeeds a o.exec).length else 0) 0 →
    ∃ t v, Does i s { s with mops := Fmap.insert s.mops s.nextId o, nextId := s.nextId + 1 }
        { s.reader i with batchOpen := true } (nextPc s.me.pc) false { v := if writes then v else [] } t ∧
      (∀ n ∈ v, ∃ c, c < 32 ∧ n = 64 + 32 * a + c) ∧
      (writes = true → ∀ l c, c < 32 → (t.group s.cur).readAcc a l c = (s.reader i).readAcc a l c))

/-- The workgroup and the offset that a base names (R257): the issuer's own scratchpad, or that of a member of its cluster. -/
def Named (s : State) (base k off : Nat) : Prop :=
  (base < 2 ^ 20 ∧ k = s.me.wg ∧ off = base) ∨
    (2 ^ 22 ≤ base ∧ base < 2 ^ 23 ∧ s.myWg.members[(base - 2 ^ 22) / 2 ^ 20]? = some k ∧ off = base % 2 ^ 20)

/-- The trap of a descriptor's window, membership and range (R257, R264). -/
def WindowTrap (s : State) (d : RawDesc) (rows : List Nat) (t : Trap) : Prop :=
  ((∀ k off, ¬ Named s d.base k off) ∧ t = .scratchRange) ∨
  ∃ k off, Named s d.base k off ∧
    let exited := 2 ^ 22 ≤ d.base ∧ s.hasExited k = true
    (exited ∧ t = .peerExited) ∨ (¬ exited ∧ t = .scratchRange ∧
      ∃ r ∈ rows, 128 * (s.wg k).lines < off + r % 8 * (d.layout / 2 ^ 16) + r / 8 * 64 * (d.layout / 2 ^ 4 % 2 ^ 12) + 64)

/-- Checks 4 to 6 of R264 on the descriptors that an operation uses, each with the rows read: a ROWP, or a ROT of MMAT, that may not
be; a base that is not aligned; and window, membership and range. -/
def DescriptorStops (i : Instr) (s : State) (mmat : Bool) (l : List (RawDesc × List Nat)) : Prop :=
  let bad := ∃ p ∈ l, p.1.layout / 2 ^ 16 % 64 ≠ 0 ∨ (mmat = true ∧ p.1.layout % 16 ≠ 0)
  (bad → Traps i s { trap := .matrixOperand }) ∧
  (∀ pre p post, ¬ bad → l = pre ++ p :: post → (∀ q ∈ pre, q.1.base % 64 = 0) → p.1.base % 64 ≠ 0 →
    Traps i s { trap := .misaligned, addr := windowAddr p.1.base }) ∧
  ∀ pre p post t, ¬ bad → (∀ q ∈ l, q.1.base % 64 = 0) → l = pre ++ p :: post →
    (∀ q ∈ pre, ∀ u, ¬ WindowTrap (s.seen i) q.1 q.2 u) → WindowTrap (s.seen i) p.1 p.2 t →
    Traps i s { trap := t, addr := windowAddr p.1.base }

/-- Checks 5 to 7 of R264 on the address of MLD and MST (R265): alignment, window and membership, the range of the executing lanes'
rows, and the lines that MST may not write. -/
def TileStops (i : Instr) (s : State) (va : Dword) (m : Mask) (store : Bool) : Prop :=
  let S := s.seen i
  let base := va.toNat - 0x0F00000000000000
  let row := fun (j : Nat) => va + BitVec.ofNat 64 (128 * j)
  let first := fun (p : Nat → Prop) (j : Nat) => m.getLsbD j = true ∧ p j ∧ ∀ h, h < j → m.getLsbD h = true → ¬ p h
  (va.toNat % 128 ≠ 0 → Traps i s { trap := .misaligned, addr := va }) ∧
  (va.toNat % 128 = 0 → (va.toNat < 0x0F00000000000000 ∨ ∀ k off, ¬ Named S base k off) → Traps i s { trap := .scratchRange, addr := va }) ∧
  ∀ k off, va.toNat % 128 = 0 → 0x0F00000000000000 ≤ va.toNat → Named S base k off →
    let exited := 2 ^ 22 ≤ base ∧ S.hasExited k = true
    let outside := fun (j : Nat) => 128 * (S.wg k).lines < off + 128 * j + 128
    let line := fun (j : Nat) => S.lineAt (spadLoc (S.wg k).core (128 * (S.wg k).line0 + off) + 128 * j)
    (exited → Traps i s { trap := .peerExited, addr := va }) ∧
    (¬ exited → ∀ j, first outside j → Traps i s { trap := .scratchRange, addr := row j, lane := some j }) ∧
    (¬ exited → store = true → (∀ j, m.getLsbD j = true → ¬ outside j) →
      ∀ j, first (fun h => (line h).barrier = true ∨ (line h).queue = true) j →
        Traps i s { trap := if (line j).barrier = true then .barrierLine else .queue, addr := row j, lane := some j })

/-- A matrix operation with a zero execute mask joins its batch and does nothing else (R17, R267). -/
def MatrixIdle (i : Instr) (s : State) : Prop :=
  Becomes i s s { s.reader i with batchOpen := true } (nextPc s.me.pc) false

/-- The checks at issue are passed, and no register that the instruction reads at issue holds an uncorrectable error; MST and MRD
read their tile when they are performed (R265, R266, R312). -/
structure ReadyBeside (i : Instr) (s : State) : Prop where
  gate : s.gate s.cur (Instr.info i) = .go
  sound : (s.reader i).badReads { Instr.info i with srcs := (Instr.info i).srcs.filter (fun o => o.file != .tile) } = false

/-- Tile `a` of the group keeps its mapping, in an instruction that otherwise does what `Does` says (R266). -/
def KeepsTile (i : Instr) (s v : State) (z : Group) (a : Nat) (w : List Nat) (t : State) : Prop :=
  Does i s v z (nextPc s.me.pc) false { v := w ++ (List.range 32).map (64 + 32 * a + ·) } t ∧
    ∀ k, 64 + 32 * a ≤ k / 16 → k / 16 < 96 + 32 * a → Fmap.find (t.group s.cur).v k = Fmap.find (s.reader i).v k

/-- MST and MRD with a zero execute mask, on tile `a`: the group is `z` otherwise, and a last-read bit on the tile frees it at once or,
where operations on it are queued, with the last of them (R17, R58, R266; log 70). -/
def TileIdle (i : Instr) (s : State) (z : Group) (a : Nat) : Prop :=
  let mine := fun (o : MOp) => o.g = s.cur ∧ o.acc = a
  ((s.reader i).freesTile = false ∨ (∀ p ∈ s.mops, ¬ mine p.2) → Becomes i s s z (nextPc s.me.pc) false) ∧
  ∀ op o, (s.reader i).freesTile = true → Fmap.risingFrom 0 s.mops = true → Fmap.find s.mops op = some o → mine o →
    (∀ p ∈ s.mops, mine p.2 → p.1 ≤ op) →
    ∃ t, KeepsTile i s { s with mops := t.mops } z a [] t ∧ Fmap.find t.mops op = some { o with frees := true } ∧
      ∀ k, k ≠ op → Fmap.find t.mops k = Fmap.find s.mops k

/-- A decoded row: its elements, none after a tag fault, and whether it met a decode fault (R255, R260). -/
structure DecodedRow where
  elems : Option (List Number)
  fault : Bool

/-- The elements of a row of a format of TA and TB, and element `k` of the row's bytes with whether it is invalid (R71, R139,
R254, R255). -/
def rowSize (t : Nat) : Nat := if t ≤ 1 then 32 else if t = 4 ∨ t = 5 then 128 else 64
def rowElement (t : Nat) (blk : Nat → Nat) (k : Nat) : Number × Bool :=
  match t with
  | 0 => (meaning bf16 (blk (2 * k) + 256 * blk (2 * k + 1)), false)
  | 1 => (meaning fp16 (blk (2 * k) + 256 * blk (2 * k + 1)), false)
  | 2 => blockElement 0 blk k
  | 3 => blockElement 1 blk k
  | 4 => blockElement 2 blk k
  | 5 => blockElement 3 blk k
  | _ => (typeMeaning 7 (blk k), false)

/-- A row decoded without its tag, and by its tag into `size` elements, each scaled (R73, R74, R260). -/
def plainRow (t : Nat) (blk : Nat → Nat) : DecodedRow :=
  ⟨some ((List.range (rowSize t)).map (fun k => (rowElement t blk k).1)),
    (List.range (rowSize t)).any (fun k => (rowElement t blk k).2)⟩
def tagFormat (fmt : Nat) : Option Nat := if fmt < 2 ∨ 8 < fmt then none else [1, 0, 2, 3, 4, 5, 6][fmt - 2]?
def taggedRow (tag : BitVec 16) (size : Option Nat) (blk : Nat → Nat) : DecodedRow :=
  let scale := fun (n : Number) =>
    if tag.toNat / 256 = 255 then .nan false else match n with | .num g x => .num g (x * divisor (tag.toNat / 256)) | n => n
  match tagFormat (tag.toNat % 256) with
  | some t => if size = some (rowSize t) then { plainRow t blk with elems := (plainRow t blk).elems.map (·.map scale) } else ⟨none, false⟩
  | none => ⟨none, false⟩

/-- Byte `i` of row `r` of a scratchpad operand (R257). -/
def operandByte (s : State) (d : MDesc) (r i : Nat) : Nat :=
  (s.byteAt (d.loc + r % 8 * d.rowp + r / 8 * 64 * d.tilep + 4 * ((i / 4 + r * d.rot) % 16) + i % 4)).toNat

/-- Row `i` of A and column row `j` of the operand B of row `i` (R255, R256, R260, R261). -/
def productRowA (s : State) (o : MOp) (i : Nat) : DecodedRow :=
  match o.kind with
  | .mma => plainRow o.ta (fun k => ((o.rowsA.getD i []).getD k 0).toNat)
  | .mmat => taggedRow (s.tagAt (o.descA.row i)) ((tagFormat ((s.tagAt (o.descB.row 0)).toNat % 256)).map rowSize) (operandByte s o.descA i)
  | _ => plainRow o.ta (operandByte s o.descA i)
def productRowB (s : State) (o : MOp) (i j : Nat) : DecodedRow :=
  match o.kind with
  | .mma => plainRow o.tb (fun k => ((o.rowsB.getD j []).getD k 0).toNat)
  | .mmat => taggedRow (s.tagAt (o.descB.row j)) ((tagFormat ((s.tagAt (o.descB.row 0)).toNat % 256)).map rowSize) (operandByte s o.descB j)
  | .mmax => plainRow o.tb (operandByte s (if i < o.bound then o.descB else o.descC) j)
  | _ => plainRow o.tb (operandByte s o.descB j)

/-- The exact sum of the products of two rows and an accumulator, rounded once to FP32, with the special cases (R81). -/
def SumRounds (rm : BitVec 2) (a b : List Number) (acc : Number) (c : Nat) (fl : Flags) : Prop :=
  let terms := acc :: (a.zip b).map (fun p => p.1.times p.2)
  let invalid := .nan true ∈ terms ∨ .inf true ∈ terms ∧ .inf false ∈ terms
  let value := fun (n : Number) => match n with | .num _ x => x | _ => (0 : ℚ)
  let zero := if ∀ n ∈ terms, n = .num true 0 then true else if ∀ n ∈ terms, n = .num false 0 then false else decide (rm = 3)
  if invalid ∨ ∃ n ∈ terms, n.isNan = true then c = quietNan fp32 ∧ fl = when invalid flagNV
  else if ∃ g, .inf g ∈ terms then ∃ g, .inf g ∈ terms ∧ IsCode fp32 (.inf g) c ∧ fl = 0
  else Rounds fp32 rm (terms.map value).sum zero c fl

/-- One element of the tile with its flags: the old value where a row has a tag fault (R262). -/
def ElementUpdated (rm : BitVec 2) (a b : DecodedRow) (old new : Word) (fl : Flags) : Prop :=
  match a.elems, b.elems with
  | some x, some y => SumRounds rm x y (meaning fp32 old.toNat) new.toNat fl
  | _, _ => new = old ∧ fl = 0

/-- Matrix operation `op` is the one in flight of its group, and nothing that it reads stops it: its group is live and outside a
region, no line is empty and nothing is poisoned, and the rows that it writes are allocated (R104, R262, R265). -/
structure CompletesNext (s : State) (op : Nat) (o : MOp) : Prop where
  found : Fmap.find s.mops op = some o
  alone : ∀ p ∈ s.mops, p.2.g = o.g → p.1 = op
  listed : Fmap.find s.groups o.g ≠ none
  live : (s.group o.g).status = .live
  noRollback : (s.group o.g).rollbackDue = false
  noRegion : (s.group o.g).region = none
  keeps : o.frees = false
  full : s.mopEmpty o = false
  sound : s.mopPoisoned o = false
  tileSound : (s.group o.g).badTile o = false
  tile : o.acc < 4
  width : (s.group o.g).width ≤ 128
  lanes : ∀ l, o.exec.getLsbD l = true → (s.group o.g).hasLane l
  rows : ∀ l, (s.group o.g).hasLane l → o.exec.getLsbD l = true → ∀ c, c < 32 →
    ∃ sl, Fmap.find (s.group o.g).v (vkey (tileName o.acc c) (l / 8)) = some sl ∧ sl.val.length = 8

/-- The rows that MMA read from registers are whole (R256). -/
def RowsRead (o : MOp) (x : Group) : Prop :=
  o.kind = .mma → (∀ r ∈ o.rowsA ++ o.rowsB, r.length = 64) ∧ o.rowsA.length = x.width ∧ o.rowsB.length = 32

/-- The number that a decoded value is. -/
def numberOf (v : FVal) : Number :=
  match v with
  | .nan signals => .nan signals
  | .inf n => .inf n
  | .fin n m e => .num n ((if n then -1 else 1) * (m : ℚ) * (2 : ℚ) ^ e)

/-- The group `y` is `x` with status bits joined to batch `b`: the open batch's are kept until it closes (R263, R268). -/
def StatusJoined (x y : Group) (b st : Word) : Prop :=
  let open_ := x.batchOpen = true ∧ x.nb = b
  y.openStatus = (if open_ then x.openStatus ||| st else x.openStatus) ∧
    y.batches.map (fun c => (c.n, c.status)) =
      x.batches.map (fun c => (c.n, if ¬ open_ ∧ c.n = b ∧ c.done = false then c.status ||| st else c.status))

/-! ### Collectives -/

/-- The width in bits of an element of a collective slot (R138, R250). -/
def collWidth (x : XSlot) : Nat := if x.type = 1 ∨ x.type = 2 then 16 else if x.type = 13 ∨ x.type = 14 then 64 else 32

/-- The bytes that a participant receives, of COUNT bytes from each rank (R251). -/
def resultSize (l : Local) (count : Nat) : Nat :=
  match l.slot.kind with
  | 2 => count
  | 3 => l.npart * count
  | 4 => count
  | 5 => l.npart * (count / l.npart)
  | _ => 0

/-- Byte `j` of what the participant of a rank receives, from the contributions in order of arrival (R251). -/
def resultByte (l : Local) (rank count : Nat) (ms : List Contribution) (j : Nat) : Byte :=
  let data := fun (r : Nat) => ((ms.find? (fun d => d.rank = r)).bind (·.data)).getD []
  match l.slot.kind with
  | 2 => (reduceAll l.slot count (ms.map (fun d => d.data.getD []))).getD j 0
  | 3 => (data (j / count)).getD (j % count) 0
  | 4 => (data 0).getD j 0
  | _ => (data (j / (count / l.npart))).getD (rank * (count / l.npart) + j % (count / l.npart)) 0

/-- The location of byte `j` of the result of contribution `d`, where it comes from a group of this package whose workgroup has not
been terminated since. -/
def ResultAt (s : State) (count : Nat) (d : Contribution) (j a : Nat) : Prop :=
  ∃ l loc, d.here = some l ∧ (s.wg l.wg).state ≠ .terminated ∧ j < resultSize l count ∧
    (s.target l.wg (l.dst + BitVec.ofNat 64 (j / 4 * 4)) .engineWrite).loc? = some loc ∧ a = loc + j % 4

/-- A contribution whose data is whole, and whose participant's destination passes every check of an element, at addresses in its
own scratchpad or that its TLBs hold, with no race detection. -/
structure Receives (s : State) (npart count : Nat) (d : Contribution) : Prop where
  data : ∀ bs, d.data = some bs → bs.length = count
  rank : d.rank < npart
  here : ∀ l, d.here = some l → (s.wg l.wg).state ≠ .terminated → l.npart = npart ∧ (s.ctx (s.ctxOf l.g)).race = 0 ∧
    (l.slot.kind = 2 → count % (typeBits l.slot.type / 8) = 0) ∧
    ∀ i, 4 * i < resultSize l count →
      let va := l.dst + BitVec.ofNat 64 (4 * i)
      ((∃ off, regionOf va = .own off) ∨ (s.tlbHit (s.wg l.wg).core (s.wg l.wg).ctx va).isSome = true) ∧
        s.sidesEnd .xget (s.wg l.wg).core (min 4 (resultSize l count - 4 * i)) [s.collSide l true va] = none

/-- One element of an allreduce from the ranks' elements in order of arrival, modulo 2^n for a sum of integers, and of two floats
(R83, R251). OP codes above 2 are log 84. -/
def Combined (x : XSlot) (vs : List Nat) (r : Nat) : Prop :=
  let signed := fun (v : Nat) => (BitVec.ofNat (collWidth x) v).toInt
  let canon := fun (f : FFmt) (v : Nat) => if (meaning f v).isNan then quietNan f else v
  let float := fun (f : FFmt) => (∀ a, vs = [a] → r = canon f a) ∧ ∀ a b, vs = [a, b] → ∃ fl,
    if x.op = 0 then Delivers f 0 ((meaning f a).plus 0 (meaning f b)) r fl else Chooses f (x.op = 1) a b r fl
  match x.type with
  | 0 => float fp32
  | 1 => float fp16
  | 2 => float bf16
  | _ =>
    if x.op = 0 then r = vs.sum % 2 ^ collWidth x
    else if x.type = 11 ∨ x.type = 13 then
      r ∈ vs ∧ ∀ v ∈ vs, if x.op = 1 then signed v ≤ signed r else signed r ≤ signed v
    else r ∈ vs ∧ ∀ v ∈ vs, if x.op = 1 then v ≤ r else r ≤ v

end Sys2Proof.Claims

open Sys2Proof Sys2Proof.Machine Sys2Proof.Claims

/-- R98, R234, R236, R237, R239: CPY, GATH, SCAT and PFD at issue. Which free handle number is taken is log 8. -/
def Obligations.EngineIssue : Prop :=
  (∀ (f : FmtCpy) (s : State), Ready (.cpy f) s →
    let x := s.reader (.cpy f)
    let m := x.execMask f.p.toNat
    (m = 0 → NothingCopied (.cpy f) s f.d.toNat) ∧
    (m ≠ 0 → EngineIssued (.cpy f) s f.d.toNat
      { kind := .cpy, g := s.cur, wg := x.wg, handle := 0
        runs := (lanesOf m).map (fun l => ⟨l, l, 1, 4 * 2 ^ f.z.toNat, x.readV2 f.a.toNat l, x.readV2 f.b.toNat l⟩)
        performed := [], lines := [], wrote := [], parkSeq := none, cancelled := false, deadline := 0, issued := [] })) ∧
  (∀ row ∈ [(Instr.gath, EngKind.gath), (Instr.scat, EngKind.scat)], ∀ (f : FmtGath) (s : State), Ready (row.1 f) s →
    let x := s.reader (row.1 f)
    let m := x.execMask f.p.toNat
    let table := x.readS2 f.a.toNat
    let packed := x.readS2 (f.a.toNat + 2)
    let rb := (x.readS (f.a.toNat + 4)).toNat
    let pitch := (x.readS (f.a.toNat + 5)).toNat
    let legal := table.toNat % 4 = 0 ∧ packed.toNat % 4 = 0 ∧ rb % 4 = 0 ∧ 4 ≤ rb ∧ rb ≤ 65536 ∧ pitch % 4 = 0
    let inTable := fun l => table + BitVec.ofNat 64 ((x.srcV f.b.toNat l).toNat * pitch)
    let inPack := fun l => packed + BitVec.ofNat 64 (l * rb)
    (¬ legal → Traps (row.1 f) s { trap := .engineOperand }) ∧
    (legal → m = 0 → NothingCopied (row.1 f) s f.d.toNat) ∧
    (legal → m ≠ 0 → scalarOk (s.seen (row.1 f)) 4 table → scalarOk (s.seen (row.1 f)) 4 packed →
      EngineIssued (row.1 f) s f.d.toNat
        { kind := row.2, g := s.cur, wg := x.wg, handle := 0
          runs := (lanesOf m).map (fun l => ⟨l, l * (rb / 4), rb / 4, 4,
            if row.2 = .scat then inTable l else inPack l, if row.2 = .scat then inPack l else inTable l⟩)
          performed := [], lines := [], wrote := [], parkSeq := none, cancelled := false, deadline := 0, issued := [] })) ∧
  ∀ (f : FmtDab) (s : State), Ready (.pfd f) s →
    let x := s.reader (.pfd f)
    let src := x.readS2 f.a.toNat
    let dst := x.readS2 f.b.toNat
    let w := (x.readS f.d.toNat).toNat
    let legal := w / 1048576 ≠ 0 ∧ src.toNat % 128 = 0 ∧ dst.toNat % 128 = 0
    (¬ legal → Traps (.pfd f) s { trap := .engineOperand }) ∧
    (legal → scalarOk (s.seen (.pfd f)) 128 src → scalarOk (s.seen (.pfd f)) 128 dst →
      EngineIssued (.pfd f) s f.d.toNat
        { kind := .pfd, g := s.cur, wg := x.wg, handle := 0, runs := [⟨0, 0, w / 1048576, 128, dst, src⟩]
          performed := [], lines := [], wrote := [], parkSeq := none, cancelled := false
          deadline := (s.die s.myDie).ck.toNat + 16 * (w % 1048576), issued := [] })

/-- R97, R98, R104, R234, R236, R238 to R241, R311 to R315: an element of a copy or of a PFD, one that parks or is a copy fault, with
the record that it writes, and the completion of an operation. That an element reads its source and writes its destination in one
step is log 41; that one of an X-class transfer is performed in the memory of a lost die is log 128. -/
def Obligations.EngineProgress : Prop :=
  (∀ (s : State) (op k : Nat) (o : EngOp) (e : Element) (src dst : Nat),
    Fmap.find s.engs op = some o → o.parkSeq = none → (s.wg o.wg).state ≠ .saved → k ∉ o.performed → o.element k = some e →
    let a := s.target o.wg e.src .engineRead
    let b := s.target o.wg e.dst .engineWrite
    (if o.kind = .pfd then k ∈ o.issued ∧ fillOk ((s.wg o.wg).core / 12) a b = true else o.cancelled = false) →
    s.elementEnd o e = none → a.loc? = some src → b.loc? = some dst → s.emptyLine [⟨none, e.src, a⟩] = false →
    s.poisoned src e.unit = false → s.poisonedTag o k e src dst = false → (s.ctx (s.ctxOf o.g)).race = 0 →
    e.unit ∈ [4, 8, 16, 32, 128] →
    ∃ t o', exec (.engineElement op k) s = .next t ∧ Fmap.find t.engs op = some o' ∧ k ∈ o'.performed ∧ k ∉ o'.issued ∧
      (∀ j, j ≠ k → (j ∈ o'.performed ↔ j ∈ o.performed)) ∧
      (∀ x, x < dst ∨ dst + e.unit ≤ x → t.byteAt x = s.byteAt x) ∧
      (∀ x, x / 64 * 64 + 64 ≤ dst ∨ dst + e.unit ≤ x / 64 * 64 → t.tagAt x = s.tagAt x) ∧
      ((∀ p, Fmap.find o.wrote dst = some p → p.lane ≤ e.lane) → e.unit = 128 → src % 128 = 0 → dst % 128 = 0 → o.left = [k] →
        ∀ j, j < 2 → t.tagAt (dst + 64 * j) = s.tagAt (src + 64 * j)) ∧
      ((∀ p, Fmap.find o.wrote dst = some p → p.lane ≤ e.lane) → ∀ j, j < e.unit → t.byteAt (dst + j) = s.byteAt (src + j)) ∧
      t.groups = s.groups ∧ t.done = s.done) ∧
  (∀ (s : State) (op k : Nat) (o : EngOp) (e : Element),
    Fmap.find s.engs op = some o → o.parkSeq = none → (s.wg o.wg).state ≠ .saved → k ∉ o.performed → o.element k = some e →
    (∀ c va, o.kind ≠ .pfd → o.cancelled = false → s.elementEnd o e = some (.park c va) →
      let n := (s.wg o.wg).ctx
      let q := (s.ctx n).seq
      let u := s.recordG o.g 4 (match c with | .noncanon => 1 | .notmapped => 2 | .malformed => 3 | .permission => 4) 3 va.toNat
        (q * 2 ^ 44 + o.handle * 2 ^ 32 + o.left.headD 0)
      ∃ t, exec (.engineElement op k) s = .next t ∧ t = { u with engs := t.engs, ctxs := t.ctxs } ∧
        Fmap.find t.engs op = some { o with parkSeq := some q } ∧ (∀ j, j ≠ op → Fmap.find t.engs j = Fmap.find s.engs j) ∧
        t.ctx n = { u.ctx n with seq := (q + 1) % 1048576 } ∧ ∀ j, j ≠ n → t.ctx j = u.ctx j) ∧
    (let fails := fun (sub : Nat) (va : Dword) => s.elementEnd o e = some (.fault sub va) ∨
       (sub = 8 ∧ va = e.src ∧ s.elementEnd o e = none ∧ ∃ src dst, (s.target o.wg e.src .engineRead).loc? = some src ∧
         (s.target o.wg e.dst .engineWrite).loc? = some dst ∧ s.emptyLine [⟨none, e.src, s.target o.wg e.src .engineRead⟩] = false ∧
         (s.poisoned src e.unit = true ∨ s.poisonedTag o k e src dst = true))
     let fatal := fun (u : State) (sub : Nat) (va : Dword) =>
       (u.recordG o.g 5 sub 3 va.toNat (if o.kind = .xput ∨ o.kind = .xget then 0 else o.handle)).terminate o.wg
     let x := s.group o.g
     ∀ sub va, o.kind ≠ .pfd → o.cancelled = false → fails sub va → Fmap.risingFrom 0 s.engs = true →
       (s.wg o.wg).state ≠ .ended → (s.wg o.wg).state ≠ .terminated →
       (x.region = none → exec (.engineElement op k) s = .next (fatal s sub va)) ∧
       ∀ r, x.region = some r → x.status = .live → x.rollbackDue = false → Trap.dieLost ∉ x.pendTraps →
         (sub = 8 → 15 ≤ x.rollbacks →
           exec (.engineElement op k) s = .next (fatal (s.recordG o.g 21 1 0 0 r.restart.toNat) sub va)) ∧
         (sub ≠ 8 ∨ x.rollbacks < 15 → s.matrixBusy o.g = false → x.wait = none →
           ∃ t, exec (.engineElement op k) s = .next t ∧ Fmap.find t.engs op = none ∧ Fmap.find t.done op = some 1 ∧
             t.mem = s.mem ∧ t.wgs = s.wgs ∧ (∀ h, h ≠ o.g → t.group h = s.group h) ∧
             let y := t.group o.g
             y.pc = r.restart ∧ y.v = r.v ∧ y.s = r.s ∧ y.m = r.m ∧ y.flags = r.flags ∧ y.bundle = none ∧
               y.rollbacks = if sub = 8 then x.rollbacks + 1 else x.rollbacks)) ∧
    ∀ sub va, o.kind = .pfd → k ∈ o.issued → s.elementEnd o e = some (.fault sub va) →
      ∃ t, exec (.engineElement op k) s = .next t ∧ t = { s with engs := t.engs } ∧
        Fmap.find t.engs op = some { o with cancelled := true, issued := o.issued.filter (fun i => i != k) } ∧
        ∀ j, j ≠ op → Fmap.find t.engs j = Fmap.find s.engs j) ∧
  ∀ (s : State) (op : Nat) (o : EngOp), Fmap.find s.engs op = some o →
    (o.kind ≠ .xput → o.kind ≠ .xget →
      let ended := fun (w : Word) => exec (.engineCompletion op) s =
        .next { s.releaseLines o with engs := Fmap.erase s.engs op, done := Fmap.insert s.done op w }
      (o.cancelled = false → o.left = [] → ended 0) ∧ (o.cancelled = true → o.issued = [] → ended 1) ∧
      ((o.cancelled = false ∧ o.left ≠ [] ∨ o.cancelled = true ∧ o.issued ≠ []) → exec (.engineCompletion op) s = .next s)) ∧
    ((s.wg o.wg).state = .saved → ∀ k, exec (.engineElement op k) s = .next s)

/-- R249, R250, R252: XPUT, XGET, COLL and CABORT at issue. A COLL keeps the fabric set that it is issued under;
instances are counted per context (log 27), and an NPART above 256 is kept as written (log 111). -/
def Obligations.ExchangeIssue : Prop :=
  (∀ row ∈ [(Instr.xput, EngKind.xput, 0), (Instr.xget, EngKind.xget, 1)], ∀ (f : FmtX) (s : State) (e : XSlot), Ready (row.1 f) s →
    s.myWg.kern.slots[f.s.toNat]? = some e → e.kind = row.2.2 →
    let x := s.reader (row.1 f)
    let dst := x.readS2 f.a.toNat
    let src := x.readS2 f.b.toNat
    let n := (x.srcS f.c.toNat).toNat
    let o : EngOp := { kind := row.2.1, g := s.cur, wg := x.wg, handle := 0, runs := [⟨0, 0, n / 4, 4, dst, src⟩]
                       performed := [], lines := [], wrote := [], parkSeq := none, cancelled := false, deadline := 0
                       issued := [] }
    let m := (s.seen (row.1 f)).linesOf x.wg o
    (e.max < n ∨ n % 4 ≠ 0 → Traps (row.1 f) s { trap := .xferBound }) ∧
    (n ≤ e.max → n % 4 = 0 → scalarOk (s.seen (row.1 f)) 4 dst → scalarOk (s.seen (row.1 f)) 4 src →
      (n = 0 → Becomes (row.1 f) s s x (nextPc x.pc) false) ∧
      (n ≠ 0 → (s.seen (row.1 f)).linesFit m = false → Stalls (row.1 f) s .limit) ∧
      (n ≠ 0 → (s.seen (row.1 f)).linesFit m = true → Becomes (row.1 f) s
        { (s.seen (row.1 f)).takeLines m with engs := Fmap.insert s.engs s.nextId { o with lines := m }, nextId := s.nextId + 1 }
        x (nextPc x.pc) false))) ∧
  (∀ (f : FmtX) (s : State) (e : XSlot), Ready (.coll f) s → s.myWg.kern.slots[f.s.toNat]? = some e → 2 ≤ e.kind → e.kind ≤ 6 →
    (e.type ≤ 2 ∨ 11 ≤ e.type ∧ e.type ≤ 14) →
    let x := s.reader (.coll f)
    let dst := x.readS2 f.a.toNat
    let src := x.readS2 f.b.toNat
    let w := (x.srcS f.c.toNat).toNat
    let rank := w / 16777216
    let n := w % 16777216
    let c := s.ctx s.myCtx
    let npart := c.coll.toNat % 512
    let legal := rank < npart ∧ n ≤ e.max ∧ e.countOk n npart = true
    let inst := Fmap.get 0 c.collCount (256 * f.s.toNat + rank) + 1
    (¬ legal → Traps (.coll f) s { trap := .xferBound }) ∧
    (legal → scalarOk (s.seen (.coll f)) 4 dst → scalarOk (s.seen (.coll f)) 4 src → Becomes (.coll f) s
      { s.setCtx s.myCtx { c with collCount := Fmap.insert c.collCount (256 * f.s.toNat + rank) inst } with
          colls := s.colls ++ [{ id := s.nextId, ctx := s.myCtx, fset := c.coll.toNat / 16777216, slot := f.s.toNat
                                 attempt := c.attempt f.s.toNat, inst := inst, rank := rank, count := n, data := none, here := some ⟨s.cur, x.wg, src, dst, npart, e⟩ }]
          nextId := s.nextId + 1 } x (nextPc x.pc) false)) ∧
  ∀ (f : FmtCabort) (s : State) (e : XSlot), Ready (.cabort f) s → s.myWg.kern.slots[f.s.toNat]? = some e → 2 ≤ e.kind → e.kind ≤ 6 →
    let c := s.ctx s.myCtx
    let j := f.s.toNat
    Becomes (.cabort f) s
      { s.setCtx s.myCtx { c with att := Fmap.insert c.att j (c.attempt j + 1)
                                  collCount := Fmap.select c.collCount (fun i _ => i / 256 != j) } with
          colls := s.colls.filter (fun p => !(p.ctx = s.myCtx && p.slot = j && p.attempt = c.attempt j)) }
      (s.reader (.cabort f)) (nextPc s.me.pc) false

/-- R118, R230, R249 to R251, R253, R279, R321: the ends of transfers, arriving packets, and the completion of a collective instance
with the bytes at every destination but those of workgroups terminated since; with unequal counts nothing is written but the record.
That OP codes above 2 act as min is log 84, and how instances are counted log 27. -/
def Obligations.ExchangeProgress : Prop :=
  (∀ (s : State) (op : Nat) (o : EngOp), Fmap.find s.engs op = some o → o.kind = .xput ∨ o.kind = .xget →
    (o.left = [] → exec (.xferCompletion op) s =
      .next { s.releaseLines o with engs := Fmap.erase s.engs op, done := Fmap.insert s.done op 0 }) ∧
    (o.left ≠ [] → exec (.xferCompletion op) s = .next s)) ∧
  (∀ (s : State) (p : CollPacket),
    let member := ∃ e ∈ s.acl, e.2.getLsbD 0 = true ∧ e.2.getLsbD 2 = true ∧ e.2.toNat / 281474976710656 = p.peer.toNat ∧
      e.2.toNat / 1099511627776 % 256 = p.fset.toNat
    (¬ member → exec (.collectiveIngress p) s = .next s) ∧
    (member → ∃ t, exec (.collectiveIngress p) s = .next t ∧ t = { s with colls := t.colls, nextId := s.nextId + 1 } ∧
      (∀ c ∈ s.colls, c ∈ t.colls) ∧ (∀ c ∈ t.colls, c ∈ s.colls ∨ c.id = s.nextId ∧ c.here = none ∧ c.data = some p.data) ∧
      ∀ k c, Fmap.find s.ctxs k = some c → c.state ≠ .free →
        (c.coll.toNat / 16777216 = p.fset.toNat ∨ ∃ d ∈ s.colls, d.ctx = k ∧ d.here ≠ none ∧ d.fset = p.fset.toNat) →
        (c.attempt p.slot.toNat = p.attempt ∨ 32768 ≤ (c.attempt p.slot.toNat - p.attempt).toNat) →
        (⟨s.nextId, k, p.fset.toNat, p.slot.toNat, p.attempt, p.inst, p.rank.toNat, p.data.length, some p.data, none⟩ : Contribution)
          ∈ t.colls)) ∧
  (∀ (s : State) (c : Contribution) (l : Local), s.colls.find? (fun d => d.id = c.id) = some c → c.here = some l →
    let ms := s.colls.filter (fun d => d.same c && d.data.isSome)
    let rest := s.colls.filter (fun d => !d.same c)
    let whole := c.attempt = (s.ctx c.ctx).attempt c.slot ∧ ∀ r, r < l.npart → ∃ d ∈ ms, d.rank = r
    (¬ whole → exec (.collectiveCompletion c.id) s = .next s) ∧
    (whole → (∃ d ∈ ms, d.count ≠ c.count) → exec (.collectiveCompletion c.id) s =
      .next (({ s with colls := rest } : State).record c.ctx 14 c.slot noCore 0 noWg 0 c.attempt.toNat)) ∧
    (whole → (∀ d ∈ ms, d.count = c.count) → (∀ d ∈ ms, Receives s l.npart c.count d) →
      (∀ d ∈ ms, ∀ d' ∈ ms, ∀ j j' a, ResultAt s c.count d j a → ResultAt s c.count d' j' a → d = d' ∧ j = j') →
      ∃ t, exec (.collectiveCompletion c.id) s = .next t ∧ t.colls = rest ∧ t.groups = s.groups ∧
        (∀ d ∈ ms, ∀ h, d.here = some h → ∀ j a, ResultAt s c.count d j a → t.byteAt a = resultByte h d.rank c.count ms j) ∧
        ∀ a, (∀ d ∈ ms, ∀ j, ¬ ResultAt s c.count d j a) → t.byteAt a = s.byteAt a)) ∧
  ∀ (x : XSlot) (n : Nat) (ds : List (List Byte)), x.type ≤ 2 ∨ 11 ≤ x.type ∧ x.type ≤ 14 →
    let b := collWidth x / 8
    (∀ d ∈ ds, d.length = b * n) → ds ≠ [] →
    ∀ i, i < n → Combined x (ds.map (fun d => leNat ((d.drop (b * i)).take b)))
      ((numbers b (reduceAll x (b * n) ds) n).getD i 0)

/-- R81: the matrix sum is rounded once from the exact value. A product of integer elements that is zero has the sign of its factors
(log 119). -/
def Obligations.MatrixSum : Prop :=
  (∀ (rm : BitVec 2) (a b : List FVal) (acc : Nat),
    let val := fun (v : FVal) => match v with | .fin n m e => some ((if n then -1 else 1) * (m : ℚ) * (2 : ℚ) ^ e) | _ => none
    ∀ (xs ys : List ℚ) (z : ℚ), a.map val = xs.map some → b.map val = ys.map some → val (fp32.decode acc) = some z →
      xs.length = ys.length →
      let x := z + ((xs.zip ys).map (fun p => p.1 * p.2)).sum
      (x ≠ 0 → ∃ (n : Bool) (m : Nat) (e : Int), m ≠ 0 ∧ x = (if n then -1 else 1) * (m : ℚ) * (2 : ℚ) ^ e ∧
        dotRound rm a b acc = fp32.round rm n m e) ∧
      (x = 0 → (dotRound rm a b acc).2 = 0 ∧ (dotRound rm a b acc).1 % 2147483648 = 0)) ∧
  (∀ (rm : BitVec 2) (a b : List FVal) (acc : Nat), acc < 4294967296 →
    SumRounds rm (a.map numberOf) (b.map numberOf) (meaning fp32 acc) (dotRound rm a b acc).1 (dotRound rm a b acc).2) ∧
  ∀ (s : State) (op : Nat) (o : MOp) (q : Nat) (qs : List Nat), CompletesNext s op o → RowsRead o (s.group o.g) →
    o.kind ∈ [MOpKind.mma, .mmas, .mmat, .mmax] → o.exec ≠ 0 → o.noEngine = false → s.quadsFor o = some (q :: qs) →
    ∃ t, exec (.matrixOperationCompletion op) s = .next t ∧
      ∀ i j, o.exec.getLsbD i = true → j < 32 → ∃ fl,
        ElementUpdated o.rm (productRowA s o i) (productRowB s o i j) ((s.group o.g).readAcc o.acc i j)
          ((t.group o.g).readAcc o.acc i j) fl ∧
        (o.quiet = false → (t.group o.g).flag i &&& fl = fl)

/-- R256 to R261, R264 to R267, R270, R312: the issue of the matrix instructions, and the checks that trap. The address that a descriptor's
trap reports is the window address of its base (log 23). That MRD fills its registers as soon as no earlier
operation on its tile is left, at once where there is none, is log 68; the order inside check 6 is log 112; that MRD counts among
the operations that the limits allow is log 113; a last-read bit under a zero execute mask is log 70. -/
def Obligations.MatrixIssue : Prop :=
  (∀ (f : FmtMma) (s : State), Ready (.mma f) s →
    let x := s.reader (.mma f)
    let m := x.execMask f.p.toNat
    (lanesOf m = [] → m = 0 → MatrixIdle (.mma f) s) ∧
    (lanesOf m ≠ [] → (s.core s.myCore).fenced = 15 → Traps (.mma f) s { trap := .matrixFenced }) ∧
    (lanesOf m ≠ [] → (s.core s.myCore).fenced ≠ 15 → MatrixIssued (.mma f) s true f.c.toNat
      { (s.seen (.mma f)).newMop .mma f.c m with
          quiet := f.q = 1, ta := f.x.toNat, tb := f.y.toNat
          rowsA := (List.range x.width).map (fun i => (List.range 16).flatMap (fun r => leBytes 4 (x.readV (f.a.toNat + r) i).toNat))
          rowsB := (List.range 32).map (fun i => (List.range 16).flatMap (fun r => leBytes 4 (x.readV (f.b.toNat + r) i).toNat)) })) ∧
  (∀ (f : FmtMma) (s : State) (a b : MDesc), Ready (.mmas f) s →
    let x := s.reader (.mmas f)
    let m := x.execMask f.p.toNat
    let ds := (s.seen (.mmas f)).descs false [(x.rawDesc f.a.toNat, lanesOf m), (x.rawDesc f.b.toNat, List.range 32)]
    (m = 0 → MatrixIdle (.mmas f) s) ∧
    (m ≠ 0 → DescriptorStops (.mmas f) s false [(x.rawDesc f.a.toNat, lanesOf m), (x.rawDesc f.b.toNat, List.range 32)]) ∧
    (m ≠ 0 → ds = .ok [a, b] → (s.core s.myCore).fenced = 15 → Traps (.mmas f) s { trap := .matrixFenced }) ∧
    (m ≠ 0 → ds = .ok [a, b] → (s.core s.myCore).fenced ≠ 15 → MatrixIssued (.mmas f) s true f.c.toNat
      { (s.seen (.mmas f)).newMop .mmas f.c m with
          quiet := f.q = 1, ta := f.x.toNat, tb := f.y.toNat, descA := a, descB := b })) ∧
  (∀ (f : FmtMmat) (s : State) (a b : MDesc), Ready (.mmat f) s →
    let x := s.reader (.mmat f)
    let m := x.execMask f.p.toNat
    let ds := (s.seen (.mmat f)).descs true [(x.rawDesc f.a.toNat, lanesOf m), (x.rawDesc f.b.toNat, List.range 32)]
    (m = 0 → MatrixIdle (.mmat f) s) ∧
    (m ≠ 0 → DescriptorStops (.mmat f) s true [(x.rawDesc f.a.toNat, lanesOf m), (x.rawDesc f.b.toNat, List.range 32)]) ∧
    (m ≠ 0 → ds = .ok [a, b] → (s.core s.myCore).fenced = 15 → Traps (.mmat f) s { trap := .matrixFenced }) ∧
    (m ≠ 0 → ds = .ok [a, b] → (s.core s.myCore).fenced ≠ 15 → MatrixIssued (.mmat f) s true f.c.toNat
      { (s.seen (.mmat f)).newMop .mmat f.c m with quiet := f.q = 1, descA := a, descB := b })) ∧
  (∀ (f : FmtMma) (s : State) (a p q : MDesc), Ready (.mmax f) s →
    let x := s.reader (.mmax f)
    let m := x.execMask f.p.toNat
    let bnd := (x.readS (f.b.toNat + 4)).toNat
    let o := { (s.seen (.mmax f)).newMop .mmax f.c m with quiet := f.q = 1, ta := f.x.toNat, tb := f.y.toNat, bound := bnd }
    let A := (x.rawDesc f.a.toNat, lanesOf m)
    let B := (x.rawDesc f.b.toNat, List.range 32)
    let C := (x.rawDesc (f.b.toNat + 2), List.range 32)
    (m = 0 → MatrixIdle (.mmax f) s) ∧
    (m ≠ 0 → DescriptorStops (.mmax f) s false (A :: ((if (lanesOf m).any (fun i => i < bnd) then [B] else []) ++
      (if (lanesOf m).any (fun i => bnd ≤ i) then [C] else [])))) ∧
    ((s.core s.myCore).fenced ≠ 15 → (∃ i ∈ lanesOf m, i < bnd) → (∃ i ∈ lanesOf m, bnd ≤ i) →
      (s.seen (.mmax f)).descs false [A, B, C] = .ok [a, p, q] →
      MatrixIssued (.mmax f) s true f.c.toNat { o with descA := a, descB := p, descC := q }) ∧
    ((s.core s.myCore).fenced ≠ 15 → lanesOf m ≠ [] → (∀ i ∈ lanesOf m, i < bnd) →
      (s.seen (.mmax f)).descs false [A, B] = .ok [a, p] → MatrixIssued (.mmax f) s true f.c.toNat { o with descA := a, descB := p }) ∧
    ((s.core s.myCore).fenced ≠ 15 → lanesOf m ≠ [] → (∀ i ∈ lanesOf m, bnd ≤ i) →
      (s.seen (.mmax f)).descs false [A, C] = .ok [a, q] → MatrixIssued (.mmax f) s true f.c.toNat { o with descA := a, descC := q }) ∧
    ((s.core s.myCore).fenced = 15 → lanesOf m ≠ [] →
      ((∃ i ∈ lanesOf m, i < bnd) → (∃ i ∈ lanesOf m, bnd ≤ i) → (s.seen (.mmax f)).descs false [A, B, C] = .ok [a, p, q]) →
      ((∀ i ∈ lanesOf m, i < bnd) → (s.seen (.mmax f)).descs false [A, B] = .ok [a, p]) →
      ((∀ i ∈ lanesOf m, bnd ≤ i) → (s.seen (.mmax f)).descs false [A, C] = .ok [a, q]) →
      Traps (.mmax f) s { trap := .matrixFenced })) ∧
  (∀ (f : FmtMzero) (s : State), Ready (.mzero f) s →
    let m := (s.reader (.mzero f)).execMask f.p.toNat
    (lanesOf m = [] → MatrixIdle (.mzero f) s) ∧
    (lanesOf m ≠ [] → MatrixIssued (.mzero f) s true f.c.toNat ((s.seen (.mzero f)).newMop .mzero f.c m))) ∧
  (∀ (f : FmtMldst) (s : State) (d : MDesc), Ready (.mld f) s →
    let x := s.reader (.mld f)
    let m := x.execMask f.p.toNat
    (m ≠ 0 → TileStops (.mld f) s (x.readS2 f.x.toNat) m false) ∧
    (m = 0 → MatrixIdle (.mld f) s) ∧
    (m ≠ 0 → (s.seen (.mld f)).tileRows (x.readS2 f.x.toNat) m false = .ok d →
      MatrixIssued (.mld f) s true f.c.toNat { (s.seen (.mld f)).newMop .mld f.c m with descA := d })) ∧
  (∀ (f : FmtMldst) (s : State) (d : MDesc), ReadyBeside (.mst f) s →
    let x := s.reader (.mst f)
    let S := s.seen (.mst f)
    let m := x.execMask f.p.toNat
    (m ≠ 0 → TileStops (.mst f) s (x.readS2 f.x.toNat) m true) ∧
    (m = 0 → TileIdle (.mst f) s { x with batchOpen := true } f.c.toNat) ∧
    (m ≠ 0 → S.tileRows (x.readS2 f.x.toNat) m true = .ok d →
      (S.mopLimit = true → Stalls (.mst f) s .limit) ∧
      (S.mopLimit = false → HasRoom (.mst f) s 0 0 → ∃ t, KeepsTile (.mst f) s
        { s with mops := Fmap.insert s.mops s.nextId { S.newMop .mst f.c m with descA := d, frees := x.freesTile }, nextId := s.nextId + 1 }
        { x with batchOpen := true } f.c.toNat [] t))) ∧
  (∀ (f : FmtMrw) (s : State), Ready (.mwr f) s →
    let x := s.reader (.mwr f)
    let m := x.execMask f.p.toNat
    let c := (x.srcS f.y.toNat).toNat
    (m = 0 → MatrixIdle (.mwr f) s) ∧
    (m ≠ 0 → 31 < c → Traps (.mwr f) s { trap := .matrixOperand }) ∧
    (lanesOf m ≠ [] → c ≤ 31 → MatrixIssued (.mwr f) s true f.c.toNat
      { (s.seen (.mwr f)).newMop .mwr f.c m with col := c, vals := (List.range x.width).map (x.srcV f.x.toNat) })) ∧
  ∀ (f : FmtMrw) (s : State), ReadyBeside (.mrd f) s →
    let x := s.reader (.mrd f)
    let m := x.execMask f.p.toNat
    let c := (x.srcS f.y.toNat).toNat
    (m = 0 → TileIdle (.mrd f) s x f.c.toNat) ∧
    (m ≠ 0 → 31 < c → Traps (.mrd f) s { trap := .matrixOperand }) ∧
    (m ≠ 0 → c ≤ 31 → (s.seen (.mrd f)).mopLimit = true → Stalls (.mrd f) s .limit) ∧
    (m ≠ 0 → c ≤ 31 → (s.seen (.mrd f)).mopLimit = false → HasRoom (.mrd f) s (hitQuarters x.width m).length 0 →
      (∀ p ∈ s.mops, p.2.g ≠ s.cur) → (∃ l, l < 128 ∧ m.getLsbD l = true ∧ x.badV (64 + 32 * f.c.toNat + c) l = true) →
      exec (.mrd f) s = .next ((s.seen (.mrd f)).uncorrectable s.cur 2 0)) ∧
    (m ≠ 0 → c ≤ 31 → (s.seen (.mrd f)).mopLimit = false → HasRoom (.mrd f) s (hitQuarters x.width m).length 0 →
      (∀ p ∈ s.mops, p.2.g ≠ s.cur) → (∀ l, m.getLsbD l = true → x.badV (64 + 32 * f.c.toNat + c) l = false) →
      x.rollbackDue = false → x.status = .live →
      ∃ t bs, Does (.mrd f) s { s with nextId := s.nextId + 1, mops := t.mops, pend := t.pend } { x with batches := bs } (nextPc x.pc)
          false { v := [f.x.toNat] } t ∧
        bs.map (fun b => (b.n, b.status)) = x.batches.map (fun b => (b.n, b.status)) ∧
        (∀ k, k ≠ s.nextId → Fmap.find t.mops k = Fmap.find s.mops k ∧ Fmap.find t.pend k = Fmap.find s.pend k) ∧
        Fmap.find t.mops s.nextId = none ∧ Fmap.find t.pend s.nextId = none ∧
        ∀ l, x.hasLane l → (t.group s.cur).readV f.x.toNat l =
          if m.getLsbD l then x.readAcc f.c.toNat l c else x.readV f.x.toNat l) ∧
    (m ≠ 0 → c ≤ 31 → (s.seen (.mrd f)).mopLimit = false → HasRoom (.mrd f) s (hitQuarters x.width m).length 0 →
      (∃ p ∈ s.mops, p.1 < s.nextId ∧ p.2.g = s.cur ∧ p.2.acc = f.c.toNat) →
      ∃ t o e, KeepsTile (.mrd f) s
          { s with nextId := s.nextId + 1, mops := Fmap.insert s.mops s.nextId o, pend := Fmap.insert s.pend s.nextId e } x f.c.toNat
          [f.x.toNat] t ∧
        o.frees = x.freesTile ∧ o.kind = .mrd ∧ o.g = s.cur ∧ o.acc = f.c.toNat ∧ o.exec = m ∧ o.col = c ∧ o.batch = none ∧ e.kind = .slow ∧
        ∀ l, x.hasLane l → (t.group s.cur).readV f.x.toNat l = x.readV f.x.toNat l)

/-- R81, R254, R255, R257, R260 to R263, R265, R268, R270, R271: what a matrix operation does when it completes, alone in its group:
the rows of its tile, the flags of its lanes, and the bits that it adds to its batch's status, which are kept before the batch is
closed too (log 64); the bytes that MST stores, and the registers that MRD allocated at its issue. A decode fault of a column row
counts although the A row that reads it has a tag fault (log 114), a tag fault of column row 0 sets TAGFAULT alone (log 120), and the
rows of an MST beside one that is a copy fault are stored (log 121). -/
def Obligations.MatrixCompletion : Prop :=
  ∀ (s : State) (op : Nat) (o : MOp), CompletesNext s op o →
    let x := s.group o.g
    let old := x.readAcc o.acc
    let done := fun (new : Nat → Nat → Word) (fl : Nat → Flags) (st : Word) =>
      ∃ t, exec (.matrixOperationCompletion op) s = .next t ∧ Fmap.find t.mops op = none ∧
        (∀ l c, x.hasLane l → c < 32 → (t.group o.g).readAcc o.acc l c = if o.exec.getLsbD l then new l c else old l c) ∧
        (∀ r l, (r < 64 + 32 * o.acc ∨ 96 + 32 * o.acc ≤ r) → (t.group o.g).readV r l = x.readV r l) ∧
        (∀ l, (t.group o.g).flag l = if o.exec.getLsbD l then x.flag l ||| fl l else x.flag l) ∧
        StatusJoined x (t.group o.g) (o.batch.getD 0) st ∧
        (let y := t.group o.g
         y = { x with v := y.v, flags := y.flags, batches := y.batches, openStatus := y.openStatus }) ∧
        (∀ h, h ≠ o.g → t.group h = s.group h) ∧ ∀ a, t.byteAt a = s.byteAt a
    let product := o.kind ∈ [MOpKind.mma, .mmas, .mmat, .mmax] ∧ o.exec ≠ 0
    (o.kind = .mzero → done (fun _ _ => 0) (fun _ => 0) 0) ∧
    (o.kind = .mwr → done (fun l c => if c = o.col then o.vals.getD l 0 else old l c) (fun _ => 0) 0) ∧
    (o.kind = .mld → done (fun l c => BitVec.ofNat 32 (s.natAt (o.descA.loc + 128 * l + 4 * c) 4)) (fun _ => 0) 0) ∧
    (∀ q qs, product → o.noEngine = false → s.quadsFor o = some (q :: qs) →
      RowsRead o x →
      let some_ := fun (P : DecodedRow → Bool) (l : Nat) => P (productRowA s o l) || (List.range 32).any (fun c => P (productRowB s o l c))
      let any_ := fun (P : DecodedRow → Bool) => (lanesOf o.exec).any (some_ P)
      ∃ (new : Nat → Nat → Word) (fl : Nat → Nat → Flags),
        (∀ l, o.exec.getLsbD l = true → ∀ c, c < 32 →
          ElementUpdated o.rm (productRowA s o l) (productRowB s o l c) (old l c) (new l c) (fl l c)) ∧
        done new
          (fun l => if o.quiet then 0
            else (List.range 32).foldl (fun e c => e ||| fl l c) 0 ||| when (some_ (fun r => r.fault || r.elems.isNone) l = true) flagNV)
          ((if any_ (fun r => r.elems.isNone) then 2 else 0) ||| if any_ (·.fault) then 4 else 0)) ∧
    (product → o.noEngine = true ∨ s.quadsFor o = some [] → done old (fun _ => 0) 8) ∧
    (o.kind = .mst → (∀ i, o.exec.getLsbD i = true →
        (s.lineAt (o.descA.loc + 128 * i)).barrier = false ∧ (s.lineAt (o.descA.loc + 128 * i)).queue = false) →
      ∃ t, exec (.matrixOperationCompletion op) s = .next t ∧
        (∀ i c k, i < 128 → o.exec.getLsbD i = true → c < 32 → k < 4 →
          t.byteAt (o.descA.loc + 128 * i + 4 * c + k) = byteOf (old i c).toNat k) ∧
        (∀ a, (∀ i, o.exec.getLsbD i = true → a < o.descA.loc + 128 * i ∨ o.descA.loc + 128 * i + 128 ≤ a) → t.byteAt a = s.byteAt a) ∧
        Fmap.find t.mops op = none ∧ t.group o.g = { x with batches := (t.group o.g).batches } ∧
        StatusJoined x (t.group o.g) (o.batch.getD 0) 0 ∧ ∀ h, h ≠ o.g → t.group h = s.group h) ∧
    (o.kind = .mrd → o.batch = none → ∃ t, exec (.matrixOperationCompletion op) s = .next t ∧
        Fmap.find t.mops op = none ∧ Fmap.find t.pend op = none ∧
        t.group o.g = { x with v := (t.group o.g).v, batches := (t.group o.g).batches } ∧ StatusJoined x (t.group o.g) 0 0 ∧
        (∀ h, h ≠ o.g → t.group h = s.group h) ∧ (∀ a, t.byteAt a = s.byteAt a) ∧
        ∀ k sl, Fmap.find x.v k = some sl →
          (64 ≤ k / 16 ∨ sl.id ∉ o.fills.map (·.2) → Fmap.find (t.group o.g).v k = some sl) ∧
          ∀ q, k / 16 < 64 → (q, sl.id) ∈ o.fills → (o.fills.map (·.2)).Nodup →
            ∃ z, Fmap.find (t.group o.g).v k = some z ∧ z.id = sl.id ∧
              ∀ i, i < 8 → z.val.getD i 0 = if o.exec.getLsbD (8 * q + i) then old (8 * q + i) o.col else sl.val.getD i 0)

namespace Sys2Proof.Claims

open Sys2Proof.Machine

/-- What every step keeps: the canonical form of memory, and groups listed in the order of their numbers. -/
def Kept (s : State) : Prop := memWf s.mem = true ∧ Fmap.risingFrom 0 s.groups = true

/-- The hint words (R133 to R137), which make none of the checks at issue. -/
def IsHint (i : Instr) : Prop :=
  (∃ f, i = .hlr f) ∨ (∃ f, i = .hrun f) ∨ (∃ f, i = .himm f) ∨ (∃ f, i = .hmod f) ∨ ∃ f, i = .hsig f

/-- The instructions that name an exchange slot, with the slot and what its entry must be (R144, R249, R250, R252). -/
inductive NeedsSlot : Instr → BitVec 6 × (XSlot → Prop) → Prop
  | xput (f : FmtX) : NeedsSlot (.xput f) (f.s, fun e => e.kind = 0)
  | xget (f : FmtX) : NeedsSlot (.xget f) (f.s, fun e => e.kind = 1)
  | coll (f : FmtX) :
      NeedsSlot (.coll f) (f.s, fun e => 2 ≤ e.kind ∧ e.kind ≤ 6 ∧ (e.type ≤ 2 ∨ 11 ≤ e.type ∧ e.type ≤ 14))
  | cabort (f : FmtCabort) : NeedsSlot (.cabort f) (f.s, fun e => 2 ≤ e.kind ∧ e.kind ≤ 6)

/-- The checks at issue, in their order (R55, R146, R220, R264): the encoding, with `slotOk` for the slot that it names; the class
in the superstep state (R37); operands whose results are not there, of which an operation that reads no operand under a zero
execute mask awaits none (R262); the latches (R67); an instruction that a region may not hold (R182). -/
def Guarded (i : Instr) (s : State) (slotOk : Prop) : Prop :=
  let n := Instr.info i
  let x := s.me
  let trap := fun (t : Trap) => exec i s = .next (s.preciseTrap s.cur { trap := t })
  let legal := encodingOk n x = true ∧ slotOk
  let inClass := classOk n.cls (s.core s.myCore).exchange (s.ctx s.myCtx).phased = true
  let there :=
    (n.idleReads = true ∨ x.execMask n.pred ≠ 0 → ∀ o ∈ n.srcs, s.srcBusy s.cur o = false) ∧
    ∀ o ∈ n.dsts, s.dstBusy s.cur o (x.execMask n.pred) = false
  let latches := ∀ o ∈ n.srcs, o.isLatch = true → (o.latch x).valid = true
  (¬ legal → trap .illegalOp) ∧
  (legal → ¬ inClass → trap .phaseIllegal) ∧
  (legal → inClass → ¬ there → exec i s = .next (s.setGroup s.cur { x with stall := some .result })) ∧
  (legal → inClass → there → ¬ latches → trap .latchStale) ∧
  (legal → inClass → there → latches → n.idemTrap = true → x.region ≠ none → trap .idemRegion)

/-- An operation in flight ends: it is no longer in flight, and nothing else changes (R57). -/
def Lands (i : Instr) (s : State) (op : Nat) : Prop :=
  ∃ t, exec i s = .next t ∧ t = { s with pend := t.pend } ∧ Fmap.find t.pend op = none ∧
    ∀ k, k ≠ op → Fmap.find t.pend k = Fmap.find s.pend k

/-- The address field of a trap's registers (R305): codes 9 to 12, 15 to 17 and 23. -/
def reported (t : TrapInfo) : Dword :=
  if t.trap.code ∈ [9, 10, 11, 12, 15, 16, 17, 23] then t.addr else 0

end Sys2Proof.Claims

open Sys2Proof Sys2Proof.Machine Sys2Proof.Claims

/-- R29, R30, R93, R96, R129, R146, R302: a step at which a group that may go on is chosen runs the instruction that the four
bytes at its program counter decode to, and counts the issue; a step at which an event is chosen runs the event; one clk passes
where nothing is chosen, but not while a group must issue in it (R32, R33). The agenda is the model's (log 2), and the choice
among candidates that are equally due is, too (log 67); that the delivery of an asynchronous trap takes a slot as an issue does is
log 117. A group that comes to wait ends its run (R32). A GFUSE that erases the group that issued it has used its slot. -/
def Obligations.StepRunsTheDecodedInstruction : Prop :=
  (∀ (s : State) (g : Nat) (rest : List Choice), s.agenda = .issue g :: rest →
    let r : State := { s with agenda := rest, cur := g }
    (r.admitted g = none → step s = .next r) ∧
    ∀ q, r.admitted g = some q →
      let x := q.group g
      let answers := fun (t : State) => step s = .next ((t.settleWait g).counted (s.coreOf g) g)
      (x.asyncDue = true → answers (q.takeAsync g)) ∧
      (x.asyncDue = false →
        (∀ pa cp mir res, q.target x.wg x.pc .fetch = .memory pa cp mir res →
          (∀ i t, decodeWord (BitVec.ofNat 32 (q.natAt pa 4)) = .ok i → exec i q = .next t → answers t) ∧
          (∀ e, decodeWord (BitVec.ofNat 32 (q.natAt pa 4)) = .error e → answers (q.preciseTrap g { trap := .illegalOp }))) ∧
        (q.target x.wg x.pc .fetch = .miss →
          answers ((q.askWalk g x.pc .fetch).modGroup g (fun y => { y with stall := some .walk }))) ∧
        ∀ c res, q.target x.wg x.pc .fetch = .fault c res → answers (q.translationFault g c .fetch x.pc))) ∧
  (∀ (s : State) (i : Instr) (rest : List Choice), s.agenda = .event i :: rest → i.hasWord = false → wf i = true →
    { s with agenda := rest }.lets i = true → step s = exec i { s with agenda := rest }) ∧
  (∀ s : State, (s.agenda = [] ∨ s.agenda.head? = some .clk) →
    (s.mustIssue = none → step s = .next { s with agenda := s.agenda.tail }.clk) ∧
    ∀ g, s.mustIssue = some g → step s = step { s with agenda := .issue g :: s.agenda }) ∧
  (∀ (s : State) (c l : Nat) (rest : List Choice), s.agenda = .dropLine c l :: rest →
    ∃ t, step s = .next t ∧ SameButL1 s t ∧ t = { s with agenda := rest, cores := t.cores }) ∧
  ∀ (t : State) (c g : Nat),
    let u := t.counted c g
    let k := t.core c
    let slot := u.core c = { k with slots := k.slots + 1, guard := k.guard.filter (fun i => i != g) } ∧ ∀ e, e ≠ c → u.core e = t.core e
    u = { t with groups := u.groups, cores := u.cores } ∧ (∀ h, h ≠ g → u.group h = t.group h) ∧
    (Fmap.find t.groups g = none → u.groups = t.groups ∧ slot) ∧
    ∀ x, Fmap.find t.groups g = some x →
      (x.stall = none → u.group g =
        { x with issued := true, poolHold := none, readySince := (u.group g).readySince
                 hrun := if x.wait.isSome then 0 else x.hrun } ∧ slot) ∧
      (x.stall ≠ none → u.group g = { x with hrun := 0, readySince := (u.group g).readySince } ∧ u.cores = t.cores)

/-- R129, R131, R139 to R145: a few words, written out from the encodings. -/
def Obligations.SpecWordsDecode : Prop :=
  decodeTableWord 32 0b00000101111100001111100000000110 = some (.sadd ⟨31, 3, 56, 1, 1⟩) ∧
  decodeTableWord 32 0b00010101011001110001111000011111 = some (.jmp ⟨23535135⟩) ∧
  decodeTableWord 32 0b00100011111000111100001110001111 = some (.vif ⟨7, 1, 1144, 911⟩) ∧
  decodeTableWord 32 0b01001101111100001100000011011101 = some (.vabsI32 ⟨31, 3, 1, 1, 1⟩) ∧
  decodeTableWord 32 0b01100001111100001110001111001101 = some (.vcvt ⟨31, 3, 8, 15, 1, 1, 1⟩) ∧
  decodeTableWord 32 0b10000001111100001111100011111011 = some (.vld ⟨31, 3, 56, 3, 1, 1, 1, 3⟩) ∧
  decodeTableWord 32 0b10010101111100001111100010101100 = some (.satomCas ⟨31, 3, 56, 1, 1⟩) ∧
  decodeTableWord 32 0b10101000000000000000000001111111 = some (.cabort ⟨31⟩) ∧
  decodeTableWord 32 0b11000011000011111000111001010001 = some (.mma ⟨3, 3, 56, 7, 1, 1, 1⟩) ∧
  decodeTableWord 32 0b11111000011001110001111000011111 = some (.hlr ⟨6757919⟩) ∧
  decodeTableWord 32 0b00000101111100001111100000000111 = none ∧ decodeTableWord 32 0 = none

/-- R130, R131: the decoder and the encoder agree, on every instruction that has a word and on every word that is an instruction. -/
def Obligations.DecodeAndEncodeAgree : Prop :=
  (∀ i : Instr, i.hasWord = true → decodeWord (BitVec.ofNat 32 i.encodeNat) = .ok i) ∧
  ∀ (w : Word) (i : Instr), decodeWord w = .ok i → i.hasWord = true ∧ encode i = [w]

/-- Every step keeps memory in its canonical form (log 3) and the groups in the order of their numbers (log 6). -/
def Obligations.StepsKeepTheForms : Prop := ∀ s t : State, Kept s → step s = .next t → Kept t

/-- R34, R119, R126, R277, R290, R296, R319, R325, R330, R332, R333: what reset leaves, in the values that the spec gives; and it has
the forms that every step keeps. That the power state is D0 is log 5. -/
def Obligations.ResetState : Prop :=
  let s := State.reset
  Kept s ∧ s.root.ph = 0 ∧ s.root.g = 0 ∧ s.root.wave = none ∧ s.root.stage = .rom ∧ s.root.fail = 0 ∧ s.root.snapSeq = 0 ∧
  s.root.snapPerm = 0 ∧ s.root.limit = 2400 ∧ s.root.power = .d0 ∧ s.groups = [] ∧
  (∀ d, (s.die d).ck = 0 ∧ (s.die d).alive = false ∧ (s.die d).sav0 = 0 ∧ (s.die d).sav1 = 0 ∧ (s.die d).retireQ = []) ∧
  (∀ c, (s.core c).ph = 0 ∧ (s.core c).cnt0 = 0 ∧ (s.core c).cnt1 = 0 ∧ (s.core c).limit = 0 ∧ (s.core c).fenced = 0 ∧
    (s.core c).firstTest = 15) ∧
  (∀ k, (s.ctx k).state = .free ∧ (s.ctx k).root = 0 ∧ (s.ctx k).trap = 0) ∧ (∀ q, (s.hq q).state = .disabled) ∧
  (∀ n, (s.node n).state = .idle) ∧ s.pwrctl.toNat / 2 ^ 48 = 0 ∧ (∀ c, s.rbdata c = 0) ∧ ∀ loc, (s.lineAt loc).full = true ∧ s.tagAt loc = 0x7F00

/-- R29, R37, R55, R67, R130, R146, R154, R182, R264: what keeps an instruction from doing its work at issue, in order. -/
def Obligations.IssueChecks : Prop :=
  (∀ (i : Instr) (s : State), i.hasWord = true → ¬ IsHint i → (∀ p, ¬ NeedsSlot i p) → Guarded i s True) ∧
  ∀ (i : Instr) (s : State) (k : BitVec 6) (p : XSlot → Prop), NeedsSlot i (k, p) →
    Guarded i s (∃ e, s.myWg.kern.slots[k.toNat]? = some e ∧ p e)

/-- R302, R304 to R308: taking a trap, and the termination of a workgroup, with what R253 and R274 say of it. R309, R310: the writing
of a record, whose 32 bytes lie at 32 locations of one page. That EN = 0 comes before a double trap is log 126. -/
def Obligations.TrapDelivery : Prop :=
  (∀ (s : State) (g : Nat) (x : Group) (t : TrapInfo), Fmap.find s.groups g = some x → (t.trap = .silentError → x.region = none) →
    let reg := (s.ctx (s.wg x.wg).ctx).trap
    let pc := match x.bundle with | some b => b.start | none => x.pc
    (reg.getLsbD 0 = true → x.handler = false → s.room x.wg 0 6 = true → x.wait = none →
      ∃ u, s.preciseTrap g t = u ∧ u = { s with groups := u.groups } ∧ (∀ h, h ≠ g → u.group h = s.group h) ∧
        let y := u.group g
        y.readS2 52 = pc ∧ y.readS 54 = BitVec.ofNat 32 (t.trap.code + 256 * t.imm.toNat) ∧ y.readS2 55 = reported t ∧
        y.readS 57 = (match t.lane with | some l => BitVec.ofNat 32 l | none => 0xFFFFFFFF) ∧
        (∀ n, n < 52 ∨ 57 < n → Fmap.find y.s n = Fmap.find x.s n) ∧ (∀ l ∈ y.sk ++ y.vk, l.valid = false) ∧
        y = { x with s := y.s, sk := y.sk, vk := y.vk, handler := true, pc := reg &&& 0x0FFFFFFFFFFFFF00, bundle := none
                     hlr := [], hrun := 0, stall := none }) ∧
    (reg.getLsbD 0 = true → x.handler = false → s.room x.wg 0 6 = false →
      s.preciseTrap g t = s.setGroup g { x with stall := some (.pool 0 6) }) ∧
    (reg.getLsbD 0 = false →
      s.preciseTrap g t = (s.recordG g 1 t.trap.code 0 (reported t).toNat pc.toNat).terminate x.wg) ∧
    (reg.getLsbD 0 = true → x.handler = true →
      s.preciseTrap g t = (s.recordG g 2 t.trap.code 0 (reported t).toNat pc.toNat).terminate x.wg)) ∧
  (∀ (s : State) (k : Nat), Fmap.risingFrom 0 s.groups = true → (s.wg k).state ≠ .ended → (s.wg k).state ≠ .terminated →
    let u := s.terminate k
    (u.wg k).state = .terminated ∧ (∀ j, j ≠ k → u.wg j = s.wg j) ∧
    (∀ g x, Fmap.find s.groups g = some x → x.wg = k → x.status = .live →
      (u.group g).status = .terminated ∧ (u.group g).s = [] ∧ (u.group g).v = [] ∧ (u.group g).wait = none) ∧
    (∀ g x, Fmap.find s.groups g = some x → x.wg = k → x.status = .exited →
      u.group g = { x with v := [], s := [], batches := [], batchOpen := false }) ∧
    (∀ c, c ∈ u.colls ↔ c ∈ s.colls ∧ ∀ l, c.here = some l → l.wg = k → c.data ≠ none) ∧
    (∀ g, (s.group g).wg ≠ k → (u.group g).status = (s.group g).status ∧ (u.group g).pc = (s.group g).pc ∧
      (u.group g).s = (s.group g).s ∧ (u.group g).v = (s.group g).v ∧ (u.group g).m = (s.group g).m) ∧
    (∀ p ∈ u.pend, p.2.wg ≠ k) ∧ (∀ p ∈ u.stores, p.2.wg ≠ k) ∧ (∀ p ∈ u.mops, p.2.wg ≠ k) ∧ ∀ p ∈ u.engs, p.2.wg ≠ k) ∧
  ∀ (s : State) (k kind sub core acc wg addr arg : Nat), kind < 256 → sub < 256 → core < 64 → acc < 4 → wg < 2 ^ 32 →
    addr < 2 ^ 64 → arg < 2 ^ 64 →
    let c := s.ctx k
    let n := c.fq.toNat % 16
    let slot : Dword := BitVec.ofNat 64 (c.fq.toNat / 4096 % 2 ^ 48 * 4096 + 32 * (c.fqTail % 2 ^ n))
    let place := fun (i : Nat) => (s.ctxTarget k 0 (slot + BitVec.ofNat 64 i) .store).loc?
    let full := (c.fqTail + 2 ^ 24 - c.fqHead) % 2 ^ 24 = 2 ^ n
    let writable := ∀ i, i < 32 → ∃ pa, place i = some pa ∧ (s.die (pa / 2 ^ 50 % 4)).lost = false
    let t := s.record k kind sub core acc wg addr arg
    (full ∨ ¬ writable → t = s.setCtx k { c with fqLost := min 65535 (c.fqLost + 1) }) ∧
    (¬ full → writable → (∀ i j, i < 32 → j < 32 → place i = place j → i = j) →
      t = { s with mem := t.mem, poison := t.poison, ctxs := t.ctxs, root := t.root } ∧
      t.ctx k = { c with fqTail := (c.fqTail + 1) % 2 ^ 24 } ∧ (∀ j, j ≠ k → t.ctx j = s.ctx j) ∧
      t.root = { s.root with vectors := t.root.vectors } ∧ (c.fq.getLsbD 11 = false → t.root = s.root) ∧
      (c.fq.getLsbD 11 = true → ∀ v, v ∈ t.root.vectors ↔ v = 1024 + k ∨ v ∈ s.root.vectors) ∧
      (∀ i pa, i < 32 → place i = some pa → t.byteAt pa =
        if i < 4 then byteOf (kind * 2 ^ 24 + sub * 2 ^ 16 + core * 2 ^ 10 + acc * 2 ^ 8) i
        else if i < 8 then byteOf wg (i - 4) else if i < 16 then byteOf addr (i - 8)
        else if i < 24 then byteOf arg (i - 16) else byteOf s.root.ph.toNat (i - 24)) ∧
      ∀ a, (∀ i, i < 32 → place i ≠ some a) → t.byteAt a = s.byteAt a)

/-- R29 to R34, R66: one clk. The pace of a slower die is log 6.
R57, R102, R160, R221, R226: results that arrive, and stores that are acknowledged. -/
def Obligations.ClockAndResults : Prop :=
  (∀ s : State, Fmap.risingFrom 0 s.groups = true → let t := s.clk
     (∀ d, d < 4 → (t.die d).ck = if s.ticks d = true then (s.die d).ck + 1 else (s.die d).ck) ∧
     (∀ g x, Fmap.find s.groups g = some x → x.status = .live → s.ticks (s.dieOf g) = true →
       let y := t.group g
       y = { (if x.issued then { x with issued := false } else x.dropLatches) with hrun := y.hrun, readySince := y.readySince } ∧
       (y.hrun = 0 ∨ x.issued = true ∧ y.hrun = x.hrun) ∧
       (x.issued = true → (t.core (s.coreOf g)).guard = [] → y.hrun = x.hrun) ∧
       ((s.wgOf g).state.onCore = true → (t.core (s.coreOf g)).guard ≠ [] → y.hrun = 0) ∧
       (y.readySince = x.readySince ∨ y.readySince = (t.die (s.dieOf g)).ck.toNat)) ∧
     (∀ g x, Fmap.find s.groups g = some x → (x.status ≠ .live ∨ s.ticks (s.dieOf g) = false) → t.group g = x) ∧
     (∀ c, (s.ticks (c / 12) = true →
         let k := t.core c
         k = { s.core c with slots := 0, guard := k.guard, weights := k.weights, cands := k.cands, issues := k.issues } ∧
         ((∃ g x, Fmap.find s.groups g = some x ∧ x.status = .live ∧ s.coreOf g = c) → k.guard.length ≤ 16) ∧
         (¬ 64 ∣ (t.die (c / 12)).ck.toNat →
           k.weights = (s.core c).weights ∧ k.cands = (s.core c).cands ∧ k.issues = (s.core c).issues)) ∧
       (s.ticks (c / 12) = false → t.core c = s.core c)) ∧
     t = { s with dies := t.dies, groups := t.groups, cores := t.cores, root := t.root } ∧
     (t.root = { s.root with ticks := t.root.ticks }) ∧
     ∀ d, s.root.power ≠ .d0 ∨ (s.die d).alive = false ∨ (s.die d).lost = true → s.ticks d = false) ∧
  ((∀ row ∈ [(Instr.loadCompletion, PendKind.load), (Instr.atomicCompletion, .atomic), (Instr.variableLatencyResult, .slow),
       (Instr.dlaunchAnswer, .dlaunch)], ∀ (s : State) (op : Nat) (p : Pend), Fmap.find s.pend op = some p → p.kind = row.2 →
     Lands (row.1 op) s op) ∧
   (∀ (s : State) (op : Nat), ∃ t, exec (.storeAcknowledged op) s = .next t ∧ t = { s with stores := t.stores } ∧
     Fmap.find t.stores op = none ∧ ∀ k, k ≠ op → Fmap.find t.stores k = Fmap.find s.stores k) ∧
   ∀ (s : State) (g n : Nat) (e : Entry), Fmap.find (s.group g).s n = some e → e.fut = none →
     (s.nameBusyS g n true = true ↔ ∃ p ∈ s.pend, p.2.core = s.coreOf g ∧ e.id ∈ p.2.entries))

/-- R185, R186: DLAUNCH. Its bytes are those that a load of 64 bytes supplies: the L1's at issue (log 7), in lines of 128 bytes
(log 73), with the dependence of its address as log 102 has it. -/
def Obligations.DeviceLaunch : Prop :=
  ∀ (f : FmtDlaunch) (s : State), Ready (.dlaunch f) s →
    let x := s.reader (.dlaunch f)
    let S := s.seen (.dlaunch f)
    let va := x.readS2 f.a.toNat
    let u : Use := { size := 64, align := 64, acc := .load }
    let hs := S.hits [⟨none, va⟩] .load
    let c := s.ctx s.myCtx
    let left := match Fmap.find c.recs s.myWg.record with | some r => r.childLeft | none => 0
    let dep := fromPair x f.a
    Accessible S u [⟨none, va⟩] → Loadable S hs (S.poisonedLoad dep hs 64) 0 1 →
      ∃ t e, e.kind = .dlaunch ∧
        let v := (S.afterLoads u false (fun pa => S.sinceLoad dep pa 64) hs).addPend e
        let y := { x with past := (t.group s.cur).past }
        let recs := Fmap.adjust c.recs s.myWg.record (fun r => { r with childLeft := left - 1 })
        let descriptor := (List.range 64).map (suppliedByte S dep 64 (S.target x.wg va .load))
        Passes S x (t.group s.cur) [va] 64 False ∧
        (left = 0 →
          Does (.dlaunch f) s v y (nextPc x.pc) false { s := [f.d.toNat] } t ∧ OnlyL1 s (s.addPend e) t ∧
          (t.group s.cur).readS f.d.toNat = 1) ∧
        (left ≠ 0 →
          Does (.dlaunch f) s
            (v.setCtx s.myCtx { v.ctx s.myCtx with recs := recs, dlq := c.dlq ++ [descriptor] })
            y (nextPc x.pc) false { s := [f.d.toNat] } t ∧
          OnlyL1 s ((s.addPend e).setCtx s.myCtx { c with recs := recs, dlq := c.dlq ++ [descriptor] }) t ∧
          (t.group s.cur).readS f.d.toNat = 0)

namespace Sys2Proof.Claims

open Sys2Proof.Machine

/-- A die in service (R319). -/
def InService (s : State) (d : Nat) : Prop := (s.die d).alive = true ∧ (s.die d).lost = false

/-- A core of a die in service. -/
def CoreUp (s : State) (c : Nat) : Prop := c < 48 ∧ InService s (c / 12)

/-- The straggler timer of a core has run for its limit (R42). -/
def Overdue (s : State) (c t0 : Nat) : Prop :=
  (s.core c).timer = some t0 ∧ (s.core c).token = true ∧ (s.core c).arrived = false ∧ (s.core c).limit ≠ 0 ∧
    t0 + (s.core c).limit.toNat ≤ (s.die (c / 12)).ck.toNat

/-- Group `g` takes part in a wave on core `c` (R38, R42): it stands there, in a context of phase mode. -/
def Participates (s : State) (c g : Nat) : Prop :=
  ∃ x, Fmap.find s.groups g = some x ∧ (s.wg x.wg).core = c ∧ (s.wg x.wg).state ≠ .saved ∧ (s.ctx (s.wg x.wg).ctx).phased = true

/-- X-class transfers or a contribution of group `g` are outstanding (R38). -/
def Transferring (s : State) (g : Nat) : Prop :=
  (∃ p ∈ s.engs, (p.2.kind = .xput ∨ p.2.kind = .xget) ∧ p.2.g = g) ∨
    ∃ c ∈ s.colls, ∃ l, c.here = some l ∧ l.g = g ∧ (s.wg l.wg).state ≠ .terminated

/-- A group has arrived in a wave (R38, R21, R320): its context is killed; or it is no longer live and no transfer of it is
outstanding; or it waits in PHEND or XEND, itself or through the holder that it is parked under, with no transfer outstanding. -/
def ArrivedIn (s : State) (w : Wave) (g : Nat) : Prop :=
  let x := s.group g
  let h := x.parked.getD g
  (s.ctx (s.wg x.wg).ctx).state = .killed ∨ (x.status ≠ .live ∧ ¬ Transferring s g) ∨
    (x.status = .live ∧ (∃ k, (s.group h).wait = some k ∧ k.kind = if w = .computeEnd then WaitKind.phend else .xend) ∧
      ¬ Transferring s h ∧ ¬ Transferring s g)

/-- A wait of QPUSH or QPOP, whose end lets the waiters behind it be served (R233). -/
def AtQueue (k : WaitKind) : Prop := (∃ l n vs, k = .qpush l n vs) ∨ ∃ l n d m, k = .qpop l n d m

/-- A location in a context's save or spill area on a die: SIZE units of 64 KiB from BASE on (R64, R295, R298). -/
def InArea (s : State) (k d : Nat) (area : Dword) (a : Nat) : Prop :=
  ∃ i, i < 65536 * (area.toNat % 65536) ∧
    (s.ctxTarget k d (BitVec.ofNat 64 (area.toNat / 65536 % 17592186044416 * 65536 + i)) .store).loc? = some a

/-- Memory, its poison marks and the count of free draws are the one thing that may differ, and outside such an area memory
does not. -/
def AreaWritten (s t : State) (k d : Nat) (area : Dword) : Prop :=
  (∀ a, ¬ InArea s k d area a → t.byteAt a = s.byteAt a) ∧
  ∀ u, (∀ b, b < 8 → ¬ InArea s k d area (8 * u + b)) → Fmap.get false t.poison u = Fmap.get false s.poison u

/-- No workgroup of context `k` is left (R301). -/
def NoneLeft (s : State) (k : Nat) : Prop :=
  ∀ j w, Fmap.find s.wgs j = some w → w.ctx = k → (s.wg j).state = .ended ∨ (s.wg j).state = .terminated

/-- The levels of a page table (R89): the lowest bit of the address that indexes a level, the number of bits that do, and the bytes
of a table of it. -/
def levelLow (i : Nat) : Nat := [48, 39, 30, 21, 16].getD i 0
def levelBits (i : Nat) : Nat := [12, 9, 9, 9, 5].getD i 0
def tableBytes (i : Nat) : Nat := 8 * 2 ^ levelBits i

/-- PA[51:8] of an entry as an address (R91). -/
def entryAddr (p : Dword) : Nat := p.toNat / 2 ^ 8 % 2 ^ 44 * 2 ^ 8

/-- The bytes of a kind of memory (R86). -/
def kindBytes (k : Nat) : Nat := if k = 0 then 144 * 2 ^ 30 else if k = 1 then 256 * 2 ^ 20 else 0

/-- An entry of level `i` is malformed (R91); `mirror` when the address lies in the mirror data region. -/
def Malformed (p : Dword) (i : Nat) (mirror : Bool) : Prop :=
  let a := entryAddr p
  let leaf := p.getLsbD 1 = true
  p.toNat / 2 ^ 52 ≠ 0 ∨ p.toNat / 2 ^ 6 % 4 = 3 ∨
  (leaf ∧ (i ≤ 1 ∨ a % 2 ^ levelLow i ≠ 0 ∨ 2 ≤ a / 2 ^ 48 % 4 ∨ kindBytes (a / 2 ^ 48 % 4) < a % 2 ^ 48 + 2 ^ levelLow i ∨
    p.getLsbD 4 ≠ mirror)) ∨
  (¬ leaf ∧ (i = 4 ∨ a % tableBytes (i + 1) ≠ 0 ∨ p.getLsbD 4 = true))

/-- The walk of the address `va` from the table at `a` of level `i` on ends with `r` (R89, R92): at the first entry that is not
valid, is malformed, or is a leaf. -/
inductive Walks (s : State) (va : Nat) (mirror : Bool) : Nat → Nat → Walked → Prop
  | invalid (i a : Nat) (p : Dword) : i < 5 → p = BitVec.ofNat 64 (s.natAt (a + 8 * (va / 2 ^ levelLow i % 2 ^ levelBits i)) 8) →
      p.getLsbD 0 = false → Walks s va mirror i a (.fault .notmapped (p.getLsbD 5))
  | malformed (i a : Nat) (p : Dword) : i < 5 → p = BitVec.ofNat 64 (s.natAt (a + 8 * (va / 2 ^ levelLow i % 2 ^ levelBits i)) 8) →
      p.getLsbD 0 = true → Malformed p i mirror → Walks s va mirror i a (.fault .malformed false)
  | leaf (i a : Nat) (p : Dword) : i < 5 → p = BitVec.ofNat 64 (s.natAt (a + 8 * (va / 2 ^ levelLow i % 2 ^ levelBits i)) 8) →
      p.getLsbD 0 = true → ¬ Malformed p i mirror → p.getLsbD 1 = true → Walks s va mirror i a (.leaf p (levelLow i))
  | next (i a : Nat) (p : Dword) (r : Walked) : i < 5 →
      p = BitVec.ofNat 64 (s.natAt (a + 8 * (va / 2 ^ levelLow i % 2 ^ levelBits i)) 8) →
      p.getLsbD 0 = true → ¬ Malformed p i mirror → p.getLsbD 1 = false → Walks s va mirror (i + 1) (entryAddr p) r →
      Walks s va mirror i a r

/-- Die `d` wrote byte `b` of mirror line `m`, or its tag, in this superstep (R107). -/
def WroteByte (s : State) (m b d : Nat) : Prop :=
  ∃ x, Fmap.find s.dirty (d * 17592186044416 + m) = some x ∧ x.mask.getLsbD b = true
def WroteTag (s : State) (m d : Nat) : Prop := ∃ x, Fmap.find s.dirty (d * 17592186044416 + m) = some x ∧ x.tag = true

/-- The lowest-numbered die that does something (R109). -/
def LowestDie (p : Nat → Prop) (w : Nat) : Prop := w < 4 ∧ p w ∧ ∀ v, v < w → ¬ p v

/-- What a pass of the mirror engine may write before its record (R109, R318). -/
def OnlyBackings (s u : State) : Prop :=
  u = { s with mem := u.mem, poison := u.poison, tags := u.tags, tagPoison := u.tagPoison, ctxs := u.ctxs } ∧
    ∀ j, u.ctx j = { s.ctx j with touch := (u.ctx j).touch }

/-- The place of the byte `b` of mirror line `m` on die `d` (R107). -/
def mirrorByte (d m b : Nat) : Nat := d * 1125899906842624 + 64 * m + b

/-- The turn of mirror line `m` in the line pass over `s`, from `u` to `v` (R109, R312, R318): the dies in service have each written byte,
and the tag, from the lowest-numbered die that wrote it, with its poison; nothing else of memory changes; and where two dies
wrote one byte or the tag, MIRROR_COLLISION is recorded under the lowest-numbered writer's address, with the mask of those dies. -/
def LineTaken (s u v : State) (m : Nat) : Prop :=
  let collides := fun (d : Nat) => (∃ b e, b < 64 ∧ e < 4 ∧ e ≠ d ∧ WroteByte s m b d ∧ WroteByte s m b e) ∨
    (∃ e, e < 4 ∧ e ≠ d ∧ WroteTag s m d ∧ WroteTag s m e)
  let entry := fun (d : Nat) => Fmap.find s.dirty (d * 17592186044416 + m)
  ∃ w, OnlyBackings u w ∧
    (∀ d b e, d < 4 → b < 64 → InService s d → LowestDie (WroteByte s m b) e →
      w.byteAt (mirrorByte d m b) = s.byteAt (mirrorByte e m b) ∧
        (Fmap.get false s.poison (mirrorByte e m b / 8) = true → Fmap.get false w.poison (mirrorByte d m b / 8) = true)) ∧
    (∀ a, (∀ d b e, d < 4 → b < 64 → InService s d → LowestDie (WroteByte s m b) e → a ≠ mirrorByte d m b) → w.byteAt a = u.byteAt a) ∧
    (∀ d e, d < 4 → InService s d → LowestDie (WroteTag s m) e → w.tagAt (mirrorByte d m 0) = s.tagAt (mirrorByte e m 0)) ∧
    (∀ a, (∀ d e, d < 4 → InService s d → LowestDie (WroteTag s m) e → a / 64 ≠ mirrorByte d m 0 / 64) → w.tagAt a = u.tagAt a) ∧
    ((∀ d, d < 4 → ¬ collides d) → v = w) ∧
    ∀ e x, (∃ d, d < 4 ∧ collides d) → LowestDie (fun d => (entry d).isSome = true) e → entry e = some x →
      ∃ n, (∀ d, n.testBit d = true ↔ d < 4 ∧ collides d) ∧ v = w.record x.ctx 10 n noCore 0 noWg x.va.toNat 0

/-- The turn of root slot `j` in the slot pass over `s`, from `u` to `v`, as `LineTaken` has it for a line. -/
def SlotTaken (s u v : State) (j : Nat) : Prop :=
  let wrote := fun (d : Nat) => (Fmap.find s.dirtySlots (d * 4096 + j)).isSome = true
  let both := ∃ d e, d < e ∧ e < 4 ∧ wrote d ∧ wrote e
  ∃ w, OnlyBackings u w ∧
    (∀ d e i, d < 4 → i < 8 → InService s d → LowestDie wrote e →
      w.byteAt (slotLoc d j + i) = s.byteAt (slotLoc e j + i) ∧
        (s.poisoned (slotLoc e j) 8 = true → w.poisoned (slotLoc d j) 8 = true)) ∧
    (∀ a, (∀ d i, d < 4 → i < 8 → InService s d → a ≠ slotLoc d j + i) → w.byteAt a = u.byteAt a) ∧
    (¬ both → v = w) ∧
    ∀ e k va, both → LowestDie wrote e → Fmap.find s.dirtySlots (e * 4096 + j) = some (k, va) →
      ∃ n, (∀ d, n.testBit d = true ↔ d < 4 ∧ wrote d) ∧ v = w.record k 10 n noCore 0 noWg va.toNat 0

/-- States from `u` to `v`, one step for each member of a list, in its order. -/
def Through {α : Type} (turn : State → State → α → Prop) (l : List α) (u v : State) : Prop :=
  ∃ at_ : Nat → State, at_ 0 = u ∧ at_ l.length = v ∧ ∀ i x, l[i]? = some x → turn (at_ i) (at_ (i + 1)) x

/-- An entry of die `d`'s retire queue performed, from `u` to `v` (R245, R246, R248): a block goes back to its pool, and is recorded
where it was freed otherwise; a notification is written, or counted as lost; a node's predecessors are counted down, and what
cannot be counted is recorded. `g` is the number of the grace period. -/
def Retired (g : Dword) (d : Nat) (u v : State) (e : Retire) : Prop :=
  let p := u.pool d e.ctx e.arg
  let c := u.ctx e.ctx
  let x := u.node e.arg
  let note := leBytes 8 e.ptr.toNat ++ leBytes 4 e.size.toNat ++ leBytes 2 e.arg ++ leBytes 2 d ++ leBytes 8 e.p ++ leBytes 8 g.toNat
  let full := ringFull (c.note.toNat % 16) c.noteHead c.noteTail = true
  let lost := v = u.setCtx e.ctx { c with noteLost := min 65535 (c.noteLost + 1) }
  (∀ j, e.kind = 0 → p.allocatedAt e.ptr = some j → Fmap.get 0 p.freed j = e.freed →
    v = u.setPool d e.ctx e.arg { p with stack := j :: p.stack, freed := Fmap.insert p.freed j (Fmap.get 0 p.freed j + 1) }) ∧
  (e.kind = 0 → (∀ j, p.allocatedAt e.ptr = some j → Fmap.get 0 p.freed j ≠ e.freed) →
    v = u.record e.ctx 12 e.arg noCore 0 noWg e.ptr.toNat 0) ∧
  (e.kind = 1 → full → lost) ∧
  (e.kind = 1 → e.arg < 65536 → ¬ full → u.ctxWrite e.ctx d (ringSlot c.note c.noteTail) note = none → lost) ∧
  (∀ w, e.kind = 1 → e.arg < 65536 → d < 4 → ¬ full → u.ctxWrite e.ctx d (ringSlot c.note c.noteTail) note = some w →
    v = w.setCtx e.ctx { c with noteTail := (c.noteTail + 1) % 16777216 }) ∧
  (e.kind = 2 → x.valid = false ∨ x.ctx ≠ e.ctx → v = u.record e.ctx 13 0 noCore 0 noWg 0 e.arg) ∧
  (e.kind = 2 → x.valid = true → x.ctx = e.ctx → x.pred = 0 ∨ x.state ≠ .waiting → v = u.record e.ctx 17 0 noCore 0 noWg 0 e.arg) ∧
  (e.kind = 2 → x.valid = true → x.ctx = e.ctx → x.state = .waiting → 2 ≤ x.pred → v = u.setNode e.arg { x with pred := x.pred - 1 }) ∧
  (e.kind = 2 → x.valid = true → x.ctx = e.ctx → x.state = .waiting → x.pred = 1 → x.nsucc = 0 → pktType x.pkt = 0 →
    (∀ q ∈ u.graphs, ∃ i, i < q.count ∧ q.first + i ≠ e.arg ∧ (u.node (q.first + i)).state ≠ .done) →
    v = u.setNode e.arg { x with pred := 0, state := .done })

/-- A graph in progress is not complete, whatever becomes of the nodes that meet `p` (R293). -/
def GraphsGoOn (s : State) (p : Nat → Prop) : Prop :=
  ∀ g ∈ s.graphs, ∃ i, i < g.count ∧ ¬ p (g.first + i) ∧ (s.node (g.first + i)).state ≠ .done

/-- A descriptor keeps R152 and R153. -/
def DescLegal (d : List Byte) : Prop :=
  let f := fun (off n : Nat) => fieldAt d off n
  f 0 4 = 1 ∧ f 4 4 < 8 ∧ f 4 4 % 4 ≠ 3 ∧ (∀ i, 96 ≤ i → i < 128 → d.getD i 0 = 0) ∧
    (f 16 4 = 0 ∨ 32 ≤ f 16 4 ∧ f 16 4 ≤ 32768 ∧ f 16 4 % 32 = 0) ∧ 1 ≤ f 20 2 ∧ f 20 2 ≤ 4 ∧
    f 22 2 ≤ 8 ∧ (f 22 2 ≠ 0 → f 16 4 ≠ 0) ∧ f 24 2 ≤ f 26 2 ∧ f 26 2 ≤ 752 ∧ f 28 2 ≤ f 30 2 ∧ 2 ≤ f 30 2 ∧ f 30 2 ≤ 240 ∧
    f 32 4 ≤ 8192 ∧ f 36 4 ≤ 65535 ∧ f 80 4 ≤ 64

/-- The check of code `c` of R284's table fails for the LAUNCH packet `p` of context `k`, with what step 2 read; the codes of the
other steps apart. -/
def CheckFails (s : State) (k : Nat) (p : List Byte) (r : LaunchRead) (c : Nat) : Prop :=
  let f := fun (off n : Nat) => fieldAt r.desc off n
  let lanes := if f 16 4 = 0 then fieldAt p 12 4 else f 16 4
  let stages := List.range (f 22 2)
  let cpb := fieldAt p 2 2
  match c with
  | 1 => ¬ DescLegal r.desc
  | 2 => f 4 4 % 4 = 1 ∧ (s.ctx k).phased = false ∨ f 4 4 % 4 = 2 ∧ (s.ctx k).phased = true
  | 3 => r.gx = 0 ∨ 2 ^ 31 ≤ r.gx ∨ fieldAt p 8 2 = 0 ∨ fieldAt p 10 2 = 0 ∨ r.gx % f 20 2 ≠ 0
  | 4 => lanes < 32 ∨ 32768 < lanes ∨ lanes % 32 ≠ 0 ∨
      f 22 2 ≠ 0 ∧ (stages.map (fun j => 32 * f (40 + 4 * j) 2)).sum ≠ lanes
  | 5 => cpb = 0 ∨
      (∃ j, j < r.gx * fieldAt p 8 2 * fieldAt p 10 2 / f 20 2 ∧ let d := fieldAt p 32 8 / 4 ^ (j / cpb % 32) % 4
        (s.ctx k).dies.getLsbD d = false ∨ ¬ InService s d) ∨
      (pktRmen p = true ∧ ∃ i j, i < j ∧ j < f 20 2 ∧ fieldAt p 56 1 / 4 ^ i % 4 = fieldAt p 56 1 / 4 ^ j % 4)
  | 6 => 131072 < f 26 2 * (lanes / 32) ∨ 65536 < f 30 2 * (lanes / 32) ∨ 1024 < lanes / 32 ∨
      f 22 2 ≠ 0 ∧ f 32 4 < 8 + (stages.map (fun j => (4 * f (42 + 4 * j) 2 + 127) / 128)).sum
  | _ => False

/-- The cores of facet `f` of die `d` on which ranks 0 to n - 1 are placed (R286): those that RANKMAP names, or the lowest-numbered
ones that qualify. -/
def PlacedOn (ok : Nat → Bool) (d f n : Nat) (rmen : Bool) (map : BitVec 8) (cs : List Nat) : Prop :=
  let core := fun (j : Nat) => 12 * d + 4 * f + j
  if rmen then cs = (List.range n).map (fun k => core (map.toNat / 4 ^ k % 4)) ∧ ∀ c ∈ cs, ok c = true
  else cs.length = n ∧ cs.Pairwise (· < ·) ∧ (∀ c ∈ cs, ok c = true ∧ ∃ j, j < 4 ∧ c = core j) ∧
    ∀ j, j < 4 → ok (core j) = true → core j ∈ cs ∨ ∀ c ∈ cs, c < core j

/-- Wt(s) of R30, from the input and the output queue's occupancy and capacity. -/
def shareOf (inQ outQ : Option (Nat × Nat)) : Int :=
  let part := fun (q : Option (Nat × Nat)) => match q with | some (occ, cap) => ((8 * occ / cap : Nat) : Int) | none => 0
  max 1 (min 16 (8 + part inQ - part outQ))

/-- The checks at issue are passed, but a register that the instruction reads at issue holds an uncorrectable error (R312). The
tile of MST and MRD is read when the operation is performed (R265, R266). -/
structure ReadsError (i : Instr) (s : State) : Prop where
  gate : s.gate s.cur (Instr.info i) = .go
  bad : (s.reader i).badReads
    (match i with | .mst _ | .mrd _ => { Instr.info i with srcs := (Instr.info i).srcs.filter (fun o => o.file != .tile) } | _ => Instr.info i) = true

/-- The group acts as one that consumed an uncorrectable error, at no location, and the instruction has no effect (R313). -/
def ErrorTaken (i : Instr) (s : State) : Prop := exec i s = .next ((s.seen i).uncorrectable s.cur 2 0)

/-- What candidate `j` of core `k` took since its candidates became `cs`, and what all of them took (R30). -/
def takenBy (k : Core) (cs : List Nat) (j : Nat) : Share := Fmap.get ⟨0, 0, 0⟩ (if k.cands = cs then k.issues else []) j
def slotsTaken (k : Core) (cs : List Nat) : Nat := ((if k.cands = cs then k.issues else []).map (·.2.slots)).sum

/-- The weight of a candidate, 8 before the first count (log 67), and the sum of the candidates'. -/
def weightOf (k : Core) (j : Nat) : Nat := Fmap.get 8 k.weights j
def weightSum (k : Core) (cs : List Nat) : Nat := (cs.map (weightOf k)).sum

/-- By how much the slots of candidate `j` exceed its weighted share after the next slot, if another has that one; times the sum of
the weights (R30). -/
def excess (k : Core) (cs : List Nat) (j : Nat) : Int :=
  ((takenBy k cs j).slots : Int) * weightSum k cs - (weightOf k j : Int) * (slotsTaken k cs + 1)

/-- With the next slot candidate `j` is no more than one slot above its share, and no other more than one below its own, in every
interval that ends with that slot (R30). -/
def Even (k : Core) (cs : List Nat) (j : Nat) : Prop :=
  excess k cs j ≤ (takenBy k cs j).least ∧ ∀ i ∈ cs, i ≠ j → (takenBy k cs i).most ≤ excess k cs i + weightSum k cs

/-- Candidate `j` is behind its share, and of those that are, it is even where any is. -/
def Behind (k : Core) (cs : List Nat) (j : Nat) : Prop := j ∈ cs ∧ excess k cs j < 0
def Due (k : Core) (cs : List Nat) (j : Nat) : Prop := Behind k cs j ∧ (Even k cs j ∨ ∀ i, Behind k cs i → ¬ Even k cs i)

/-- The number of slots by which candidate `j` must have had one more to be within one slot of its share. -/
def lastSlot (k : Core) (cs : List Nat) (j : Nat) : Int :=
  ⌈(((takenBy k cs j).slots + 1 : ℚ) * weightSum k cs) / (weightOf k j : ℚ)⌉

/-- It is the turn of candidate `j`: of those that are due it is the one with the earliest deadline, and of several such the one
that is furthest behind. -/
def Turn (k : Core) (cs : List Nat) (j : Nat) : Prop :=
  Due k cs j ∧ ∀ i, Due k cs i → lastSlot k cs j < lastSlot k cs i ∨ lastSlot k cs j = lastSlot k cs i ∧ excess k cs j ≤ excess k cs i

end Sys2Proof.Claims

open Sys2Proof Sys2Proof.Machine Sys2Proof.Claims

/-- R38 to R42, R107, R299: tokens, arrivals, boundaries, releases, requests and stragglers. That only the cores of dies in
service count is log 49, that a halted group's open bundle issues again is log 50, and that a request which finds the compute-end
wave open, but no token of it sent, takes effect at that wave's boundary is log 90. -/
def Obligations.WaveProgress : Prop :=
  (∀ (s : State) (c : Nat), s.root.wave ≠ none → (s.die 0).lost = false → CoreUp s c → (s.core c).relPending = false →
    (s.core c).token = false → (s.core c).ph = s.root.ph → Fmap.risingFrom 0 s.groups = true →
    ∃ t, exec (.waveToken c) s = .next t ∧
      t = { s with root := { s.root with tokenSent := true }, cores := t.cores, groups := t.groups } ∧
      t.core c = { s.core c with token := true, timer := some (s.die (c / 12)).ck.toNat, expiries := 0 } ∧
      (∀ e, e ≠ c → t.core e = s.core e) ∧
      (∀ g x, Fmap.find s.groups g = some x → (s.wg x.wg).core = c → (s.wg x.wg).state ≠ .saved →
        (s.ctx (s.wg x.wg).ctx).phased = false →
        t.group g = if x.wait = none then { x with pc := x.trapPc, bundle := none } else x) ∧
      ∀ g, (s.ctx (s.wgOf g).ctx).phased = true ∨ (s.wgOf g).core ≠ c → t.group g = s.group g) ∧
  (∀ (s : State) (c : Nat) (w : Wave), s.root.wave = some w → (s.core c).token = true → (s.core c).arrived = false →
    (s.core c).relPending = false → CoreUp s c →
    (s.mayArrive w c = true → exec (.coreArrival c) s = .next (s.setCore c { s.core c with arrived := true })) ∧
    (s.mayArrive w c = true →
      (∀ g x, Fmap.find s.groups g = some x → (s.wg x.wg).core = c → (s.wg x.wg).state ≠ .saved →
        (s.ctx (s.wg x.wg).ctx).phased = true → (s.ctx (s.wg x.wg).ctx).state ≠ .killed → x.status = .live → x.parked = none →
        ∃ k, x.wait = some k ∧ k.kind = (if w = .computeEnd then WaitKind.phend else .xend)) ∧
      (w = .computeEnd → (∀ p ∈ s.stores, p.2.core ≠ c) ∧
        ∀ p ∈ s.pend, p.2.core = c → p.2.kind ≠ .load ∧ p.2.kind ≠ .atomic) ∧
      (w = .exchangeEnd → s.root.linesDone = true ∧ s.root.slotsDone = true)) ∧
    (s.mayArrive w c = false → exec (.coreArrival c) s = .next s)) ∧
  (∀ (s : State) (c : Nat) (w : Wave), Fmap.risingFrom 0 s.groups = true →
    (∀ g, g ∈ s.lateGroups w c ↔ Participates s c g ∧ ¬ ArrivedIn s w g) ∧
    (s.mayArrive w c = true ↔ (∀ g, Participates s c g → ArrivedIn s w g) ∧
      (w = .computeEnd → (∀ p ∈ s.stores, p.2.core ≠ c) ∧
        ∀ p ∈ s.pend, p.2.core = c → p.2.kind ≠ .load ∧ p.2.kind ≠ .atomic) ∧
      (w = .exchangeEnd → s.root.linesDone = true ∧ s.root.slotsDone = true))) ∧
  (∀ s : State, (s.die 0).lost = false → (∀ c, CoreUp s c → (s.core c).arrived = true ∧ (s.core c).relPending = false) →
    let owed := fun (t : State) => ∀ c, (CoreUp s c → t.core c = { s.core c with relPending := true }) ∧
      (¬ CoreUp s c → t.core c = s.core c)
    (s.root.wave = some .computeEnd → s.root.now = [] → s.root.doomed = [] → (∀ p ∈ s.ctxs, p.2.state ≠ .draining) →
      ∃ t, exec .boundaryCompletion s = .next t ∧ owed t ∧
        t = { s with cores := t.cores, root := { s.root with
          ph := s.root.ph + 1, wave := some .exchangeEnd, tokenSent := true, linesDone := false, slotsDone := false } }) ∧
    (s.root.wave = some .exchangeEnd → s.root.ph.getLsbD 0 = true →
      ∃ t, exec .boundaryCompletion s = .next t ∧ owed t ∧
        t = { s with
          cores := t.cores, dirty := s.dirtyNext, dirtyNext := [], dirtySlots := s.dirtySlotsNext, dirtySlotsNext := []
          root := { s.root with ph := s.root.ph + 1, wave := if s.root.later = [] then none else some .computeEnd, tokenSent := false
                                now := s.root.later, later := [] } })) ∧
  (∀ s : State, (∃ e, CoreUp s e ∧ (s.core e).arrived = false) →
    exec .boundaryCompletion s = .next s) ∧
  (∀ (s : State) (c : Nat), (s.core c).relPending = true → CoreUp s c → (∀ d, (s.die d).joinPending = false) →
    s.root.stage ≠ .joining → (∀ p ∈ s.wgs, p.2.state ≠ .saved) →
    let odd := s.root.ph.getLsbD 0
    ∃ t, exec (.release c) s = .next t ∧ t = { s with cores := t.cores, groups := t.groups } ∧
      t.core c = { s.core c with
        ph := s.root.ph, relPending := false, arrived := false, token := odd, expiries := 0, l1 := []
        timer := if odd then some (s.die (c / 12)).ck.toNat else none } ∧
      (∀ e, e ≠ c → t.core e = s.core e) ∧
      ∀ g x k, Fmap.find s.groups g = some x → (s.wg x.wg).core = c → x.status = .live → x.wait = some k →
        k.kind = (if odd then WaitKind.phend else .xend) →
        (t.group g).wait = none ∧ (t.group g).pc = nextPc x.pc ∧ (t.group g).sig = sigStep x.sig k.word k.exec) ∧
  (∀ (s : State) (k : Nat) (q : Req), s.root.incoming[k]? = some q →
    let left := s.root.incoming.eraseIdx k
    (s.root.ph.getLsbD 0 = true ∨ s.root.tokenSent = true → exec (.boundaryRequest k) s = .next { s with
      root := { s.root with incoming := left, later := if q ∈ s.root.later then s.root.later else s.root.later ++ [q] } }) ∧
    (s.root.ph.getLsbD 0 = false → s.root.tokenSent = false → exec (.boundaryRequest k) s = .next { s with
      root := { s.root with incoming := left, wave := if s.root.wave = none then some .computeEnd else s.root.wave
                            now := if q ∈ s.root.now then s.root.now else s.root.now ++ [q] } })) ∧
  ∀ (s : State) (c t0 : Nat) (w : Wave), s.root.wave = some w → Overdue s c t0 →
    ((s.core c).expiries = 0 → ∃ t, exec (.stragglerExpiry c) s = .next t ∧
      t.core c = { s.core c with timer := some (s.die (c / 12)).ck.toNat, expiries := 1 } ∧
      (∀ g ∈ s.lateGroups w c, (s.group g).status = .live → Trap.straggler ∈ (t.group g).pendTraps) ∧
      (∀ g ∈ s.lateGroups w c, (s.group g).status = .live → (s.group g).handler = true → (s.group g).wait ≠ none →
        (∀ h k, (s.group h).wait = some k → ¬ AtQueue k.kind) → (t.group g).wait = (s.group g).wait) ∧
      ((∀ h ∈ s.lateGroups w c, ∀ k, (s.group h).wait = some k → ¬ AtQueue k.kind) →
        (∀ g ∈ s.lateGroups w c, (s.group g).status = .live → (s.group g).handler = false → (s.group g).wait ≠ none →
          (t.group g).wait = none ∧ (t.group g).pc = (s.group g).trapPc) ∧
        ∀ g, g ∉ s.lateGroups w c → t.group g = s.group g)) ∧
    ((s.core c).expiries = 1 → ∃ t, exec (.stragglerKill c) s = .next t ∧ (t.core c).expiries = 2 ∧
      ∀ g ∈ s.lateGroups w c, (t.ctx (s.ctxOf g)).state = .killed ∧
        ∀ j v, Fmap.find s.wgs j = some v → v.ctx = s.ctxOf g → (t.wg j).state = .ended ∨ (t.wg j).state = .terminated)

/-- R119, R121 to R125, R245, R246, R292: the grace period, and the actions at its end: a block goes back, a record is written, a
node's predecessors are counted down, entry by entry. That entries of a retire queue below the period's begin are taken wherever
they stand is log 47, that dies that are not in service stand outside the period is log 49, that die 0's entries come first is
log 108, and that a node with VALID = 0 is of no context is log 110. -/
def Obligations.GracePeriods : Prop :=
  (∀ s : State, s.root.gpPhase = 0 → (s.die 0).lost = false →
    ((∃ p ∈ s.dies, p.2.lost = false ∧ ∃ e ∈ p.2.retireQ, e.p < s.root.ph.toNat) ∨
      (∃ p ∈ s.groups, p.2.status = .live ∧ ∃ n w m f, p.2.wait = some ⟨.gpwait n, w, m, f⟩ ∧ n < s.root.ph.toNat) →
      ∃ t, exec .gracePeriodStart s = .next t ∧
        t = { s with cores := t.cores, root := { s.root with g := s.root.g + 1, gpPhase := 1, acks := [] } } ∧
        ∀ c, (CoreUp s c → t.core c = { s.core c with flipPending := true }) ∧ (¬ CoreUp s c → t.core c = s.core c)) ∧
    ((∀ p ∈ s.dies, p.2.lost = false → ∀ e ∈ p.2.retireQ, s.root.ph.toNat ≤ e.p) →
      (∀ p ∈ s.groups, p.2.wait = none) → exec .gracePeriodStart s = .next s)) ∧
  (∀ (s : State) (c : Nat), (s.core c).flipPending = true →
    ∃ t, exec (.parityFlip c) s = .next t ∧ t = { s with cores := t.cores, root := t.root } ∧
      t.core c = { s.core c with flipPending := false, parity := s.root.g.getLsbD 0 } ∧ (∀ e, e ≠ c → t.core e = s.core e) ∧
      t.root.acks = s.root.acks ++ [c] ∧
      (s.root.gpPhase = 1 → (∀ e, e ≠ c → CoreUp s e → (s.core e).flipPending = false) →
        t.root.gpPhase = 2 ∧ t.root.gpBegan = s.root.ph.toNat) ∧
      (s.root.gpPhase = 1 → (∃ e, e ≠ c ∧ CoreUp s e ∧ (s.core e).flipPending = true) → t.root.gpPhase = 1)) ∧
  ∀ s : State, s.root.gpPhase = 2 → (s.die 0).lost = false → Fmap.risingFrom 0 s.groups = true →
    let old := !s.root.g.getLsbD 0
    let zero := (∀ c, c < 48 → (s.die (c / 12)).lost = false → (if old then (s.core c).cnt1 else (s.core c).cnt0) = 0) ∧
      ∀ d, d < 4 → (s.die d).lost = false → (if old then (s.die d).sav1 else (s.die d).sav0) = 0
    (¬ zero → exec .gracePeriodEnd s = .next s) ∧
    (zero → ∃ t, exec .gracePeriodEnd s = .next t ∧ t.root.gpPhase = 0 ∧
      (∀ d, d < 4 → (s.die d).lost = false → (t.die d).retireQ = (s.die d).retireQ.filter (fun e => s.root.gpBegan ≤ e.p)) ∧
      (∀ g x n w m f, Fmap.find s.groups g = some x → x.status = .live → x.wait = some ⟨.gpwait n, w, m, f⟩ → n < s.root.gpBegan →
        (t.group g).wait = none ∧ (t.group g).pc = nextPc x.pc) ∧
      (∀ g, (∀ n w m f, (s.group g).wait ≠ some ⟨.gpwait n, w, m, f⟩ ∨ s.root.gpBegan ≤ n) → t.group g = s.group g) ∧
      ∃ u, t = { u with groups := t.groups } ∧
        Through (fun a b d => ((s.die d).lost = true → b = a) ∧ ((s.die d).lost = false →
            Through (Retired s.root.g d) ((s.die d).retireQ.filter (fun e => e.p < s.root.gpBegan))
              (a.setDie d { a.die d with retireQ := (s.die d).retireQ.filter (fun e => s.root.gpBegan ≤ e.p) }) b))
          [0, 1, 2, 3] { s with root := { s.root with gpPhase := 0 } } u)

/-- R107 to R109, R312, R318: the line pass and the slot pass of the mirror engine, where no two dies wrote the same place, with poison
going with the bytes, and in general, line by line and slot by slot: the lowest-numbered writer's, and a record where two dies
wrote. The bytes are those that the backing holds at the pass (log 76). -/
def Obligations.MirrorPasses : Prop :=
  (∀ s : State, s.root.wave = some .exchangeEnd → s.root.linesDone = false → (s.die 0).lost = false →
    (∀ m, s.lineColliders m = []) →
    ∃ t, exec .mirrorLinePass s = .next t ∧ t.root = { s.root with linesDone := true } ∧ t.dirty = [] ∧ t.groups = s.groups ∧
      (∀ m b w d, m < 17592186044416 → b < 64 → w < 4 → d < 4 → InService s d →
        (∃ x, Fmap.find s.dirty (w * 17592186044416 + m) = some x ∧ x.mask.getLsbD b = true) →
        t.byteAt (mirrorByte d m b) = s.byteAt (mirrorByte w m b) ∧
          (Fmap.get false s.poison (mirrorByte w m b / 8) = true → Fmap.get false t.poison (mirrorByte d m b / 8) = true)) ∧
      (∀ m b d, m < 17592186044416 → b < 64 → d < 4 →
        (∀ w x, w < 4 → Fmap.find s.dirty (w * 17592186044416 + m) = some x → x.mask.getLsbD b = false) →
        t.byteAt (mirrorByte d m b) = s.byteAt (mirrorByte d m b)) ∧
      (∀ m w d, m < 17592186044416 → w < 4 → d < 4 → InService s d →
        (∃ x, Fmap.find s.dirty (w * 17592186044416 + m) = some x ∧ x.tag = true) →
        t.tagAt (mirrorByte d m 0) = s.tagAt (mirrorByte w m 0)) ∧
      ∀ a, 4503599627370496 ≤ a → t.byteAt a = s.byteAt a) ∧
  (∀ s : State, s.root.wave = some .exchangeEnd → s.root.linesDone = true → s.root.slotsDone = false → (s.die 0).lost = false →
    (∀ j, (s.slotWriters j).length ≤ 1) →
    ∃ t, exec .mirrorSlotPass s = .next t ∧ t.root = { s.root with slotsDone := true } ∧ t.dirtySlots = [] ∧ t.groups = s.groups ∧
      (∀ j w d k, j < 4096 → w < 4 → d < 4 → k < 8 → InService s d → (Fmap.find s.dirtySlots (w * 4096 + j)).isSome = true →
        t.byteAt (slotLoc d j + k) = s.byteAt (slotLoc w j + k) ∧
          (s.poisoned (slotLoc w j) 8 = true → t.poisoned (slotLoc d j) 8 = true)) ∧
      ∀ j d k, j < 4096 → d < 4 → k < 8 → (∀ w, w < 4 → Fmap.find s.dirtySlots (w * 4096 + j) = none) →
        t.byteAt (slotLoc d j + k) = s.byteAt (slotLoc d j + k)) ∧
  (∀ s : State, s.root.wave = some .exchangeEnd → s.root.linesDone = false → (s.die 0).lost = false →
    ∃ ms u, ms.Nodup ∧ (∀ m, m ∈ ms ↔ ∃ p ∈ s.dirty, p.1 % 17592186044416 = m) ∧ Through (LineTaken s) ms s u ∧
      exec .mirrorLinePass s = .next { u with dirty := [], root := { u.root with linesDone := true } }) ∧
  (∀ s : State, s.root.wave = some .exchangeEnd → s.root.linesDone = true → s.root.slotsDone = false → (s.die 0).lost = false →
    ∃ js u, js.Nodup ∧ (∀ j, j ∈ js ↔ ∃ p ∈ s.dirtySlots, p.1 % 4096 = j) ∧ Through (SlotTaken s) js s u ∧
      exec .mirrorSlotPass s = .next { u with dirtySlots := [], root := { u.root with slotsDone := true } }) ∧
  (∀ s : State, s.root.linesDone = false → exec .mirrorSlotPass s = .next s) ∧
  ∀ s : State, s.root.wave ≠ some .exchangeEnd → exec .mirrorLinePass s = .next s

/-- R85, R89 to R92: what a walk reads, and where an address leads. R93 to R96: walks and invalidations. A walk uses the tables as
they are then (log 54), one that faults ends the workgroup that asked for it (log 32), and a write of CXM_INVAL joins an
invalidation in progress (log 61). An entry is read at whatever address the tables give, outside DRAM too (log 75). R103, R106: the
scratchpad windows; an address of a member that has exited is that also beyond the member's allocation (log 118). -/
def Obligations.TranslationUpdates : Prop :=
  (∀ (s : State) (k : Nat) (va : Dword), let root := (s.ctx k).root
    let mirror := decide (0x0E00000000010000 ≤ va.toNat ∧ va.toNat < 0x0E00001000000000)
    (root.getLsbD 0 = false → s.walk k va = .fault .notmapped false) ∧
    (root.getLsbD 0 = true → Walks s va.toNat mirror 0 (root.toNat / 2 ^ 15 % 2 ^ 37 * 2 ^ 15) (s.walk k va))) ∧
  (∀ (s : State) (k : Nat) (va : Dword) (a : Acc), let w := s.wg k
    let at_ := va.toNat
    let slots := 0x0E00000000000000 ≤ at_ ∧ at_ < 0x0E00000000008000
    let mirror := 0x0E00000000010000 ≤ at_ ∧ at_ < 0x0E00001000000000
    let own := 0x0F00000000000000 ≤ at_ ∧ at_ < 0x0F00000000100000
    let peer := 0x0F00000000400000 ≤ at_ ∧ at_ < 0x0F00000000800000
    let low := at_ < 0x0E00000000000000
    (2 ^ 60 ≤ at_ → s.target k va a = .fault .noncanon false) ∧
    (at_ < 2 ^ 60 → ¬ low → ¬ slots → ¬ mirror → ¬ own → ¬ peer → s.target k va a = .fault .notmapped false) ∧
    (slots ∨ own ∨ peer → a = .fetch → s.target k va a = .fault .notmapped false) ∧
    (own → a ≠ .fetch → let off := at_ - 0x0F00000000000000
      s.target k va a = if off < 128 * w.lines then .spad (spadLoc w.core (128 * w.line0 + off)) k else .range) ∧
    (peer → a ≠ .fetch → let rank := (at_ - 0x0F00000000400000) / 2 ^ 20
      let off := at_ % 2 ^ 20
      (w.members.length ≤ rank → s.target k va a = .range) ∧
      ∀ p, w.members[rank]? = some p → s.target k va a = if s.hasExited p = true then .exited
        else if off < 128 * (s.wg p).lines then .spad (spadLoc (s.wg p).core (128 * (s.wg p).line0 + off)) p else .range) ∧
    (slots → a ≠ .fetch → let j := (at_ - 0x0E00000000000000) / 8
      let base := (s.ctx w.ctx).mirror.toNat / 2 ^ 16 % 4096
      let cnt := (s.ctx w.ctx).mirror.toNat % 8192
      s.target k va a = if j < cnt ∧ base + j < 4096 then .slot (base + j) else .fault .notmapped false) ∧
    ∀ e, low ∨ mirror → s.tlbHit w.core w.ctx va = some e →
      let p := e.pte
      let pa := entryAddr p + at_ % 2 ^ (e.log2 + 16)
      let permitted := (a = .store ∨ a = .engineWrite → p.getLsbD 2 = true) ∧ (a = .fetch → p.getLsbD 3 = true)
      (¬ permitted → s.target k va a = .fault .permission (p.getLsbD 5)) ∧
      (permitted → s.target k va a = .memory (if p.getLsbD 4 = true then w.core / 12 * 2 ^ 50 + pa % 2 ^ 50 else pa)
        (p.toNat / 2 ^ 6 % 4) (p.getLsbD 4) (p.getLsbD 5))) ∧
  (∀ (s : State) (d k : Nat) (q : WalkReq) (p : Dword) (low : Nat), (s.die d).walkQ[k]? = some q →
    s.walk q.ctx q.va = .leaf p low →
    ∃ t e, exec (.pageTableWalk d k) s = .next t ∧ t = { s with dies := t.dies, cores := t.cores } ∧
      (t.die d).walkQ = (s.die d).walkQ.eraseIdx k ∧ e.pte = p ∧ t.tlbHit (s.coreOf q.g) q.ctx q.va = some e ∧
      ∀ va, t.tlbHit (s.coreOf q.g) q.ctx va = some e → va.toNat / 2 ^ low = q.va.toNat / 2 ^ low) ∧
  (∀ (s : State) (d k : Nat) (q : WalkReq) (c : Cause) (res : Bool), (s.die d).walkQ[k]? = some q →
    s.walk q.ctx q.va = .fault c res → (s.group q.g).status = .live → (s.wgOf q.g).state = .resident →
    ∃ t, exec (.pageTableWalk d k) s = .next t ∧ (t.wg (s.group q.g).wg).state = .terminated) ∧
  (∀ (s : State) (k : Nat) (v : Dword), exec (.cxmInval k v) s =
    .next (s.setCtx k { s.ctx k with inval := (s.ctx k).inval ++ [v] })) ∧
  ∀ (s : State) (k : Nat),
    let gone := fun (vpn n : Nat) => ∃ v ∈ (s.ctx k).inval, v.toNat % 16 = 15 ∨
      v.toNat / 65536 % 17592186044416 < vpn + n ∧ vpn < v.toNat / 65536 % 17592186044416 + 2 ^ (v.toNat % 16)
    ∃ t, exec (.invalidationComplete k) s = .next t ∧
      t = { s with ctxs := t.ctxs, cores := t.cores, dies := t.dies } ∧ t.ctx k = { s.ctx k with inval := [] } ∧
      (∀ c e, e ∈ (t.core c).tlb ↔ e ∈ (s.core c).tlb ∧ ¬ (e.ctx = k ∧ gone e.vpn (2 ^ e.log2))) ∧
      (∀ d e, e ∈ (t.die d).tlb ↔ e ∈ (s.die d).tlb ∧ ¬ (e.ctx = k ∧ gone e.vpn (2 ^ e.log2))) ∧
      ∀ d q, q ∈ (t.die d).walkQ ↔ q ∈ (s.die d).walkQ ∧ ¬ (q.ctx = k ∧ gone (q.va.toNat / 65536) 1)

/-- R30, R32, R33, R63, R64: pool starvation, the weights of the arbiter and its guard. Of the workgroups that a rollback would help, the
one dispatched last is rolled back. What an eviction writes into the spill area and how much room it takes is free (log 10), that
starvation is tested on the needs noted at the stall is log 62, which workgroups take part while a cluster is being evicted is
log 107, and that the count of shares starts again only where a candidate's weight changes is log 67. -/
def Obligations.StarvationAndArbitration : Prop :=
  (∀ (s : State) (c : Nat), (s.starved c = false → exec (.starvationResolution c) s = .next s) ∧
    (s.starved c = true → ∀ k g, k ∈ s.newestFirst c → g ∈ s.residents c → (s.group g).wg = k → s.rollbackHelps g = true →
      (∀ h ∈ s.residents c, s.rollbackHelps h = true → (s.group h).wg = k ∨ (s.wg (s.group h).wg).order < (s.wg k).order) →
      ∃ t, exec (.starvationResolution c) s = .next t ∧
        ∀ r, (s.group g).region = some r → (t.group g).pc = r.restart ∧ (t.group g).poolHold ≠ none ∧
          (t.group g).v = r.v ∧ (t.group g).s = r.s ∧
            ∀ h, (s.group h).wg ≠ k → (s.group h).wait = none → t.group h = s.group h) ∧
    (s.starved c = true → (∀ g ∈ s.residents c, s.rollbackHelps g = false) → Fmap.risingFrom 0 s.wgs = true →
      (∀ k, s.newestFirst c = [k] → ∃ t, exec (.starvationResolution c) s = .next t ∧ (t.wg k).state = .terminated) ∧
      (∀ k j l, s.newestFirst c = k :: j :: l → s.spillFits k = true → (∀ m ∈ (s.wg k).members, m ≠ k → (s.wg m).state ≠ .resident) →
        ∃ t, exec (.starvationResolution c) s = .next t ∧
          t = { s with groups := t.groups, wgs := t.wgs, mem := t.mem, poison := t.poison, free := s.free + 1 } ∧
          AreaWritten s t (s.wg k).ctx ((s.wg k).core / 12) (Fmap.get 0 (s.ctx (s.wg k).ctx).spill ((s.wg k).core / 12)) ∧
          t.wg k = { s.wg k with state := .evicted, excessV := (s.slicesOf k).length - (s.wg k).resV
                                 excessS := (s.entriesOf k).length - (s.wg k).resS } ∧ (∀ m, m ≠ k → t.wg m = s.wg m) ∧
          (∀ g, (s.group g).wg ≠ k → t.group g = s.group g) ∧
          ∀ g, (t.group g).v = (s.group g).v ∧ (t.group g).s = (s.group g).s ∧ (t.group g).m = (s.group g).m))) ∧
  (∀ (s : State) (k : Nat), (s.wg k).state = .evicting → s.workOut (fun j => j = k) = false →
    (s.spillFits k = true → ∃ t, exec (.memberEviction k) s = .next t ∧
      t = { s with groups := t.groups, wgs := t.wgs, mem := t.mem, poison := t.poison, free := s.free + 1 } ∧
      AreaWritten s t (s.wg k).ctx ((s.wg k).core / 12) (Fmap.get 0 (s.ctx (s.wg k).ctx).spill ((s.wg k).core / 12)) ∧
      (t.wg k).state = .evicted ∧ ∀ m, m ≠ k → t.wg m = s.wg m) ∧
    (s.spillFits k = false → ∃ t, exec (.memberEviction k) s = .next t ∧ (t.wg k).state = .terminated)) ∧
  (∀ (s : State) (k : Nat), (s.wg k).state = .evicted →
    let ms := (s.wg k).members.filter (fun m => (s.wg m).state.holdsSlots)
    ((∀ m ∈ ms, (s.wg m).state = .evicted ∧ (s.wg m).resV + (s.wg m).excessV ≤ s.vfree (s.wg m).core ∧
        (s.wg m).resS + (s.wg m).excessS ≤ s.sfree (s.wg m).core) →
      ∃ t, exec (.evictionResume k) s = .next t ∧ t = { s with wgs := t.wgs, groups := t.groups } ∧
        (∀ g x, Fmap.find s.groups g = some x → (x.wg ∉ ms → t.group g = x) ∧
          (x.wg ∈ ms → t.group g = { x with past := (t.group g).past } ∧ Learns s g (Fmap.get 0 x.past) (t.group g))) ∧
        (∀ m ∈ ms, t.wg m = { s.wg m with state := .resident, excessV := 0, excessS := 0 }) ∧ ∀ m, m ∉ ms → t.wg m = s.wg m) ∧
    ((∃ m ∈ ms, (s.wg m).state ≠ .evicted) → exec (.evictionResume k) s = .next s)) ∧
  (∀ (s : State) (c : Nat), (s.die (c / 12)).ck.toNat % 64 = 0 → Fmap.risingFrom 0 s.wgs = true →
    (∀ p ∈ s.wgs, p.2.kern.stages.length ≤ 8) →
    ∃ t, exec (.weightRecomputation c) s = .next t ∧ t = { s with cores := t.cores } ∧ (∀ e, e ≠ c → t.core e = s.core e) ∧
      (let k := s.core c
       let k' := t.core c
       let same := ∀ j ∈ k.cands, Fmap.get 8 k.weights j = Fmap.get 8 k'.weights j
       (same → k' = { k with weights := k'.weights }) ∧ (¬ same → k' = { k with weights := k'.weights, issues := [], cands := [] })) ∧
      ∀ k w, Fmap.find s.wgs k = some w → w.core = c → w.state = .resident →
        (w.kern.stages = [] → Fmap.find (t.core c).weights (8 * k) = some 8) ∧
        ∀ j, j < w.kern.stages.length → (Fmap.find (t.core c).weights (8 * k + j)).map (fun n => (n : Int)) =
          some (shareOf (if j = 0 then none else s.stageQueue w (j - 1)) (s.stageQueue w j))) ∧
  ∀ (s : State) (c : Nat), (s.overdue c = [] → exec (.starvationGuard c) s = .next (s.setCore c { s.core c with guard := [] })) ∧
    (s.overdue c ≠ [] → ∃ t, exec (.starvationGuard c) s = .next t ∧ t = { s with cores := t.cores, groups := t.groups } ∧
      (t.core c) = { s.core c with guard := (t.core c).guard } ∧ (t.core c).guard.length ≤ 16 ∧ (t.core c).guard ≠ [] ∧
      (∀ g ∈ (t.core c).guard, (s.group g).readySince + 512 ≤ (s.die (c / 12)).ck.toNat ∧ s.unblocked g = true) ∧
      (t.core c).guard.Pairwise (fun g h => (s.group g).readySince ≤ (s.group h).readySince) ∧
      (∀ g ∈ s.residents c, s.unblocked g = true → (s.group g).readySince + 512 ≤ (s.die (c / 12)).ck.toNat →
        g ∈ (t.core c).guard ∨
          (t.core c).guard.length = 16 ∧ ∀ h ∈ (t.core c).guard, (s.group h).readySince ≤ (s.group g).readySince) ∧
      (∀ g ∈ s.residents c, t.group g = { s.group g with hrun := 0 }) ∧ ∀ g, g ∉ s.residents c → t.group g = s.group g)

/-- R29 to R33: whose turn it is on a core. Of the groups that have not issued in this clk, a slot goes to those of the starvation
guard in their order, then to those in an HRUN run, and else to the first one (R31) of a candidate that is behind its weighted share;
a candidate stays one in a clk in which its ready groups have issued. Every slot counts in the share of the candidate that has it,
whatever gave it that. How candidates that are behind their shares are ranked, what counts as one interval, the weight before the
first count, when a run takes a slot out of turn, and that a slot goes unused where the candidate whose turn it is has no group
left, are log 67; that the delivery of an asynchronous trap takes a slot is log 117. A clk does not pass while a group of the guard
or in a run is owed its slot, and a group that waits counts the clk that it is ready anew. -/
def Obligations.ArbiterOrder : Prop :=
  (∀ (s : State) (g : Nat),
    let c := s.coreOf g
    let k := s.core c
    let ready := fun (h : Nat) => h ∈ s.residents c ∧ s.ready h = true
    let left := fun (h : Nat) => ready h ∧ (s.group h).issued = false
    (s.unblocked g = false ∨ (s.group g).issued = true ∨ 16 ≤ k.slots → s.admitted g = none) ∧
    ∀ t, s.admitted g = some t → let k' := t.core c
      t = { s with groups := t.groups, cores := t.cores } ∧ (∀ h, h ≠ g → t.group h = s.group h) ∧
      (∀ e, e ≠ c → t.core e = s.core e) ∧ t.group g = { s.group g with hrun := (t.group g).hrun } ∧
      (s.ready g = true → (t.group g).hrun = (s.group g).hrun - 1) ∧
      k' = { k with cands := k'.cands, issues := k'.issues } ∧
      (s.ready g = true → (∀ p ∈ k.weights, 0 < p.2) →
        (∀ before h after, k.guard = before ++ h :: after → (∀ i ∈ before, ¬ left i) → left h → g = h) ∧
        ((∀ i ∈ k.guard, ¬ left i) →
          let due := fun (h : Nat) => left h ∧ Turn k k'.cands (s.keyOf h)
          let runs := (s.residents c).filter (fun h => s.ready h && !(s.group h).issued && decide (0 < (s.group h).hrun))
          ((∀ h, ¬ due h) ∨ 16 ≤ k.slots + runs.length → 0 < (s.group g).hrun) ∧
          ((∃ h, due h) → k.slots + runs.length < 16 → due g ∧
            ∀ h, left h → s.keyOf h = s.keyOf g →
              let x := s.group g
              let y := s.group h
              0 < x.hrun ∧ y.hrun = 0 ∨ (0 < x.hrun ↔ 0 < y.hrun) ∧
                (x.readySince < y.readySince ∨ x.readySince = y.readySince ∧
                  (x.base < y.base ∨ x.base = y.base ∧ (s.wg x.wg).order ≤ (s.wg y.wg).order)))) ∧
        (∀ j, j ∈ k'.cands ↔ ∃ h, ready h ∧ s.keyOf h = j) ∧ k'.cands.Pairwise (· < ·) ∧
        ∀ j ∈ k'.cands, let x := takenBy k k'.cands j
          let e := if j = s.keyOf g then excess k k'.cands j + weightSum k k'.cands else excess k k'.cands j
          takenBy k' k'.cands j = ⟨if j = s.keyOf g then x.slots + 1 else x.slots, max x.most e, min x.least e⟩)) ∧
  (∀ (s : State) (c : Nat), Fmap.risingFrom 0 s.groups = true → (s.core c).slots < 16 →
    (∀ p ∈ (s.core c).weights, 0 < p.2) →
    let ready := fun (h : Nat) => h ∈ s.residents c ∧ s.ready h = true
    let left := fun (h : Nat) => ready h ∧ (s.group h).issued = false
    (∃ h, ready h) →
    (∃ h, left h ∧ (h ∈ (s.core c).guard ∨ 0 < (s.group h).hrun)) ∨ (∀ h, ready h → ∃ i, left i ∧ s.keyOf i = s.keyOf h) →
    ∃ g, left g ∧ ∃ t, s.admitted g = some t) ∧
  (∀ (s : State) (g : Nat), Fmap.risingFrom 0 s.groups = true →
    let c := s.coreOf g
    let left := fun (h : Nat) => h ∈ s.residents c ∧ s.ready h = true ∧ (s.group h).issued = false
    (s.core c).slots < 16 → s.ticks (s.dieOf g) = true → (∀ p ∈ (s.core c).weights, 0 < p.2) → left g →
    g ∈ (s.core c).guard ∨ 0 < (s.group g).hrun → ∃ h, s.mustIssue = some h) ∧
  (∀ (s : State) (h : Nat), Fmap.risingFrom 0 s.groups = true → s.mustIssue = some h → (∃ t, s.admitted h = some t) ∧
    ∃ g, g ∈ s.residents (s.coreOf h) ∧ s.ready g = true ∧ (s.group g).issued = false ∧
      (g ∈ (s.core (s.coreOf g)).guard ∨ 0 < (s.group g).hrun)) ∧
  ∀ (s : State) (g : Nat) (x : Group), Fmap.risingFrom 0 s.groups = true → Fmap.find s.groups g = some x → x.status = .live →
    s.ticks (s.dieOf g) = true → x.wait ≠ none ∨ x.parked ≠ none ∨ (s.wg x.wg).state ≠ .resident →
    (s.clk.group g).readySince = (s.clk.die (s.dieOf g)).ck.toNat

/-- R9, R11, R12, R43, R188, R285 to R287, R297, R301: dispatch, and the ends of workgroups and grids; R290, R292, R293: what the end
of a grid does to its node and to a successor of it. The NEXT that a record takes on a die is log 59. The X-class transfers of a
workgroup that ends run on, with its scratchpad held for them (log 105). -/
def Obligations.DispatchAndCompletion : Prop :=
  (∀ (ok : Nat → Bool) (d n : Nat) (rmen : Bool) (map : BitVec 8),
    (∀ cs, pickCores ok d (List.range n) rmen map = some cs ↔
      ∃ f, f < 3 ∧ PlacedOn ok d f n rmen map cs ∧ ∀ e, e < f → ∀ l, ¬ PlacedOn ok d e n rmen map l)) ∧
  (∀ (r : LRec) (d c : Nat), 0 < r.cpb → d < 4 → c ≤ r.clusters → let n := r.nextOn d c
    let die := fun (m : Nat) => r.place.toNat / 4 ^ (m / r.cpb % 32) % 4
    c ≤ n ∧ n ≤ r.clusters ∧ (n < r.clusters → die n = d) ∧ ∀ m, c ≤ m → m < n → die m ≠ d) ∧
  (∀ (s : State) (d k i : Nat) (r : LRec) (rest : List (Nat × Nat × LRec)) (cs : List Nat), d < 4 → s.openRecords = (k, i, r) :: rest →
    Fmap.find (s.ctx k).recs i = some r → r.next.length = 4 → r.next.getD d 0 < r.clusters →
    pickCores (fun c => s.dispatchOpen c && s.coreTakes c r.kern.need) d (List.range r.kern.cluster) r.rmen r.rankmap = some cs →
    let c := r.next.getD d 0
    let n := r.kern.lanes / 32
    ∃ t, exec (.clusterDispatch d) s = .next t ∧
      (∃ r', Fmap.find (t.ctx k).recs i = some r' ∧ r' = { r with next := r.next.set d (r.nextOn d (c + 1)), state := r'.state }) ∧
      (∀ h, h < s.nextId → t.group h = s.group h ∧ t.wg h = s.wg h) ∧
      ∀ j, j < cs.length →
        let w := t.wg (s.nextId + j)
        let lin := c * r.kern.cluster + j
        w.state = .resident ∧ w.ctx = k ∧ w.record = i ∧ w.core = cs.getD j 0 ∧ w.rank = j ∧ w.members.length = cs.length ∧
        w.linear = lin ∧ w.idx = lin % r.gx ∧ w.idy = lin / r.gx % r.gy ∧ w.idz = lin / r.gx / r.gy ∧ w.kern = r.kern ∧
        w.lanes = r.kern.lanes ∧ w.lines = r.kern.scratch ∧ w.resV = r.kern.vfloor * n ∧ w.resS = r.kern.sfloor * n ∧
        w.peakV = r.kern.vpeak * n ∧ w.peakS = r.kern.speak * n ∧
        ∀ b, b < n → ∃ g, (Fmap.find t.groups g).isSome = true ∧ (t.group g).readS2 58 = r.args ∧
          t.group g = { Group.fresh with wg := s.nextId + j, base := 32 * b, stage := (t.group g).stage, pc := r.kern.entry
                                         s := (t.group g).s, readySince := (s.die (w.core / 12)).ck.toNat } ∧
          (r.kern.stages = [] → (t.group g).stage = 0) ∧
          (∀ k, k < r.kern.stages.length → ((r.kern.stages.take k).map (·.1)).sum ≤ b → b < ((r.kern.stages.take (k + 1)).map (·.1)).sum →
            (t.group g).stage = k) ∧
          ∀ x, x < 58 → Fmap.find (t.group g).s x = none) ∧
  (∀ (s : State) (d : Nat), s.openRecords = [] → exec (.clusterDispatch d) s = .next s) ∧
  (∀ (s : State) (k : Nat), let w := s.wg k
    let idle := (∀ p ∈ s.groups, p.2.wg = k → p.2.status ≠ .live) ∧
      ∀ p ∈ s.engs, p.2.wg = k → p.2.kind = .xput ∨ p.2.kind = .xget
    (w.state = .resident ∨ w.state = .evicting → idle → ∃ t, exec (.workgroupEnd k) s = .next t ∧
      t = { s with wgs := t.wgs, ctxs := t.ctxs, root := t.root } ∧ t.wg k = { w with state := .ended } ∧
      (∀ j, j ≠ k → t.wg j = s.wg j) ∧
      (∀ r, Fmap.find (s.ctx w.ctx).recs w.record = some r →
        Fmap.find (t.ctx w.ctx).recs w.record = some { r with ended := r.ended + 1 }) ∧
      ((s.ctx w.ctx).state = .draining → Req.boundary ∈ t.root.incoming) ∧ ((s.ctx w.ctx).state ≠ .draining → t.root = s.root)) ∧
    (w.state = .evicted ∨ ¬ idle → exec (.workgroupEnd k) s = .next s)) ∧
  ∀ (s : State) (k i : Nat) (r : LRec), Fmap.find (s.ctx k).recs i = some r →
    let complete := r.allOut = true ∧ r.ended = r.gx * r.gy * r.gz ∧ (s.die 0).lost = false
    (¬ complete → exec (.gridCompletion k i) s = .next s) ∧
    (complete → r.node = none → s.heldNodes k = [] →
      (r.sig = false → exec (.gridCompletion k i) s = .next (s.setCtx k { s.ctx k with recs := Fmap.erase (s.ctx k).recs i })) ∧
      (∀ bs u, r.sig = true → s.ctxRead k 0 r.siga 8 = some bs → s.ctxWrite k 0 r.siga (leBytes 8 ((leNat bs + 2 ^ 64 - 1) % 2 ^ 64)) = some u →
        exec (.gridCompletion k i) s = .next (u.setCtx k { s.ctx k with recs := Fmap.erase (s.ctx k).recs i }))) ∧
    (∀ n, complete → r.node = some n → r.sig = false → s.graphs = [] → (s.node n).nsucc = 0 →
      ∃ t, exec (.gridCompletion k i) s = .next t ∧ (t.node n).state = .done ∧ Fmap.find (t.ctx k).recs i = none ∧
        t = { s with ctxs := t.ctxs, nodes := t.nodes }) ∧
    ∀ n m, complete → r.node = some n → r.sig = false → s.heldNodes k = [] → (s.node n).nsucc = 1 →
      (s.node n).succ.toNat % 65536 = m → m ≠ n → GraphsGoOn s (fun j => j = n ∨ j = m) →
      let x := s.node m
      let ended := s.setNode n { s.node n with state := .done }
      let freed := fun (u : State) => u.setCtx k { u.ctx k with recs := Fmap.erase (u.ctx k).recs i }
      (x.pred = 0 ∨ x.state ≠ .waiting →
        exec (.gridCompletion k i) s = .next (freed (ended.record (s.node n).ctx 17 0 noCore 0 noWg 0 m))) ∧
      (x.state = .waiting → 2 ≤ x.pred →
        exec (.gridCompletion k i) s = .next (freed (ended.setNode m { x with pred := x.pred - 1 }))) ∧
      (x.state = .waiting → x.pred = 1 → x.nsucc = 0 → ∃ t, exec (.gridCompletion k i) s = .next t ∧
        (t.node n).state = .done ∧ (∀ j, j ≠ n → j ≠ m → t.node j = s.node j) ∧ Fmap.find (t.ctx k).recs i = none ∧
        (pktType x.pkt = 0 → t.node m = { x with pred := 0, state := .done }) ∧
        (pktType x.pkt ≠ 0 → pktType x.pkt ≠ 1 → (s.ctx x.ctx).recs.length < 256 → t.node m = { x with pred := 0, state := .done }) ∧
        ∀ rd, pktType x.pkt = 1 → reservedZero x.pkt = true → pktDesc x.pkt % 128 = 0 → pktInd x.pkt = false → pktSig x.pkt = false →
          (s.ctx x.ctx).recs.length < 256 → s.launchRead x.ctx x.pkt = some rd →
          s.launchCode x.ctx rd (launchRecord x.pkt rd 0 (some m) 0) = 0 →
          t.node m = { x with pred := 0, state := .launched } ∧
            ∃ e l, Fmap.find (s.ctx x.ctx).recs e = none ∧ Fmap.find (t.ctx x.ctx).recs e = some l ∧ l.node = some m ∧
              l.desc.toNat = pktDesc x.pkt % 2 ^ 64)

/-- R275 to R280, R283, R284, R289 to R291: the registers of host queues, peers' writes, and rounds of the firmware core over one
head: the checks of a LAUNCH packet in the order of their codes, and a GRAPH packet, whose nodes it makes WAITING. That a
packet which breaks its format is fault 2 is log 34, and that a queue of a killed context is enabled into FAULT with code 4 is
log 56. The GRAPH rejection record is log 57, the code of each check of a launch log 60, a node's NSUCC above 8 log 39, and which
descriptors are accepted rests on logs 77, 83, 94, 95 and 116. A PREEMPT-ACK at the head of a HELD queue of a killed context is
consumed with no effect (log 124), and ADDR of the rejection of a packet that names no descriptor is 0 (log 125). -/
def Obligations.HostQueues : Prop :=
  (∀ (s : State) (k : Nat) (p : List Byte) (r : LaunchRead) (q order : Nat) (node : Option Nat), r.desc.length = 128 →
    let code := s.launchCode k r (launchRecord p r q node order)
    (code = 0 ↔ ∀ c, ¬ CheckFails s k p r c) ∧ ∀ c, code = c → c ≠ 0 → CheckFails s k p r c ∧ ∀ b, b < c → ¬ CheckFails s k p r b) ∧
  (∀ (s : State) (q : Nat) (v : Word), let x := s.hq q
    (x.state = .active ∨ x.state = .held → (v - x.widx).toNat + (x.widx - x.ridx).toNat ≤ 2 ^ x.log2n →
      exec (.doorbell q v) s = .next (s.setHq q { x with widx := v })) ∧
    (x.state = .active ∨ x.state = .held → 2 ^ x.log2n < (v - x.widx).toNat + (x.widx - x.ridx).toNat →
      exec (.doorbell q v) s = .next (s.setHq q { x with state := .fault, fcode := 1 })) ∧
    (x.state = .disabled ∨ x.state = .fault → exec (.doorbell q v) s = .next s) ∧
    (x.state = .fault → ∃ t, exec (.clr q) s = .next t ∧ t = s.setHq q (t.hq q) ∧
      t.hq q = { x with widx := x.ridx, fcode := 0, state := if (s.ctx x.ctx).state = .active then .active else .held }) ∧
    (x.state ≠ .fault → exec (.clr q) s = .next s) ∧
    (x.state ≠ .disabled → v.getLsbD 31 = false →
      exec (.queueDisable q v) s = .next (s.setHq q { x with en := false, state := .disabled })) ∧
    (x.state = .disabled → v.getLsbD 31 = true →
      let y := { x with peer := v.getLsbD 30, ctx := v.toNat / 65536 % 64, log2n := v.toNat % 16 }
      let legal := 4 ≤ v.toNat % 16 ∧ v.toNat % 16 ≤ 15 ∧ x.base.toNat % (64 * 2 ^ (v.toNat % 16)) = 0 ∧ (s.ctx y.ctx).state ≠ .free
      (legal → (s.ctx y.ctx).state = .active → exec (.queueEnable q v) s = .next (s.setHq q { y with en := true, state := .active })) ∧
      (legal → (s.ctx y.ctx).state = .killed →
        exec (.queueEnable q v) s = .next (s.setHq q { y with en := true, state := .fault, fcode := 4 })) ∧
      (¬ legal → exec (.queueEnable q v) s = .next (s.setHq q y)))) ∧
  (∀ (s : State) (peer : BitVec 16) (q i : Nat) (bs : List Byte) (v : Word),
    let may := (s.hq q).peer = true ∧ ∃ e ∈ s.acl, e.2.getLsbD 0 = true ∧ e.2.getLsbD 1 = true ∧
      e.2.toNat / 2 ^ 48 = peer.toNat ∧ e.2.toNat / 2 ^ 30 % 1024 ≤ q ∧ q < e.2.toNat / 2 ^ 30 % 1024 + e.2.toNat / 2 ^ 19 % 2048
    (¬ may → exec (.peerWrite (.slot peer q i bs)) s = .next s ∧ exec (.peerWrite (.doorbell peer q v)) s = .next s) ∧
    (may → exec (.peerWrite (.doorbell peer q v)) s = exec (.doorbell q v) s) ∧
    (∀ u, may → i < 2 ^ (s.hq q).log2n → bs.length ≤ 64 →
      s.ctxWrite (s.hq q).ctx 0 ((s.hq q).base + BitVec.ofNat 64 (64 * i)) bs = some u →
      exec (.peerWrite (.slot peer q i bs)) s = .next u)) ∧
  (∀ s : State, s.candidates = [] → exec .firmwareRound s = .next s) ∧
  ∀ (s : State) (q : Nat) (pkt : Option (List Byte)), q < 1024 → s.candidates = [⟨q, (s.hq q).ctx, pkt⟩] → (s.die 0).lost = false →
    let k := (s.hq q).ctx
    let next := { s.hq q with ridx := (s.hq q).ridx + 1 }
    let served : State := { s with root := { s.root with lastQueue := q } }
    (pkt = none → exec .firmwareRound s = .next (served.setHq q { s.hq q with state := .fault, fcode := 3 })) ∧
    ∀ p, pkt = some p → s.blocked q k p = false →
      (pktOk p = false → exec .firmwareRound s = .next (served.setHq q { s.hq q with state := .fault, fcode := 2 })) ∧
      (pktOk p = true →
        (pktType p = 0 → exec .firmwareRound s = .next (served.setHq q next)) ∧
        (pktType p = 3 → fieldAt p 1 1 = 0 → exec .firmwareRound s = .next (served.setHq q next)) ∧
        (pktType p = 4 → s.ctxRead k 0 (BitVec.ofNat 64 (fieldAt p 8 8)) 8 = none →
          exec .firmwareRound s = .next (served.setHq q { s.hq q with state := .fault, fcode := 3 })) ∧
        (∀ bs u, pktType p = 4 → fieldAt p 1 1 < 2 → s.ctxRead k 0 (BitVec.ofNat 64 (fieldAt p 8 8)) 8 = some bs →
          s.ctxWrite k 0 (BitVec.ofNat 64 (fieldAt p 8 8))
            (leBytes 8 (if fieldAt p 1 1 = 1 then leNat bs + fieldAt p 16 8 else fieldAt p 16 8)) = some u →
          ∃ t, exec .firmwareRound s = .next t ∧ t.mem = u.mem ∧ t.hq q = next ∧ t.groups = s.groups) ∧
        (pktType p = 5 → (s.ctx k).state = .saved → ∃ t, exec .firmwareRound s = .next t ∧ (t.ctx k).state = .active ∧
          (t.hq q).ridx = next.ridx ∧ t.groups = s.groups ∧ t.mem = s.mem) ∧
        (∀ r, pktType p = 1 → pktDesc p % 128 = 0 → pktInd p = false → pktSig p = false → s.launchRead k p = some r →
          let l := launchRecord p r q none s.nextId
          (s.launchCode k r l = 0 → ∃ t, exec .firmwareRound s = .next t ∧ t.hq q = next ∧ t.groups = s.groups ∧ t.mem = s.mem ∧
            Fmap.find (t.ctx k).recs (s.ctx k).freeRec = some { l with state := l.stateFor ((s.ctx k).state = .active) }) ∧
          (s.launchCode k r l ≠ 0 → ∃ t, exec .firmwareRound s = .next t ∧ t.hq q = next ∧ t.groups = s.groups ∧
            (t.ctx k).recs = (s.ctx k).recs)) ∧
        (let rejected := fun (code desc : Nat) =>
           exec .firmwareRound s = .next ((served.setHq q next).record k 15 code noCore 0 noWg desc q)
         (pktType p = 1 → (pktDesc p % 128 ≠ 0 → pktSig p = false → rejected 1 (pktDesc p)) ∧
           (pktDesc p % 128 = 0 → pktSig p = false → pktInd p = true → pktInda p % 4 ≠ 0 → rejected 7 (pktDesc p)) ∧
           (pktDesc p % 128 = 0 → (pktInd p = true → pktInda p % 4 = 0) → pktSig p = true → pktSiga p % 8 ≠ 0 →
             rejected 7 (pktDesc p)) ∧
           (pktDesc p % 128 = 0 → (pktInd p = true → pktInda p % 4 = 0) → pktSig p = false →
             (s.launchRead k p = none → rejected 8 (pktDesc p)) ∧
             ∀ r, s.launchRead k p = some r →
               (pktInd p = true → r.gx = 0 → exec .firmwareRound s = .next (served.setHq q next)) ∧
               ((pktInd p = true → r.gx ≠ 0) → s.launchCode k r (launchRecord p r q none s.nextId) ≠ 0 →
                 rejected (s.launchCode k r (launchRecord p r q none s.nextId)) (pktDesc p)))) ∧
         (pktType p = 2 → let first := fieldAt p 4 2
           let count := fieldAt p 6 2
           let inRange := fun (n : Nat) => first ≤ n ∧ n < first + count
           let bad := count = 0 ∨ 16384 < first + count ∨ ∃ n, inRange n ∧ ((s.node n).valid = false ∨ (s.node n).ctx ≠ k ∨
             (s.node n).state = .waiting ∨ (s.node n).state = .launched ∨
             ∃ j, j < 8 ∧ j < (s.node n).nsucc ∧ ¬ inRange ((s.node n).succ.toNat / 2 ^ (16 * j) % 65536))
           let graph : Graph := ⟨k, q, first, count, fieldAt p 1 1 = 1, BitVec.ofNat 64 (fieldAt p 8 8)⟩
           (bad → rejected 9 0) ∧
           (¬ bad → GraphsGoOn s inRange → (∀ n, inRange n → (s.node n).init ≠ 0) → ∃ t, exec .firmwareRound s = .next t ∧
             t = { served.setHq q next with nodes := t.nodes, graphs := s.graphs ++ [graph] } ∧
             ∀ n, t.node n = if first ≤ n ∧ n < first + count then { s.node n with state := .waiting, pred := (s.node n).init } else s.node n) ∧
           (¬ bad → GraphsGoOn s inRange → count = 1 → (s.node first).init = 0 → pktType (s.node first).pkt = 0 →
             (s.node first).nsucc = 0 → fieldAt p 1 1 ≠ 1 → ∃ t, exec .firmwareRound s = .next t ∧
             t = { served.setHq q next with nodes := t.nodes } ∧
             t.node first = { s.node first with state := .done, pred := 0 } ∧ ∀ n, n ≠ first → t.node n = s.node n))))

/-- R192, R247, R295 to R299: contexts, pre-emption, the switch, the save and the restore: a switch takes place at the boundary at
which every group that is left is in a region, and these are rolled back, or at which the drain count is BOUND. What a save writes
into the area and how much room it takes is free (log 10). That a boundary completes nothing while a matrix operation is in
flight is log 53. -/
def Obligations.Contexts : Prop :=
  (∀ (s : State) (k : Nat) (v : Word), let c := s.ctx k
    (c.state = .free → v.toNat % 8 = 1 → exec (.contextCreate k v) s =
      .next (s.setCtx k { c with state := .active, phased := v.getLsbD 3, dies := v.extractLsb' 4 4, touch := 0, seq := 0 })) ∧
    (c.state ≠ .free → exec (.contextCreate k v) s = .next s) ∧
    (let may := c.state = .saved ∨ c.state = .killed ∨ c.state = .active ∧ c.recs = [] ∧ s.liveWgs k = []
     (may → v.toNat % 8 = 0 → ∃ t, exec (.contextFree k v) s = .next t ∧ (t.ctx k).state = .free ∧ (t.ctx k).recs = [] ∧
        (t.ctx k).dlq = [] ∧ NoneLeft t k ∧ (∀ q, (s.hq q).ctx = k → (t.hq q).state = .disabled) ∧
        (∀ q, (s.hq q).ctx ≠ k → t.hq q = s.hq q) ∧ ∀ g ∈ t.graphs, g.ctx ≠ k) ∧
     (¬ may ∨ v.toNat % 8 ≠ 0 → exec (.contextFree k v) s = .next s))) ∧
  (∀ (s : State) (k : Nat) (v : Dword), let c := { s.ctx k with period := v.extractLsb' 32 32, bound := v.extractLsb' 8 8 }
    (v.getLsbD 0 = true → c.state = .active → ∃ t, exec (.preemptionRequest k v) s = .next t ∧
      t = { s with ctxs := t.ctxs, queues := t.queues, root := t.root } ∧ t.ctx k = { c with state := .requested, recs := (t.ctx k).recs } ∧
      Req.preempt k ∈ t.root.incoming ∧ (∀ i r, Fmap.find (t.ctx k).recs i = some r → r.state ≠ .dispatching) ∧
      (∀ q, (s.hq q).ctx = k → (s.hq q).state = .active → t.hq q = { s.hq q with state := .held }) ∧
      ∀ q, (s.hq q).ctx ≠ k ∨ (s.hq q).state ≠ .active → t.hq q = s.hq q) ∧
    (v.getLsbD 0 = false ∨ c.state ≠ .active → exec (.preemptionRequest k v) s = .next (s.setCtx k c))) ∧
  (∀ (s : State) (k : Nat), let c := s.ctx k
    let due := c.state = .draining ∧ c.period ≠ 0 ∧ c.drainTimer + c.period.toNat ≤ (s.die 0).ck.toNat
    (due → ∃ t, exec (.drainPeriod k) s = .next t ∧ t = { s with ctxs := t.ctxs, root := t.root } ∧
      t.ctx k = { c with drainTimer := (s.die 0).ck.toNat } ∧ Req.boundary ∈ t.root.incoming) ∧
    (¬ due → exec (.drainPeriod k) s = .next s)) ∧
  (∀ (s : State) (d k p : Nat) (v : Dword),
    let busy := (∃ w ∈ s.wgs, w.2.ctx = k ∧ w.2.core / 12 = d ∧ w.2.state.onCore = true) ∨
      ∃ e ∈ (s.die d).retireQ, e.ctx = k ∧ e.kind = 0 ∧ e.arg = p
    (busy → exec (.poolCfg d k p v) s = .next s) ∧
    (¬ busy → ∃ t, exec (.poolCfg d k p v) s = .next t ∧ t = { s with dies := t.dies } ∧
      (t.pool d k p).base = (s.pool d k p).base ∧ (t.pool d k p).count = v.toNat / 2 ^ 32 ∧
      (t.pool d k p).bytes = 64 * (v.toNat / 64 % 2 ^ 26) ∧ (t.pool d k p).freeCount = v.toNat / 2 ^ 32 ∧
      ∀ i j, (i, j) ≠ (k, p) → i < 64 → k < 64 → j < 16 → p < 16 → t.pool d i j = s.pool d i j)) ∧
  (∀ (s : State) (k : Nat), (s.die 0).lost = false → (∀ c, CoreUp s c → (s.core c).arrived = true ∧ (s.core c).relPending = false) →
    s.root.wave = some .computeEnd → s.root.now = [.preempt k] → s.root.doomed = [] → (s.ctx k).state = .requested →
    (∀ p ∈ s.ctxs, p.2.state ≠ .draining) → Fmap.risingFrom 0 s.ctxs = true →
    ((∀ p ∈ s.wgs, p.2.ctx = k → p.2.state.holdsSlots = false) → ∃ t, exec .boundaryCompletion s = .next t ∧
      (t.ctx k).state = .saved ∧ t.root.ph = s.root.ph + 1) ∧
    ((∃ p ∈ s.groups, p.2.status = .live ∧ p.2.region = none ∧ ∃ w, Fmap.find s.wgs p.2.wg = some w ∧ w.ctx = k ∧ w.state.holdsSlots = true) →
      (s.ctx k).bound ≠ 0 → ∃ t, exec .boundaryCompletion s = .next t ∧ (t.ctx k).state = .draining ∧ (t.ctx k).drain = 1 ∧
        t.groups = s.groups ∧ t.mem = s.mem)) ∧
  (∀ (s : State) (k j : Nat) (w : Wg), (s.die 0).lost = false → (∀ c, CoreUp s c → (s.core c).arrived = true ∧ (s.core c).relPending = false) →
    s.root.wave = some .computeEnd → s.root.now = [] → s.root.doomed = [] → (s.ctx k).state = .draining →
    (∀ p ∈ s.ctxs, p.2.state = .draining → p.1 = k) →
    Fmap.risingFrom 0 s.ctxs = true → Fmap.risingFrom 0 s.wgs = true → Fmap.risingFrom 0 s.groups = true →
    Fmap.find s.wgs j = some w → w.ctx = k → w.state.holdsSlots = true →
    (∀ i v, Fmap.find s.wgs i = some v → v.ctx = k → v.state.holdsSlots = true → i = j) →
    let d := w.core / 12
    let discardable := ∀ x ∈ s.groups, x.2.wg = j → x.2.status = .live → x.2.region ≠ none
    let last := (s.ctx k).drain = (s.ctx k).bound.toNat
    (¬ discardable → ¬ last → ∃ t, exec .boundaryCompletion s = .next t ∧ t.ctx k = { s.ctx k with drain := (s.ctx k).drain + 1 } ∧
      t.groups = s.groups ∧ t.mem = s.mem ∧ t.root.ph = s.root.ph + 1) ∧
    (discardable ∨ last → (∃ p ∈ s.mops, p.2.wg = j) → exec .boundaryCompletion s = .next s) ∧
    (discardable ∨ last → (∀ p ∈ s.engs, p.2.wg = j → p.2.parkSeq ≠ none) → (∀ p ∈ s.mops, p.2.wg ≠ j) →
      (∀ h y, (s.group h).wait = some y → ¬ AtQueue y.kind) → (∀ x ∈ s.groups, Trap.dieLost ∉ x.2.pendTraps) →
      let room := areaSize (Fmap.get 0 (s.ctx k).save d) - s.saveUsed k d
      ∃ t, exec .boundaryCompletion s = .next t ∧ (t.ctx k).state = .saved ∧ t.root.ph = s.root.ph + 1 ∧
        ((t.wg j).state = .saved ∨ (t.wg j).state = .terminated) ∧
        (¬ discardable → 0 < room → s.saveNeed j ≤ room → (t.wg j).state = .saved) ∧
        (0 < room → (∀ n m, Config.saveUnits w.lanes n m w.lines ≤ room) → (t.wg j).state = .saved) ∧
        ∀ g x, Fmap.find s.groups g = some x → x.wg = j → x.status = .live → (t.wg j).state = .saved →
          let y := t.group g
          (∀ l ∈ y.vk ++ y.sk, l.valid = false) ∧
          (∀ r, discardable → x.region = some r → y.pc = r.restart ∧ y.v = r.v ∧ y.s = r.s ∧ y.m = r.m ∧ y.flags = r.flags ∧
            y.sig = r.sig ∧ y.rdDepth = r.rdDepth ∧ y.wait = none ∧ y.rollbacks = x.rollbacks ∧
            y.mstk = x.mstk.drop (x.mstk.length - r.msDepth) ∧ y.rstk = x.rstk.drop (x.rstk.length - r.rsDepth)) ∧
          (¬ discardable → y.v = x.v ∧ y.s = x.s ∧ y.m = x.m ∧ y.flags = x.flags ∧ y.sig = x.sig ∧ y.rdDepth = x.rdDepth ∧
            y.mstk = x.mstk ∧ y.rstk = x.rstk ∧ y.batches = x.batches))) ∧
  ∀ (s : State) (k : Nat), memWf s.mem = true →
    let w := s.wg k
    let pad := spadLoc w.core (128 * w.line0)
    (areaSize (Fmap.get 0 (s.ctx w.ctx).save (w.core / 12)) ≥ s.saveUsed w.ctx (w.core / 12) + s.saveNeed k → w.lines ≤ 8192 →
      w.core < 48 → w.line0 + w.lines ≤ 8192 →
      let t := s.fullSave k
      (t.wg k).state = .saved ∧ (∀ a, a < 128 * w.lines → t.byteAt (savedLoc k + a) = s.byteAt (pad + a)) ∧ t.free = s.free + 1 ∧
      (∀ a, (a < pad ∨ pad + 128 * w.lines ≤ a) → (a < savedLoc k ∨ savedLoc k + 128 * w.lines ≤ a) →
        ¬ InArea s w.ctx (w.core / 12) (Fmap.get 0 (s.ctx w.ctx).save (w.core / 12)) a → t.byteAt a = s.byteAt a) ∧
      (∀ g x, Fmap.find s.groups g = some x → x.wg = k → x.status = .live →
        (t.group g).v = x.v ∧ (t.group g).s = x.s ∧ (t.group g).m = x.m ∧ (t.group g).flags = x.flags ∧
        (t.group g).mstk = x.mstk ∧ (t.group g).rstk = x.rstk ∧ ∀ l ∈ (t.group g).vk ++ (t.group g).sk, l.valid = false)) ∧
    ∀ c line0, c < 48 → s.spadFit c w.kern.scratch = some line0 → line0 + w.kern.scratch ≤ 8192 →
      let t := s.restoreWg k c
      (t.wg k).state = .resident ∧ (t.wg k).core = c ∧
      (∀ a, a < 128 * w.kern.scratch → t.byteAt (spadLoc c (128 * line0) + a) = s.byteAt (savedLoc k + a)) ∧
      ∀ g, (s.group g).wg = k → let x := s.group g
        let y := t.group g
        (∀ r l, y.readV r l = x.readV r l ∧ y.mask r = x.mask r) ∧
        (∀ n, y.futOf n = x.futOf n ∧ (x.futOf n = none → y.readS n = x.readS n)) ∧
        y = { x with v := y.v, s := y.s, region := y.region, wait := y.wait, past := y.past } ∧
        (c ≠ w.core → y.past = x.past ∧ (t.core c).l1 = []) ∧ (c = w.core → Learns s g (Fmap.get 0 x.past) y)

/-- R267 to R269, R271, R313: MFENCE, MWAIT and MSTAT. That status gathered before the batch's first operation goes with it is
log 64.
R271, R272, R322: self-tests, fences and retests of matrix quadrants. The outcome of a self-test is an argument (log 72), and a
test that passes while a batch is open serves for its later close (log 115). A RETEST that passes on its repetition passes
(log 123). -/
def Obligations.MatrixBatches : Prop :=
  ((∀ (f : FmtMw) (s : State), Ready (.mfence f) s →
     let x := s.reader (.mfence f)
     (8 ≤ (x.batches.filter (fun b => !b.done)).length → Stalls (.mfence f) s .limit) ∧
     ((x.batches.filter (fun b => !b.done)).length < 8 → HasRoom (.mfence f) s 0 1 →
       ∃ t bs, Does (.mfence f) s s
           { x with nb := if x.nb + 1 = 0 then 1 else x.nb + 1, batchOpen := false, openStatus := 0, batches := bs }
           (nextPc x.pc) false { s := [f.x.toNat] } t ∧
         (t.group s.cur).readS f.x.toNat = x.nb ∧ bs.map (·.n) = x.batches.map (·.n) ++ [x.nb] ∧
         bs.map (·.status) = x.batches.map (·.status) ++ [if x.batchOpen then x.openStatus else 0])) ∧
   (∀ (f : FmtMw) (s : State), Ready (.mwait f) s →
     let x := s.reader (.mwait f)
     let n := x.srcS f.x.toNat
     let d := (x.nb - n).toNat
     let legal := n ≠ 0 ∧ d ≠ 0 ∧ d ≤ 2147483648
     let told := fun (b : Batch) => decide ((x.nb - b.n).toNat < (x.nb - x.wm).toNat ∧ ¬ (x.nb - b.n).toNat < (x.nb - n).toNat)
     let st := (x.batches.filter told).foldl (fun a b => a ||| b.status) 0
     let z := { x with batches := x.batches.filter (fun b => !told b), wm := if (x.nb - n).toNat < (x.nb - x.wm).toNat then n else x.wm }
     (¬ legal → Traps (.mwait f) s { trap := .matrixOperand }) ∧
     (legal → (∃ b ∈ x.batches, b.n = n ∧ b.done = false) → Stalls (.mwait f) s .result) ∧
     (legal → (∀ b ∈ x.batches, b.n = n → b.done = true) → HasRoom (.mwait f) s 0 1 →
       (st.getLsbD 0 = false ∨ x.region = none → ∃ t, Does (.mwait f) s s z (nextPc x.pc) false { s := [f.x.toNat] } t ∧
         (t.group s.cur).readS f.x.toNat = st) ∧
       (∀ r, st.getLsbD 0 = true → x.region = some r → x.rollbacks < 15 → s.matrixBusy s.cur = false →
         Trap.dieLost ∉ x.pendTraps → ∃ t, exec (.mwait f) s = .next t ∧ (t.group s.cur).pc = r.restart ∧
           (t.group s.cur).rollbacks = x.rollbacks + 1 ∧ (t.group s.cur).v = r.v ∧ (t.group s.cur).s = r.s))) ∧
   ∀ (f : FmtMw) (s : State), Ready (.mstat f) s → HasRoom (.mstat f) s 0 1 →
     let c := s.core s.myCore
     ScalarWritten (.mstat f) s f.x.toNat 1 (fun _ => BitVec.ofNat 32 (c.fails.toNat * 16777216 + (if c.fenced = 0 then 1024 else 0) +
       (if c.fenced &&& 12 = 0 then 512 else 0) + (if c.fenced &&& 3 = 0 then 256 else 0) + c.lastFail.toNat * 16 + c.fenced.toNat))) ∧
  ((∀ (s : State) (c q : Nat) (pass1 pass2 : Bool), c < 48 → q < 4 → s.testDue c q = true →
     let k := s.core c
     let bit := BitVec.ofNat 4 (2 ^ q)
     ∃ t, exec (.selfTest c q pass1 pass2) s = .next t ∧ (t.core c).firstTest.getLsbD q = false ∧ (t.core c).testPending.getLsbD q = false ∧
       (∀ e, e ≠ c → t.core e = s.core e) ∧ (∀ i, i < 4 → i ≠ q → (t.core c).fenced.getLsbD i = k.fenced.getLsbD i) ∧
       (t.core c).fails.toNat = min 255 (k.fails.toNat + if pass1 then 0 else if pass2 then 1 else 2) ∧
       (pass1 = true ∨ pass2 = true → (t.core c).lastFail = k.lastFail &&& ~~~ bit ∧ Fmap.get [] (t.core c).quadUse q = [] ∧
         ((t.core c).fenced.getLsbD q = true ↔ k.fenced.getLsbD q = true ∧ k.testPending.getLsbD q = false)) ∧
       (pass1 = false → pass2 = false → (t.core c).lastFail = k.lastFail ||| bit ∧ (t.core c).fenced = k.fenced ||| bit) ∧
       (pass1 = false → pass2 = false → k.fenced.getLsbD q = false → k.fenced ||| bit = 15 →
         ∀ i o, Fmap.find s.mops i = some o → (s.wg o.wg).core = c → Fmap.find t.mops i = some { o with noEngine := true }) ∧
       (pass1 = false → ∀ u ∈ Fmap.get [] k.quadUse q, ∀ x b, Fmap.find s.groups u.g = some x → b ∈ x.batches → b.n = u.batch →
         b.done = false → x.batchOpen = false → ∃ b' ∈ (t.group u.g).batches, b'.n = u.batch ∧ b'.status.getLsbD 0 = true)) ∧
   (∀ (s : State) (c q : Nat) (p1 p2 : Bool), s.testDue c q = false → exec (.selfTest c q p1 p2) s = .next s) ∧
   (∀ (s : State) (c : Nat) (v : BitVec 4), let fenced := (s.core c).fenced ||| v
     ∃ t, exec (.mxctlFence c v) s = .next t ∧ t = { s with cores := t.cores, mops := t.mops } ∧
       t.core c = { s.core c with fenced := fenced } ∧ (∀ e, e ≠ c → t.core e = s.core e) ∧
       ∀ i, Fmap.find t.mops i = (Fmap.find s.mops i).map (fun o =>
         if fenced = 15 ∧ (s.wg o.wg).core = c then { o with noEngine := true } else o)) ∧
   ∀ (s : State) (c : Nat) (v : BitVec 4), exec (.retest c v) s =
     .next (s.setCore c { s.core c with testPending := (s.core c).testPending ||| v }))

/-- R235, R241: FWAIT, FTEST, FCANCEL and FPASS. That FTEST leaves the completion word in its source and unbinds it is log 44, and
that FPASS of a name to itself keeps the binding is log 101.
R95, R97, R240: the schedule of PFD lines, its budgets, and the resumption of a parked operation. Where a budget's windows begin
is log 109. -/
def Obligations.FuturesAndFills : Prop :=
  ((∀ (f : FmtDa) (s : State), Ready (.fwait f) s → HasRoom (.fwait f) s 0 1 →
     ScalarWritten (.fwait f) s f.d.toNat 1 (fun _ => (s.reader (.fwait f)).srcS f.a.toNat) ∧
     ∀ op w, f.a.toNat < 60 → s.me.futOf f.a.toNat = some op → Fmap.find s.done op = some w →
       (s.reader (.fwait f)).srcS f.a.toNat = w) ∧
   (∀ (f : FmtDa) (s : State), Ready (.ftest f) s → HasRoom (.ftest f) s 0 1 →
     let bound := if f.a.toNat < 60 then s.me.futOf f.a.toNat else none
     (bound = none → ScalarWritten (.ftest f) s f.d.toNat 1 (fun _ => (s.reader (.ftest f)).srcS f.a.toNat)) ∧
     (∀ op, bound = some op → Fmap.find s.done op = none → ScalarWritten (.ftest f) s f.d.toNat 1 (fun _ => 2)) ∧
     ∀ op w, bound = some op → Fmap.find s.done op = some w →
       ∃ t, Does (.ftest f) s s (s.reader (.ftest f)) (nextPc s.me.pc) false { s := [f.d.toNat, f.a.toNat] } t ∧
         (t.group s.cur).readS f.d.toNat = w ∧ (t.group s.cur).futOf f.d.toNat = none ∧
         (f.a ≠ f.d → (0, f.a.toNat) ∉ (s.reader (.ftest f)).lastReads (Instr.info (.ftest f)) →
           (t.group s.cur).readS f.a.toNat = w ∧ (t.group s.cur).futOf f.a.toNat = none)) ∧
   (∀ (f : FmtA) (s : State), Ready (.fcancel f) s →
     let bound := if f.a.toNat < 60 then s.me.futOf f.a.toNat else none
     (bound = none → Becomes (.fcancel f) s s (s.reader (.fcancel f)) (nextPc s.me.pc) false) ∧
     ∀ op, bound = some op →
       (Fmap.find s.engs op = none → Becomes (.fcancel f) s s (s.reader (.fcancel f)) (nextPc s.me.pc) false) ∧
       ∀ o, Fmap.find s.engs op = some o →
         (o.left = [] → Becomes (.fcancel f) s s (s.reader (.fcancel f)) (nextPc s.me.pc) false) ∧
         (o.left ≠ [] → o.parkSeq = none → Becomes (.fcancel f) s
           { s with engs := Fmap.adjust s.engs op (fun y => { y with cancelled := true }) }
           (s.reader (.fcancel f)) (nextPc s.me.pc) false) ∧
         (o.left ≠ [] → o.parkSeq ≠ none → Becomes (.fcancel f) s
           { s.releaseLines o with engs := Fmap.erase s.engs op, done := Fmap.insert s.done op 1 }
           (s.reader (.fcancel f)) (nextPc s.me.pc) false)) ∧
   ∀ (f : FmtDa) (s : State), Ready (.fpass f) s → HasRoom (.fpass f) s 0 1 →
     let bound := if f.a.toNat < 60 then s.me.futOf f.a.toNat else none
     (bound = none → ScalarWritten (.fpass f) s f.d.toNat 1 (fun _ => (s.reader (.fpass f)).srcS f.a.toNat)) ∧
     ∀ op, bound = some op →
       ∃ t, Does (.fpass f) s s (s.reader (.fpass f)) (nextPc s.me.pc) false { s := [f.d.toNat, f.a.toNat] } t ∧
         (t.group s.cur).readS f.d.toNat = s.me.readS f.a.toNat ∧ (t.group s.cur).futOf f.d.toNat = some op ∧
         (f.a ≠ f.d → (t.group s.cur).futOf f.a.toNat = none)) ∧
  ((∀ (s : State) (d op : Nat) (o : EngOp) (k : Nat) (rest : List Nat), Fmap.risingFrom 0 s.engs = true →
     (s.engs.filter (fun p => p.2.kind = .pfd && (s.wg p.2.wg).core / 12 = d)) = [(op, o)] →
     o.cancelled = false → o.unissued = k :: rest →
     let ctx := (s.wg o.wg).ctx
     let budget := (s.ctx ctx).pfd.toNat % 65536
     let over_ := (s.die d).pfdWindow + 1024 ≤ (s.die d).ck.toNat
     let used := if over_ then 0 else Fmap.get 0 (s.die d).pfdUsed ctx
     ((s.die d).ck.toNat + 4 * o.unissued.length ≤ o.deadline → budget = 0 ∨ used < budget →
       ∃ t, exec (.pfdLineIssue d) s = .next t ∧ t = { s with engs := t.engs, dies := t.dies } ∧
         Fmap.find t.engs op = some { o with issued := o.issued ++ [k] } ∧
         Fmap.get 0 (t.die d).pfdUsed ctx = used + 1 ∧ (t.die d).ck.toNat < (t.die d).pfdWindow + 1024) ∧
     ((s.die d).ck.toNat + 4 * o.unissued.length ≤ o.deadline → budget ≠ 0 → budget ≤ used →
       exec (.pfdLineIssue d) s = .next s) ∧
     (o.deadline < (s.die d).ck.toNat + 4 * o.unissued.length → ∃ t, exec (.pfdLineIssue d) s = .next t ∧
       t = { s with engs := t.engs, dies := t.dies } ∧ (¬ over_ → t.dies = s.dies) ∧
       Fmap.find t.engs op = some { o with cancelled := true })) ∧
   (∀ (s : State) (d : Nat), let x := s.die d
     (x.pfdWindow + 1024 ≤ x.ck.toNat → exec (.pfdBudgetWindow d) s =
       .next (s.setDie d { x with pfdUsed := [], pfdWindow := x.ck.toNat / 1024 * 1024 })) ∧
     (x.ck.toNat < x.pfdWindow + 1024 → exec (.pfdBudgetWindow d) s = .next s)) ∧
   ∀ (s : State) (k : Nat) (v : Word), ∃ t, exec (.cxmResume k v) s = .next t ∧ t = { s with engs := t.engs } ∧
     ∀ op o, Fmap.find s.engs op = some o → Fmap.find t.engs op = some
       (if (s.wg o.wg).ctx = k ∧ o.parkSeq = some v.toNat then { o with parkSeq := none } else o))

/-- R271, R304, R324 to R335: reset and boot, dies that join, power, the registers, snapshots and host writes. Outcomes come as
arguments (log 72); that RESET ends in stage DIE0 or FAILED is log 17, what a die that joins holds is log 55, the measurements and
the power drawn are free (logs 11, 87), DRAW and RBDATA have their reset value 0 until a clk and a write to RBSEL (logs 11, 38),
partial and unaligned writes are log 39, and what D3hot stops is log 40. -/
def Obligations.Platform : Prop :=
  (∀ s : State, s.root.ticks = 0 → s.pwrctl.toNat / 2 ^ 48 = 0) ∧ (∀ (s : State) (c : Nat), (s.core c).rbSet = false → s.rbdata c = 0) ∧
  (∀ (s : State) (img : Boot), ∃ t, exec (.reset img) s = .next t ∧
    t = { State.reset with agenda := s.agenda, free := s.free + 1, dies := t.dies, root := t.root } ∧
    t.root = { Root.reset with stage := t.root.stage, fail := t.root.fail, image := Config.imageMeasure s.free } ∧
    (img = .verified → t.root.stage = .die0 ∧ t.root.fail = 0 ∧ t.die 0 = { Die.reset with alive := true } ∧
      ∀ d, d ≠ 0 → t.die d = Die.reset) ∧
    (img ≠ .verified → (∀ d, t.die d = Die.reset) ∧ t.root.stage = .failed ∧ t.root.fail ≠ 0)) ∧
  (∀ (s : State) (d : Nat), 1 ≤ d → d ≤ 3 → s.root.stage = .die0 ∨ s.root.stage = .joining → (s.die d).authDone = false →
    (s.die d).leftOut = false → (s.die d).lost = false →
    (∃ t, exec (.dieAuthentication d true) s = .next t ∧ t.die d = { s.die d with authDone := true, joinPending := true } ∧
      Req.boundary ∈ t.root.incoming ∧ t.root.stage = .joining ∧ t = { s with dies := t.dies, root := t.root }) ∧
    ∃ t, exec (.dieAuthentication d false) s = .next t ∧ t.die d = { s.die d with leftOut := true } ∧
      t = { s with dies := t.dies, root := t.root }) ∧
  (∀ (s : State) (c d : Nat), (s.core c).relPending = true → CoreUp s c → s.root.ph.getLsbD 0 = false → 1 ≤ d → d ≤ 3 →
    (s.die d).joinPending = true → (s.die d).lost = false →
    ∃ t, exec (.release c) s = .next t ∧ InService t d ∧ ∀ e, e / 12 = d → e ≠ c → e < 48 →
      (t.core e).ph = s.root.ph ∧ (t.core e).parity = s.root.g.getLsbD 0) ∧
  (∀ s : State, s.root.stage ≠ .rom → s.root.stage ≠ .verify →
    exec .spdmRequest s = .next { s with root := { s.root with doe := some (s.root.image, Config.keyHashMeasure) } }) ∧
  (∀ (s : State) (i : Instr) (rest : List Choice), s.agenda = .event i :: rest → s.root.stage = .failed →
    i ∉ [Instr.d3hot, .d3cold, .spdmRequest] → (∀ img, i ≠ .reset img ∧ i ≠ .d0Return img) → (∀ e, i ≠ .softError e) →
    (∀ d, i ≠ .dieLost d) → step s = .next { s with agenda := rest }) ∧
  (∀ (s : State) (off : Nat), s.hostRead off = if s.root.stage = .failed then none else some (s.readDword off)) ∧
  (∀ s : State, s.pwrctl.toNat / 2 ^ 48 ≤ 2400) ∧
  (∀ s : State, (s.root.power = .d0 → exec .d3hot s = .next { s with root := { s.root with power := .d3hot } }) ∧
    (s.root.power = .d3hot → ∀ img, exec (.d0Return img) s = .next { s with root := { s.root with power := .d0 } }) ∧
    (s.root.power = .d3cold → ∀ img, exec (.d0Return img) s = exec (.reset img) s) ∧
    exec .d3cold s = .next { State.reset with agenda := s.agenda, free := s.free, root := { Root.reset with power := .d3cold } }) ∧
  (∀ (s : State) (d n : Nat), d < 4 → n ≤ 4 → exec (.throttle d n) s = .next (s.setDie d { s.die d with throt := n })) ∧
  (∀ s : State, (s.root.snapPend = [] → exec .trig s = .next { s with root := { s.root with
      snapSeq := s.root.snapSeq + 1, snapPend := (List.range 117).filter s.blockAlive } }) ∧
    (s.root.snapPend ≠ [] → exec .trig s = .next s)) ∧
  (∀ (s : State) (b : Nat), b ∈ s.root.snapPend → b < 117 →
    ∃ t, exec (.snapshotLatch b) s = .next t ∧ t = { s with snaps := t.snaps, snapSeqs := t.snapSeqs, root := t.root } ∧
      t.root = { s.root with snapPend := s.root.snapPend.filter (fun x => x ≠ b) } ∧ t.snapSeqOf b = s.snapSeqOf b + 1 ∧
      (∀ i, i < 510 → t.copyWord b i = s.readWord (blockBase b + 4 * i)) ∧ t.copyWord b 510 = s.snapSeqOf b + 1) ∧
  (∀ (s : State) (c : Nat) (v : Dword), exec (.rbsel c v) s = .next (s.setCore c { s.core c with rbsel := v, rbSet := true })) ∧
  (∀ (s : State) (k : Nat) (v : Dword), k < 64 → s.root.stage ≠ .failed →
    ∀ r ∈ ([(0x010, 0x0FFFFFFFFFFFFFFF), (0x028, 0x0FFFFFFFFFFFFFFF), (0x030, 0x0FFFFFFFFFFFFFFF), (0x100, 0x000FFFFFFFFF8001),
        (0x128, 0x0FFFFFFFFFFFF00F), (0x148, 0x0FFFFFFFFFFFF80F), (0x158, 0x0FFFFFFFFFFFFF01)] : List (Nat × Dword)),
      ∃ t, exec (.registerWrite (0x1000000 + 0x10000 * k + r.1) true v) s = .next t ∧
        t.readDword (0x1000000 + 0x10000 * k + r.1) = v &&& r.2 ∧ t = { s with ctxs := t.ctxs } ∧ ∀ j, j ≠ k → t.ctx j = s.ctx j) ∧
  (∀ (s : State) (v : Dword), s.root.stage ≠ .failed → ∀ c, c < 48 → exec (.registerWrite (0x800060 + 0x1000 * c) true v) s = exec (.rbsel c v) s) ∧
  (∀ (s : State) (off : Nat) (wide : Bool) (v : Dword), s.root.stage = .failed → exec (.registerWrite off wide v) s = .next s) ∧
  ∀ (s : State) (pa : Nat) (bs : List Byte),
    ((∀ i, i < bs.length → isMemory (pa + i) = true) → ∃ t, exec (.hostWrite pa bs) s = .next t ∧
      t = { s with mem := t.mem, poison := t.poison } ∧ (∀ i, i < bs.length → t.byteAt (pa + i) = bs.getD i 0) ∧
      ∀ a, a < pa ∨ pa + bs.length ≤ a → t.byteAt a = s.byteAt a) ∧
    ((∃ i, i < bs.length ∧ isMemory (pa + i) = false) → exec (.hostWrite pa bs) s = .fault .noSuchMemory)

/-- R302, R303, R312 to R316, R319, R320: asynchronous traps, soft errors, and the loss of a die. The loss of die 0 kills all 64
contexts (log 15), the workgroups of a lost die end within its loss (log 16), ADDR of such records is 0 (log 30), lines of an L1
have 128 bytes (log 73), and a group that is rolled back in handler mode stays in it (log 127). -/
def Obligations.ErrorsAndDieLoss : Prop :=
  (∀ (s : State) (g : Nat) (x : Group) (a : Trap), Fmap.find s.groups g = some x → s.onDuty g = true →
    (s.wg x.wg).state = .resident → x.asyncDue = true → x.pendTraps = [a] → x.wait = none →
    (s.ctx (s.wg x.wg).ctx).trap.getLsbD 0 = true → s.room x.wg 0 6 = true →
    ∃ t, exec (.asyncTrapDelivery g) s = .next t ∧ t = { s with groups := t.groups } ∧ (∀ h, h ≠ g → t.group h = s.group h) ∧
      (t.group g).pendTraps = [] ∧ (t.group g).handler = true ∧ (t.group g).readS 54 = BitVec.ofNat 32 a.code ∧
      (t.group g).readS2 52 = x.trapPc ∧ (t.group g).pc = (s.ctx (s.wg x.wg).ctx).trap &&& 0x0FFFFFFFFFFFFF00) ∧
  (∀ (s : State) (g : Nat), (s.group g).asyncDue = false → exec (.asyncTrapDelivery g) s = .next s) ∧
  (∀ s : State, exec (.softError .corrected) s = .next s ∧
    (∀ loc, exec (.softError (.data loc)) s = .next { s with poison := Fmap.insert s.poison (loc / 8) true }) ∧
    (∀ c pa, ∃ t, exec (.softError (.cache c pa)) s = .next t ∧ t = { s with cores := t.cores } ∧ SameButL1 s t ∧
      (∀ e, e ≠ c → t.core e = s.core e) ∧ ∀ l, Fmap.find (t.core c).l1 l = (Fmap.find (s.core c).l1 l).map (fun x =>
        if l = pa / 128 then { x with bad := x.bad ||| BitVec.ofNat 16 (2 ^ (pa % 128 / 8)) } else x)) ∧
    (∀ loc, exec (.softError (.tag loc)) s = .next { s with tagPoison := Fmap.insert s.tagPoison (loc / 64) true }) ∧
    (∀ d, exec (.softError (.dieControl d)) s = exec (.dieLost d) s)) ∧
  (∀ (s : State) (g : Nat) (x : Group), Fmap.find s.groups g = some x → s.onDuty g = true →
    (x.region = none → exec (.softError (.pipe g)) s = .next ((s.recordG g 6 3 0 0 x.trapPc.toNat).terminate x.wg)) ∧
    (∀ r, x.region = some r → Trap.dieLost ∉ x.pendTraps → x.rollbackDue = false → 15 ≤ x.rollbacks → exec (.softError (.pipe g)) s =
      .next (((s.recordG g 21 3 0 0 r.restart.toNat).recordG g 6 3 0 0 x.trapPc.toNat).terminate x.wg)) ∧
    (∀ r, x.region = some r → Trap.dieLost ∉ x.pendTraps → x.rollbackDue = true → exec (.softError (.pipe g)) s = .next s) ∧
    (∀ r, x.region = some r → Trap.dieLost ∉ x.pendTraps → x.rollbackDue = false → x.rollbacks < 15 → s.matrixBusy g = true →
      exec (.softError (.pipe g)) s =
        .next (s.setGroup g { x with rollbackDue := true, stall := none, rollbacks := x.rollbacks + 1 })) ∧
    (∀ r, x.region = some r → Trap.dieLost ∈ x.pendTraps →
      exec (.softError (.pipe g)) s = .next (s.setGroup g { x with pc := x.trapPc, bundle := none, stall := none })) ∧
    (∀ r, x.region = some r → Trap.dieLost ∉ x.pendTraps → x.rollbackDue = false → x.rollbacks < 15 → s.matrixBusy g = false →
      ∃ t, exec (.softError (.pipe g)) s = .next t ∧
      let y := t.group g
      y.pc = r.restart ∧ y.v = r.v ∧ y.s = r.s ∧ y.m = r.m ∧ y.flags = r.flags ∧ y.sig = r.sig ∧ y.rdDepth = r.rdDepth ∧
      y.rollbacks = x.rollbacks + 1 ∧ y.handler = x.handler ∧ y.wait = none ∧ y.bundle = none ∧ y.mstk = x.mstk.drop (x.mstk.length - r.msDepth) ∧
      y.rstk = x.rstk.drop (x.rstk.length - r.rsDepth) ∧ (∀ l ∈ y.sk ++ y.vk, l.valid = false) ∧
      ((∀ k, x.wait = some k → ¬ AtQueue k.kind) → ∀ h, h ≠ g → t.group h = s.group h))) ∧
  (∀ (s : State) (g name lane : Nat) (sl : Slice), Fmap.find (s.group g).v (vkey name (lane / 8)) = some sl →
    Fmap.find s.groups g = some (s.group g) → (s.wgOf g).state.onCore = true →
    ∃ t, exec (.softError (.vector g name lane)) s = .next t ∧ t = { s with groups := t.groups } ∧ (t.group g).badV name lane = true ∧
      ∀ h n l, (t.group h).readV n l = (s.group h).readV n l) ∧
  (∀ (s : State) (g name : Nat) (e : Entry), Fmap.find (s.group g).s name = some e → Fmap.find s.groups g = some (s.group g) →
    (s.wgOf g).state.onCore = true →
    ∃ t, exec (.softError (.scalar g name)) s = .next t ∧ t = { s with groups := t.groups } ∧ (t.group g).badS name = true ∧
      ∀ h n, (t.group h).readS n = (s.group h).readS n) ∧
  (∀ (s : State) (c : Nat), Fmap.risingFrom 0 s.groups = true → (∀ h k, (s.group h).wait = some k → ¬ AtQueue k.kind) →
    ∃ t, exec (.softError (.issueState c)) s = .next t ∧
      (∀ g, s.coreOf g ≠ c → (t.group g).v = (s.group g).v ∧ (t.group g).s = (s.group g).s ∧ (t.group g).status = (s.group g).status) ∧
      (∀ g x, Fmap.find s.groups g = some x → s.onDuty g = true → (s.wg x.wg).core = c → x.region = none →
        (t.wg x.wg).state = .terminated ∧ (t.group g).status = .terminated) ∧
      ∀ g x r, Fmap.find s.groups g = some x → s.onDuty g = true → (s.wg x.wg).core = c → x.region = some r →
        Trap.dieLost ∉ x.pendTraps → x.rollbackDue = false → s.matrixBusy g = false →
        (∀ h y, Fmap.find s.groups h = some y → y.wg = x.wg → y.status = .live → y.region ≠ none ∧ y.rollbacks < 15) →
        let y := t.group g
        y.status = .live ∧ y.pc = r.restart ∧ y.v = r.v ∧ y.s = r.s ∧ y.m = r.m ∧ y.flags = r.flags ∧ y.sig = r.sig ∧
          y.rollbacks = x.rollbacks + 1 ∧ y.wait = none) ∧
  (∀ (i : Instr) (s : State), i.hasWord = true → ¬ IsHint i → (∀ k p, NeedsSlot i (k, p) → ∃ e, s.myWg.kern.slots[k.toNat]? = some e ∧ p e) →
    ReadsError i s → ErrorTaken i s ∨ (∃ t, Traps i s t) ∨
      ∃ r ds, exec i s = .next { (s.seen i).modGroup s.cur (fun x => { x with stall := some r }) with dies := ds }) ∧
  ((∀ row ∈ saluRows, ∀ (f : FmtS) (s : State), ReadsError (row.instr f) s →
     HasRoom (row.instr f) s 0 (if f.s = 1 then 0 else if f.l = 1 ∧ row.narrow = false then 2 else 1) → ErrorTaken (row.instr f) s) ∧
   (∀ row ∈ salu1Rows, ∀ (f : FmtS1) (s : State), ReadsError (row.1 f) s →
     HasRoom (row.1 f) s 0 (if f.s = 1 then 0 else if f.l = 1 ∧ row.2.2 = false then 2 else 1) → ErrorTaken (row.1 f) s) ∧
   (∀ row ∈ saluiRows, ∀ (f : FmtSi) (s : State), ReadsError (row.1 f) s → HasRoom (row.1 f) s 0 1 → ErrorTaken (row.1 f) s) ∧
   (∀ row ∈ branchRows, ∀ (f : FmtBc) (s : State), ReadsError (row.1 f) s → ErrorTaken (row.1 f) s) ∧
   (let quarters := fun (s : State) (p : BitVec 2) => (hitQuarters s.me.width (s.me.execMask p.toNat)).length
    (∀ row ∈ laneRows, ∀ (f : FmtV) (s : State), ReadsError (row.instr f) s →
      HasRoom (row.instr f) s (if f.s = 1 then 0 else quarters s f.p) 0 → ErrorTaken (row.instr f) s) ∧
    (∀ row ∈ lane1Rows, ∀ (f : FmtV1) (s : State), ReadsError (row.1 f) s →
      HasRoom (row.1 f) s (if f.s = 1 then 0 else quarters s f.p) 0 → ErrorTaken (row.1 f) s) ∧
    ∀ row ∈ wideRows, ∀ (f : FmtV) (s : State), ReadsError (row.1 f) s →
      HasRoom (row.1 f) s (if f.s = 1 then 0 else 2 * quarters s f.p) 0 → ErrorTaken (row.1 f) s)) ∧
  (∀ (s : State) (d : Nat), 1 ≤ d → d < 4 → (s.die d).lost = false → Fmap.risingFrom 0 s.wgs = true →
    ∃ t, exec (.dieLost d) s = .next t ∧ (t.die d).lost = true ∧ (t.die d).alive = false ∧ (t.die d).retireQ = [] ∧
      (∀ j w, Fmap.find s.wgs j = some w → w.core / 12 = d → (t.wg j).state = .ended ∨ (t.wg j).state = .terminated) ∧
      (∀ op o, Fmap.find t.engs op = some o → (s.wg o.wg).core / 12 ≠ d) ∧
      (∀ k, k < 64 → (s.ctx k).state ≠ .free → (s.ctx k).touch.getLsbD d = true → (t.ctx k).state = .killed) ∧
      (∀ k, k < 64 → (s.ctx k).touch.getLsbD d = false → (t.ctx k).state = (s.ctx k).state) ∧
      (∀ g x, Fmap.find s.groups g = some x → x.status = .live → (s.wg x.wg).core / 12 ≠ d → (s.wg x.wg).ctx < 64 →
        (s.ctx (s.wg x.wg).ctx).state ≠ .free → (s.ctx (s.wg x.wg).ctx).touch.getLsbD d = true →
        Trap.dieLost ∈ (t.group g).pendTraps ∧ (t.group g).rollbackDue = false) ∧ Req.boundary ∈ t.root.incoming) ∧
  (∀ s : State, (s.die 0).lost = false →
    ∃ t, exec (.dieLost 0) s = .next t ∧ (t.die 0).lost = true ∧ (∀ k, k < 64 → (t.ctx k).state = .killed) ∧
      ∀ j w, Fmap.find s.wgs j = some w → w.core / 12 < 4 → (t.wg j).state = .ended ∨ (t.wg j).state = .terminated) ∧
  ∀ (s : State) (d : Nat), (s.die d).lost = true → exec (.dieLost d) s = .next s
end

