-- ==== Sys2Proof/Laws/Fmap.lean ====
section
/-! SUPPORT. The laws of finite maps: a read after a write, what a write leaves alone, and the canonical form. -/

namespace Sys2Proof

variable {α β : Type}

theorem Fmap.find_insert_same (m : Fmap α) (k : Nat) (v : α) : Fmap.find (Fmap.insert m k v) k = some v := by
  induction m with
  | nil => simp [Fmap.insert, Fmap.find]
  | cons p t ih =>
    simp only [Fmap.insert]
    split
    · simp [Fmap.find]
    · split
      · simp [Fmap.find]
      · rename_i h; simp [Fmap.find, Ne.symm h, ih]

theorem Fmap.find_insert_ne (m : Fmap α) {j k : Nat} (v : α) (h : j ≠ k) :
    Fmap.find (Fmap.insert m k v) j = Fmap.find m j := by
  induction m with
  | nil => simp [Fmap.insert, Fmap.find, Ne.symm h]
  | cons p t ih =>
    simp only [Fmap.insert]
    split
    · simp [Fmap.find, Ne.symm h]
    · split
      · rename_i h'; subst h'; simp [Fmap.find, Ne.symm h]
      · simp [Fmap.find, ih]

theorem Fmap.find_insert (m : Fmap α) (j k : Nat) (v : α) :
    Fmap.find (Fmap.insert m k v) j = if j = k then some v else Fmap.find m j := by
  split
  · rename_i h; subst h; exact Fmap.find_insert_same m j v
  · rename_i h; exact Fmap.find_insert_ne m v h

@[simp] theorem Fmap.get_insert_same (d : α) (m : Fmap α) (k : Nat) (v : α) : Fmap.get d (Fmap.insert m k v) k = v := by
  simp [Fmap.get, Fmap.find_insert_same]

theorem Fmap.get_insert_ne (d : α) (m : Fmap α) {j k : Nat} (v : α) (h : j ≠ k) :
    Fmap.get d (Fmap.insert m k v) j = Fmap.get d m j := by
  simp [Fmap.get, Fmap.find_insert_ne m v h]

theorem Fmap.get_insert (d : α) (m : Fmap α) (j k : Nat) (v : α) :
    Fmap.get d (Fmap.insert m k v) j = if j = k then v else Fmap.get d m j := by
  unfold Fmap.get
  rw [Fmap.find_insert]
  split <;> rfl

/-- Of two writes to one key the second holds. -/
@[simp] theorem Fmap.insert_insert (m : Fmap α) (k : Nat) (v w : α) :
    Fmap.insert (Fmap.insert m k v) k w = Fmap.insert m k w := by
  induction m with
  | nil => simp [Fmap.insert]
  | cons p t ih =>
    by_cases h1 : k < p.1
    · simp [Fmap.insert, h1]
    · by_cases h2 : k = p.1
      · simp [Fmap.insert, h2]
      · simp [Fmap.insert, h1, h2, ih]

theorem Fmap.find_filter (m : Fmap α) (p : Nat → Bool) (j : Nat) :
    Fmap.find (m.filter (fun x => p x.1)) j = if p j then Fmap.find m j else none := by
  induction m with
  | nil => simp [Fmap.find]
  | cons a t ih =>
    by_cases ha : p a.1
    · simp only [List.filter_cons, ha, if_true, Fmap.find]
      by_cases hj : a.1 = j
      · subst hj; simp [ha]
      · simp [hj, ih]
    · simp only [List.filter_cons, ha, Fmap.find, Bool.false_eq_true, if_false]
      by_cases hj : a.1 = j
      · subst hj; simp [ha, ih]
      · simp [hj, ih]

theorem Fmap.find_erase (m : Fmap α) (j k : Nat) :
    Fmap.find (Fmap.erase m k) j = if j = k then none else Fmap.find m j := by
  unfold Fmap.erase
  rw [Fmap.find_filter m (fun i => i != k)]
  by_cases h : j = k <;> simp [h]

theorem Fmap.find_select (m : Fmap α) (p : Nat → Bool) (j : Nat) :
    Fmap.find (Fmap.select m (fun k _ => p k)) j = if p j then Fmap.find m j else none :=
  Fmap.find_filter m p j

theorem Fmap.get_put [DecidableEq α] (d : α) (m : Fmap α) (j k : Nat) (v : α) :
    Fmap.get d (Fmap.put d m k v) j = if j = k then v else Fmap.get d m j := by
  unfold Fmap.put Fmap.get
  split
  · rename_i h; rw [Fmap.find_erase]; split <;> simp [h]
  · rw [Fmap.find_insert]; split <;> rfl

theorem Fmap.find_mapVals (f : Nat → α → β) (m : Fmap α) (k : Nat) :
    Fmap.find (Fmap.mapVals f m) k = (Fmap.find m k).map (f k) := by
  induction m with
  | nil => rfl
  | cons a t ih =>
    unfold Fmap.mapVals at ih ⊢
    simp only [List.map_cons, Fmap.find]
    by_cases h : a.1 = k
    · subst h; simp
    · simp [h, ih]

theorem Fmap.find_adjust (m : Fmap α) (f : α → α) (j k : Nat) :
    Fmap.find (Fmap.adjust m k f) j = if j = k then (Fmap.find m k).map f else Fmap.find m j := by
  induction m with
  | nil => simp [Fmap.adjust, Fmap.find]
  | cons a t ih =>
    simp only [Fmap.adjust]
    by_cases hk : a.1 = k
    · subst hk
      by_cases hj : j = a.1
      · subst hj; simp [Fmap.find]
      · simp [Fmap.find, hj, Ne.symm hj]
    · simp only [hk, if_false, Fmap.find]
      by_cases hj : a.1 = j
      · subst hj; simp [hk]
      · simp [hj, ih]

/-! ### The canonical form -/

theorem Fmap.risingFrom_mono {m : Fmap α} {a b : Nat} (h : a ≤ b) (hb : Fmap.risingFrom b m = true) :
    Fmap.risingFrom a m = true := by
  cases m with
  | nil => rfl
  | cons p t => simp only [Fmap.risingFrom, Bool.and_eq_true, decide_eq_true_eq] at hb ⊢; exact ⟨by omega, hb.2⟩

theorem Fmap.risingFrom_insert {m : Fmap α} {b k : Nat} (v : α) (hk : b ≤ k) (h : Fmap.risingFrom b m = true) :
    Fmap.risingFrom b (Fmap.insert m k v) = true := by
  induction m generalizing b with
  | nil => simp [Fmap.insert, Fmap.risingFrom]; omega
  | cons p t ih =>
    simp only [Fmap.risingFrom, Bool.and_eq_true, decide_eq_true_eq] at h
    simp only [Fmap.insert]
    split
    · simp only [Fmap.risingFrom, Bool.and_eq_true, decide_eq_true_eq]; exact ⟨by omega, by omega, h.2⟩
    · split
      · simp only [Fmap.risingFrom, Bool.and_eq_true, decide_eq_true_eq]; rename_i h2; subst h2; exact ⟨by omega, h.2⟩
      · simp only [Fmap.risingFrom, Bool.and_eq_true, decide_eq_true_eq]; exact ⟨h.1, ih (by omega) h.2⟩

theorem Fmap.risingFrom_filter {m : Fmap α} {b : Nat} (p : Nat × α → Bool) (h : Fmap.risingFrom b m = true) :
    Fmap.risingFrom b (m.filter p) = true := by
  induction m generalizing b with
  | nil => simpa using h
  | cons a t ih =>
    simp only [Fmap.risingFrom, Bool.and_eq_true, decide_eq_true_eq] at h
    rw [List.filter_cons]
    split
    · simp only [Fmap.risingFrom, Bool.and_eq_true, decide_eq_true_eq]; exact ⟨h.1, ih h.2⟩
    · exact Fmap.risingFrom_mono (by omega) (ih h.2)

theorem Fmap.all_insert {m : Fmap α} {p : Nat × α → Bool} {k : Nat} {v : α} (hv : p (k, v) = true) (h : m.all p = true) :
    (Fmap.insert m k v).all p = true := by
  induction m with
  | nil => simpa [Fmap.insert] using hv
  | cons a t ih =>
    simp only [List.all_cons, Bool.and_eq_true] at h
    simp only [Fmap.insert]
    split
    · simp [hv, h.1, h.2]
    · split
      · simp [hv, h.2]
      · simp [h.1, ih h.2]

/-- A write keeps the canonical form. -/
theorem Fmap.wf_put [DecidableEq α] {d : α} {m : Fmap α} (k : Nat) (v : α) (h : Fmap.wf d m = true) :
    Fmap.wf d (Fmap.put d m k v) = true := by
  simp only [Fmap.wf, Bool.and_eq_true] at h ⊢
  unfold Fmap.put
  split
  · exact ⟨Fmap.risingFrom_filter _ h.1, List.all_eq_true.2 fun x hx => List.all_eq_true.1 h.2 x (List.mem_filter.1 hx).1⟩
  · rename_i hv
    exact ⟨Fmap.risingFrom_insert v (Nat.zero_le k) h.1, Fmap.all_insert (by simpa using hv) h.2⟩

end Sys2Proof
end

