-- ==== Sys2Proof/Laws/State.lean ====
section
/-! SUPPORT. The fields of a state and of a group after each update: one lemma per field that an update leaves alone. -/

namespace Sys2Proof.Machine

/-! ### setCore -/

@[simp] theorem State.setCore_agenda (s : State) (c : Nat) (v : Core) : (s.setCore c v).agenda = s.agenda := rfl
@[simp] theorem State.setCore_cur (s : State) (c : Nat) (v : Core) : (s.setCore c v).cur = s.cur := rfl
@[simp] theorem State.setCore_nextId (s : State) (c : Nat) (v : Core) : (s.setCore c v).nextId = s.nextId := rfl
@[simp] theorem State.setCore_free (s : State) (c : Nat) (v : Core) : (s.setCore c v).free = s.free := rfl
@[simp] theorem State.setCore_root (s : State) (c : Nat) (v : Core) : (s.setCore c v).root = s.root := rfl
@[simp] theorem State.setCore_dies (s : State) (c : Nat) (v : Core) : (s.setCore c v).dies = s.dies := rfl
@[simp] theorem State.setCore_ctxs (s : State) (c : Nat) (v : Core) : (s.setCore c v).ctxs = s.ctxs := rfl
@[simp] theorem State.setCore_queues (s : State) (c : Nat) (v : Core) : (s.setCore c v).queues = s.queues := rfl
@[simp] theorem State.setCore_acl (s : State) (c : Nat) (v : Core) : (s.setCore c v).acl = s.acl := rfl
@[simp] theorem State.setCore_nodes (s : State) (c : Nat) (v : Core) : (s.setCore c v).nodes = s.nodes := rfl
@[simp] theorem State.setCore_graphs (s : State) (c : Nat) (v : Core) : (s.setCore c v).graphs = s.graphs := rfl
@[simp] theorem State.setCore_wgs (s : State) (c : Nat) (v : Core) : (s.setCore c v).wgs = s.wgs := rfl
@[simp] theorem State.setCore_groups (s : State) (c : Nat) (v : Core) : (s.setCore c v).groups = s.groups := rfl
@[simp] theorem State.setCore_pend (s : State) (c : Nat) (v : Core) : (s.setCore c v).pend = s.pend := rfl
@[simp] theorem State.setCore_stores (s : State) (c : Nat) (v : Core) : (s.setCore c v).stores = s.stores := rfl
@[simp] theorem State.setCore_engs (s : State) (c : Nat) (v : Core) : (s.setCore c v).engs = s.engs := rfl
@[simp] theorem State.setCore_done (s : State) (c : Nat) (v : Core) : (s.setCore c v).done = s.done := rfl
@[simp] theorem State.setCore_colls (s : State) (c : Nat) (v : Core) : (s.setCore c v).colls = s.colls := rfl
@[simp] theorem State.setCore_mops (s : State) (c : Nat) (v : Core) : (s.setCore c v).mops = s.mops := rfl
@[simp] theorem State.setCore_mem (s : State) (c : Nat) (v : Core) : (s.setCore c v).mem = s.mem := rfl
@[simp] theorem State.setCore_tags (s : State) (c : Nat) (v : Core) : (s.setCore c v).tags = s.tags := rfl
@[simp] theorem State.setCore_poison (s : State) (c : Nat) (v : Core) : (s.setCore c v).poison = s.poison := rfl
@[simp] theorem State.setCore_tagPoison (s : State) (c : Nat) (v : Core) : (s.setCore c v).tagPoison = s.tagPoison := rfl
@[simp] theorem State.setCore_shadow (s : State) (c : Nat) (v : Core) : (s.setCore c v).shadow = s.shadow := rfl
@[simp] theorem State.setCore_lines (s : State) (c : Nat) (v : Core) : (s.setCore c v).lines = s.lines := rfl
@[simp] theorem State.setCore_dirty (s : State) (c : Nat) (v : Core) : (s.setCore c v).dirty = s.dirty := rfl
@[simp] theorem State.setCore_dirtyNext (s : State) (c : Nat) (v : Core) : (s.setCore c v).dirtyNext = s.dirtyNext := rfl
@[simp] theorem State.setCore_dirtySlots (s : State) (c : Nat) (v : Core) : (s.setCore c v).dirtySlots = s.dirtySlots := rfl
@[simp] theorem State.setCore_dirtySlotsNext (s : State) (c : Nat) (v : Core) : (s.setCore c v).dirtySlotsNext = s.dirtySlotsNext := rfl
@[simp] theorem State.setCore_snaps (s : State) (c : Nat) (v : Core) : (s.setCore c v).snaps = s.snaps := rfl
@[simp] theorem State.setCore_snapSeqs (s : State) (c : Nat) (v : Core) : (s.setCore c v).snapSeqs = s.snapSeqs := rfl

/-! ### setDie -/

@[simp] theorem State.setDie_agenda (s : State) (d : Nat) (v : Die) : (s.setDie d v).agenda = s.agenda := rfl
@[simp] theorem State.setDie_cur (s : State) (d : Nat) (v : Die) : (s.setDie d v).cur = s.cur := rfl
@[simp] theorem State.setDie_nextId (s : State) (d : Nat) (v : Die) : (s.setDie d v).nextId = s.nextId := rfl
@[simp] theorem State.setDie_free (s : State) (d : Nat) (v : Die) : (s.setDie d v).free = s.free := rfl
@[simp] theorem State.setDie_root (s : State) (d : Nat) (v : Die) : (s.setDie d v).root = s.root := rfl
@[simp] theorem State.setDie_cores (s : State) (d : Nat) (v : Die) : (s.setDie d v).cores = s.cores := rfl
@[simp] theorem State.setDie_ctxs (s : State) (d : Nat) (v : Die) : (s.setDie d v).ctxs = s.ctxs := rfl
@[simp] theorem State.setDie_queues (s : State) (d : Nat) (v : Die) : (s.setDie d v).queues = s.queues := rfl
@[simp] theorem State.setDie_acl (s : State) (d : Nat) (v : Die) : (s.setDie d v).acl = s.acl := rfl
@[simp] theorem State.setDie_nodes (s : State) (d : Nat) (v : Die) : (s.setDie d v).nodes = s.nodes := rfl
@[simp] theorem State.setDie_graphs (s : State) (d : Nat) (v : Die) : (s.setDie d v).graphs = s.graphs := rfl
@[simp] theorem State.setDie_wgs (s : State) (d : Nat) (v : Die) : (s.setDie d v).wgs = s.wgs := rfl
@[simp] theorem State.setDie_groups (s : State) (d : Nat) (v : Die) : (s.setDie d v).groups = s.groups := rfl
@[simp] theorem State.setDie_pend (s : State) (d : Nat) (v : Die) : (s.setDie d v).pend = s.pend := rfl
@[simp] theorem State.setDie_stores (s : State) (d : Nat) (v : Die) : (s.setDie d v).stores = s.stores := rfl
@[simp] theorem State.setDie_engs (s : State) (d : Nat) (v : Die) : (s.setDie d v).engs = s.engs := rfl
@[simp] theorem State.setDie_done (s : State) (d : Nat) (v : Die) : (s.setDie d v).done = s.done := rfl
@[simp] theorem State.setDie_colls (s : State) (d : Nat) (v : Die) : (s.setDie d v).colls = s.colls := rfl
@[simp] theorem State.setDie_mops (s : State) (d : Nat) (v : Die) : (s.setDie d v).mops = s.mops := rfl
@[simp] theorem State.setDie_mem (s : State) (d : Nat) (v : Die) : (s.setDie d v).mem = s.mem := rfl
@[simp] theorem State.setDie_tags (s : State) (d : Nat) (v : Die) : (s.setDie d v).tags = s.tags := rfl
@[simp] theorem State.setDie_poison (s : State) (d : Nat) (v : Die) : (s.setDie d v).poison = s.poison := rfl
@[simp] theorem State.setDie_tagPoison (s : State) (d : Nat) (v : Die) : (s.setDie d v).tagPoison = s.tagPoison := rfl
@[simp] theorem State.setDie_shadow (s : State) (d : Nat) (v : Die) : (s.setDie d v).shadow = s.shadow := rfl
@[simp] theorem State.setDie_lines (s : State) (d : Nat) (v : Die) : (s.setDie d v).lines = s.lines := rfl
@[simp] theorem State.setDie_dirty (s : State) (d : Nat) (v : Die) : (s.setDie d v).dirty = s.dirty := rfl
@[simp] theorem State.setDie_dirtyNext (s : State) (d : Nat) (v : Die) : (s.setDie d v).dirtyNext = s.dirtyNext := rfl
@[simp] theorem State.setDie_dirtySlots (s : State) (d : Nat) (v : Die) : (s.setDie d v).dirtySlots = s.dirtySlots := rfl
@[simp] theorem State.setDie_dirtySlotsNext (s : State) (d : Nat) (v : Die) : (s.setDie d v).dirtySlotsNext = s.dirtySlotsNext := rfl
@[simp] theorem State.setDie_snaps (s : State) (d : Nat) (v : Die) : (s.setDie d v).snaps = s.snaps := rfl
@[simp] theorem State.setDie_snapSeqs (s : State) (d : Nat) (v : Die) : (s.setDie d v).snapSeqs = s.snapSeqs := rfl

/-! ### setCtx -/

@[simp] theorem State.setCtx_agenda (s : State) (k : Nat) (v : Ctx) : (s.setCtx k v).agenda = s.agenda := rfl
@[simp] theorem State.setCtx_cur (s : State) (k : Nat) (v : Ctx) : (s.setCtx k v).cur = s.cur := rfl
@[simp] theorem State.setCtx_nextId (s : State) (k : Nat) (v : Ctx) : (s.setCtx k v).nextId = s.nextId := rfl
@[simp] theorem State.setCtx_free (s : State) (k : Nat) (v : Ctx) : (s.setCtx k v).free = s.free := rfl
@[simp] theorem State.setCtx_root (s : State) (k : Nat) (v : Ctx) : (s.setCtx k v).root = s.root := rfl
@[simp] theorem State.setCtx_dies (s : State) (k : Nat) (v : Ctx) : (s.setCtx k v).dies = s.dies := rfl
@[simp] theorem State.setCtx_cores (s : State) (k : Nat) (v : Ctx) : (s.setCtx k v).cores = s.cores := rfl
@[simp] theorem State.setCtx_queues (s : State) (k : Nat) (v : Ctx) : (s.setCtx k v).queues = s.queues := rfl
@[simp] theorem State.setCtx_acl (s : State) (k : Nat) (v : Ctx) : (s.setCtx k v).acl = s.acl := rfl
@[simp] theorem State.setCtx_nodes (s : State) (k : Nat) (v : Ctx) : (s.setCtx k v).nodes = s.nodes := rfl
@[simp] theorem State.setCtx_graphs (s : State) (k : Nat) (v : Ctx) : (s.setCtx k v).graphs = s.graphs := rfl
@[simp] theorem State.setCtx_wgs (s : State) (k : Nat) (v : Ctx) : (s.setCtx k v).wgs = s.wgs := rfl
@[simp] theorem State.setCtx_groups (s : State) (k : Nat) (v : Ctx) : (s.setCtx k v).groups = s.groups := rfl
@[simp] theorem State.setCtx_pend (s : State) (k : Nat) (v : Ctx) : (s.setCtx k v).pend = s.pend := rfl
@[simp] theorem State.setCtx_stores (s : State) (k : Nat) (v : Ctx) : (s.setCtx k v).stores = s.stores := rfl
@[simp] theorem State.setCtx_engs (s : State) (k : Nat) (v : Ctx) : (s.setCtx k v).engs = s.engs := rfl
@[simp] theorem State.setCtx_done (s : State) (k : Nat) (v : Ctx) : (s.setCtx k v).done = s.done := rfl
@[simp] theorem State.setCtx_colls (s : State) (k : Nat) (v : Ctx) : (s.setCtx k v).colls = s.colls := rfl
@[simp] theorem State.setCtx_mops (s : State) (k : Nat) (v : Ctx) : (s.setCtx k v).mops = s.mops := rfl
@[simp] theorem State.setCtx_mem (s : State) (k : Nat) (v : Ctx) : (s.setCtx k v).mem = s.mem := rfl
@[simp] theorem State.setCtx_tags (s : State) (k : Nat) (v : Ctx) : (s.setCtx k v).tags = s.tags := rfl
@[simp] theorem State.setCtx_poison (s : State) (k : Nat) (v : Ctx) : (s.setCtx k v).poison = s.poison := rfl
@[simp] theorem State.setCtx_tagPoison (s : State) (k : Nat) (v : Ctx) : (s.setCtx k v).tagPoison = s.tagPoison := rfl
@[simp] theorem State.setCtx_shadow (s : State) (k : Nat) (v : Ctx) : (s.setCtx k v).shadow = s.shadow := rfl
@[simp] theorem State.setCtx_lines (s : State) (k : Nat) (v : Ctx) : (s.setCtx k v).lines = s.lines := rfl
@[simp] theorem State.setCtx_dirty (s : State) (k : Nat) (v : Ctx) : (s.setCtx k v).dirty = s.dirty := rfl
@[simp] theorem State.setCtx_dirtyNext (s : State) (k : Nat) (v : Ctx) : (s.setCtx k v).dirtyNext = s.dirtyNext := rfl
@[simp] theorem State.setCtx_dirtySlots (s : State) (k : Nat) (v : Ctx) : (s.setCtx k v).dirtySlots = s.dirtySlots := rfl
@[simp] theorem State.setCtx_dirtySlotsNext (s : State) (k : Nat) (v : Ctx) : (s.setCtx k v).dirtySlotsNext = s.dirtySlotsNext := rfl
@[simp] theorem State.setCtx_snaps (s : State) (k : Nat) (v : Ctx) : (s.setCtx k v).snaps = s.snaps := rfl
@[simp] theorem State.setCtx_snapSeqs (s : State) (k : Nat) (v : Ctx) : (s.setCtx k v).snapSeqs = s.snapSeqs := rfl

/-! ### setWg -/

@[simp] theorem State.setWg_agenda (s : State) (k : Nat) (v : Wg) : (s.setWg k v).agenda = s.agenda := rfl
@[simp] theorem State.setWg_cur (s : State) (k : Nat) (v : Wg) : (s.setWg k v).cur = s.cur := rfl
@[simp] theorem State.setWg_nextId (s : State) (k : Nat) (v : Wg) : (s.setWg k v).nextId = s.nextId := rfl
@[simp] theorem State.setWg_free (s : State) (k : Nat) (v : Wg) : (s.setWg k v).free = s.free := rfl
@[simp] theorem State.setWg_root (s : State) (k : Nat) (v : Wg) : (s.setWg k v).root = s.root := rfl
@[simp] theorem State.setWg_dies (s : State) (k : Nat) (v : Wg) : (s.setWg k v).dies = s.dies := rfl
@[simp] theorem State.setWg_cores (s : State) (k : Nat) (v : Wg) : (s.setWg k v).cores = s.cores := rfl
@[simp] theorem State.setWg_ctxs (s : State) (k : Nat) (v : Wg) : (s.setWg k v).ctxs = s.ctxs := rfl
@[simp] theorem State.setWg_queues (s : State) (k : Nat) (v : Wg) : (s.setWg k v).queues = s.queues := rfl
@[simp] theorem State.setWg_acl (s : State) (k : Nat) (v : Wg) : (s.setWg k v).acl = s.acl := rfl
@[simp] theorem State.setWg_nodes (s : State) (k : Nat) (v : Wg) : (s.setWg k v).nodes = s.nodes := rfl
@[simp] theorem State.setWg_graphs (s : State) (k : Nat) (v : Wg) : (s.setWg k v).graphs = s.graphs := rfl
@[simp] theorem State.setWg_groups (s : State) (k : Nat) (v : Wg) : (s.setWg k v).groups = s.groups := rfl
@[simp] theorem State.setWg_pend (s : State) (k : Nat) (v : Wg) : (s.setWg k v).pend = s.pend := rfl
@[simp] theorem State.setWg_stores (s : State) (k : Nat) (v : Wg) : (s.setWg k v).stores = s.stores := rfl
@[simp] theorem State.setWg_engs (s : State) (k : Nat) (v : Wg) : (s.setWg k v).engs = s.engs := rfl
@[simp] theorem State.setWg_done (s : State) (k : Nat) (v : Wg) : (s.setWg k v).done = s.done := rfl
@[simp] theorem State.setWg_colls (s : State) (k : Nat) (v : Wg) : (s.setWg k v).colls = s.colls := rfl
@[simp] theorem State.setWg_mops (s : State) (k : Nat) (v : Wg) : (s.setWg k v).mops = s.mops := rfl
@[simp] theorem State.setWg_mem (s : State) (k : Nat) (v : Wg) : (s.setWg k v).mem = s.mem := rfl
@[simp] theorem State.setWg_tags (s : State) (k : Nat) (v : Wg) : (s.setWg k v).tags = s.tags := rfl
@[simp] theorem State.setWg_poison (s : State) (k : Nat) (v : Wg) : (s.setWg k v).poison = s.poison := rfl
@[simp] theorem State.setWg_tagPoison (s : State) (k : Nat) (v : Wg) : (s.setWg k v).tagPoison = s.tagPoison := rfl
@[simp] theorem State.setWg_shadow (s : State) (k : Nat) (v : Wg) : (s.setWg k v).shadow = s.shadow := rfl
@[simp] theorem State.setWg_lines (s : State) (k : Nat) (v : Wg) : (s.setWg k v).lines = s.lines := rfl
@[simp] theorem State.setWg_dirty (s : State) (k : Nat) (v : Wg) : (s.setWg k v).dirty = s.dirty := rfl
@[simp] theorem State.setWg_dirtyNext (s : State) (k : Nat) (v : Wg) : (s.setWg k v).dirtyNext = s.dirtyNext := rfl
@[simp] theorem State.setWg_dirtySlots (s : State) (k : Nat) (v : Wg) : (s.setWg k v).dirtySlots = s.dirtySlots := rfl
@[simp] theorem State.setWg_dirtySlotsNext (s : State) (k : Nat) (v : Wg) : (s.setWg k v).dirtySlotsNext = s.dirtySlotsNext := rfl
@[simp] theorem State.setWg_snaps (s : State) (k : Nat) (v : Wg) : (s.setWg k v).snaps = s.snaps := rfl
@[simp] theorem State.setWg_snapSeqs (s : State) (k : Nat) (v : Wg) : (s.setWg k v).snapSeqs = s.snapSeqs := rfl

/-! ### setGroup -/

@[simp] theorem State.setGroup_agenda (s : State) (g : Nat) (v : Group) : (s.setGroup g v).agenda = s.agenda := rfl
@[simp] theorem State.setGroup_cur (s : State) (g : Nat) (v : Group) : (s.setGroup g v).cur = s.cur := rfl
@[simp] theorem State.setGroup_nextId (s : State) (g : Nat) (v : Group) : (s.setGroup g v).nextId = s.nextId := rfl
@[simp] theorem State.setGroup_free (s : State) (g : Nat) (v : Group) : (s.setGroup g v).free = s.free := rfl
@[simp] theorem State.setGroup_root (s : State) (g : Nat) (v : Group) : (s.setGroup g v).root = s.root := rfl
@[simp] theorem State.setGroup_dies (s : State) (g : Nat) (v : Group) : (s.setGroup g v).dies = s.dies := rfl
@[simp] theorem State.setGroup_cores (s : State) (g : Nat) (v : Group) : (s.setGroup g v).cores = s.cores := rfl
@[simp] theorem State.setGroup_ctxs (s : State) (g : Nat) (v : Group) : (s.setGroup g v).ctxs = s.ctxs := rfl
@[simp] theorem State.setGroup_queues (s : State) (g : Nat) (v : Group) : (s.setGroup g v).queues = s.queues := rfl
@[simp] theorem State.setGroup_acl (s : State) (g : Nat) (v : Group) : (s.setGroup g v).acl = s.acl := rfl
@[simp] theorem State.setGroup_nodes (s : State) (g : Nat) (v : Group) : (s.setGroup g v).nodes = s.nodes := rfl
@[simp] theorem State.setGroup_graphs (s : State) (g : Nat) (v : Group) : (s.setGroup g v).graphs = s.graphs := rfl
@[simp] theorem State.setGroup_wgs (s : State) (g : Nat) (v : Group) : (s.setGroup g v).wgs = s.wgs := rfl
@[simp] theorem State.setGroup_pend (s : State) (g : Nat) (v : Group) : (s.setGroup g v).pend = s.pend := rfl
@[simp] theorem State.setGroup_stores (s : State) (g : Nat) (v : Group) : (s.setGroup g v).stores = s.stores := rfl
@[simp] theorem State.setGroup_engs (s : State) (g : Nat) (v : Group) : (s.setGroup g v).engs = s.engs := rfl
@[simp] theorem State.setGroup_done (s : State) (g : Nat) (v : Group) : (s.setGroup g v).done = s.done := rfl
@[simp] theorem State.setGroup_colls (s : State) (g : Nat) (v : Group) : (s.setGroup g v).colls = s.colls := rfl
@[simp] theorem State.setGroup_mops (s : State) (g : Nat) (v : Group) : (s.setGroup g v).mops = s.mops := rfl
@[simp] theorem State.setGroup_mem (s : State) (g : Nat) (v : Group) : (s.setGroup g v).mem = s.mem := rfl
@[simp] theorem State.setGroup_tags (s : State) (g : Nat) (v : Group) : (s.setGroup g v).tags = s.tags := rfl
@[simp] theorem State.setGroup_poison (s : State) (g : Nat) (v : Group) : (s.setGroup g v).poison = s.poison := rfl
@[simp] theorem State.setGroup_tagPoison (s : State) (g : Nat) (v : Group) : (s.setGroup g v).tagPoison = s.tagPoison := rfl
@[simp] theorem State.setGroup_shadow (s : State) (g : Nat) (v : Group) : (s.setGroup g v).shadow = s.shadow := rfl
@[simp] theorem State.setGroup_lines (s : State) (g : Nat) (v : Group) : (s.setGroup g v).lines = s.lines := rfl
@[simp] theorem State.setGroup_dirty (s : State) (g : Nat) (v : Group) : (s.setGroup g v).dirty = s.dirty := rfl
@[simp] theorem State.setGroup_dirtyNext (s : State) (g : Nat) (v : Group) : (s.setGroup g v).dirtyNext = s.dirtyNext := rfl
@[simp] theorem State.setGroup_dirtySlots (s : State) (g : Nat) (v : Group) : (s.setGroup g v).dirtySlots = s.dirtySlots := rfl
@[simp] theorem State.setGroup_dirtySlotsNext (s : State) (g : Nat) (v : Group) : (s.setGroup g v).dirtySlotsNext = s.dirtySlotsNext := rfl
@[simp] theorem State.setGroup_snaps (s : State) (g : Nat) (v : Group) : (s.setGroup g v).snaps = s.snaps := rfl
@[simp] theorem State.setGroup_snapSeqs (s : State) (g : Nat) (v : Group) : (s.setGroup g v).snapSeqs = s.snapSeqs := rfl

/-! ### modGroup -/

@[simp] theorem State.modGroup_agenda (s : State) (g : Nat) (f : Group → Group) : (s.modGroup g f).agenda = s.agenda := rfl
@[simp] theorem State.modGroup_cur (s : State) (g : Nat) (f : Group → Group) : (s.modGroup g f).cur = s.cur := rfl
@[simp] theorem State.modGroup_nextId (s : State) (g : Nat) (f : Group → Group) : (s.modGroup g f).nextId = s.nextId := rfl
@[simp] theorem State.modGroup_free (s : State) (g : Nat) (f : Group → Group) : (s.modGroup g f).free = s.free := rfl
@[simp] theorem State.modGroup_root (s : State) (g : Nat) (f : Group → Group) : (s.modGroup g f).root = s.root := rfl
@[simp] theorem State.modGroup_dies (s : State) (g : Nat) (f : Group → Group) : (s.modGroup g f).dies = s.dies := rfl
@[simp] theorem State.modGroup_cores (s : State) (g : Nat) (f : Group → Group) : (s.modGroup g f).cores = s.cores := rfl
@[simp] theorem State.modGroup_ctxs (s : State) (g : Nat) (f : Group → Group) : (s.modGroup g f).ctxs = s.ctxs := rfl
@[simp] theorem State.modGroup_queues (s : State) (g : Nat) (f : Group → Group) : (s.modGroup g f).queues = s.queues := rfl
@[simp] theorem State.modGroup_acl (s : State) (g : Nat) (f : Group → Group) : (s.modGroup g f).acl = s.acl := rfl
@[simp] theorem State.modGroup_nodes (s : State) (g : Nat) (f : Group → Group) : (s.modGroup g f).nodes = s.nodes := rfl
@[simp] theorem State.modGroup_graphs (s : State) (g : Nat) (f : Group → Group) : (s.modGroup g f).graphs = s.graphs := rfl
@[simp] theorem State.modGroup_wgs (s : State) (g : Nat) (f : Group → Group) : (s.modGroup g f).wgs = s.wgs := rfl
@[simp] theorem State.modGroup_pend (s : State) (g : Nat) (f : Group → Group) : (s.modGroup g f).pend = s.pend := rfl
@[simp] theorem State.modGroup_stores (s : State) (g : Nat) (f : Group → Group) : (s.modGroup g f).stores = s.stores := rfl
@[simp] theorem State.modGroup_engs (s : State) (g : Nat) (f : Group → Group) : (s.modGroup g f).engs = s.engs := rfl
@[simp] theorem State.modGroup_done (s : State) (g : Nat) (f : Group → Group) : (s.modGroup g f).done = s.done := rfl
@[simp] theorem State.modGroup_colls (s : State) (g : Nat) (f : Group → Group) : (s.modGroup g f).colls = s.colls := rfl
@[simp] theorem State.modGroup_mops (s : State) (g : Nat) (f : Group → Group) : (s.modGroup g f).mops = s.mops := rfl
@[simp] theorem State.modGroup_mem (s : State) (g : Nat) (f : Group → Group) : (s.modGroup g f).mem = s.mem := rfl
@[simp] theorem State.modGroup_tags (s : State) (g : Nat) (f : Group → Group) : (s.modGroup g f).tags = s.tags := rfl
@[simp] theorem State.modGroup_poison (s : State) (g : Nat) (f : Group → Group) : (s.modGroup g f).poison = s.poison := rfl
@[simp] theorem State.modGroup_tagPoison (s : State) (g : Nat) (f : Group → Group) : (s.modGroup g f).tagPoison = s.tagPoison := rfl
@[simp] theorem State.modGroup_shadow (s : State) (g : Nat) (f : Group → Group) : (s.modGroup g f).shadow = s.shadow := rfl
@[simp] theorem State.modGroup_lines (s : State) (g : Nat) (f : Group → Group) : (s.modGroup g f).lines = s.lines := rfl
@[simp] theorem State.modGroup_dirty (s : State) (g : Nat) (f : Group → Group) : (s.modGroup g f).dirty = s.dirty := rfl
@[simp] theorem State.modGroup_dirtyNext (s : State) (g : Nat) (f : Group → Group) : (s.modGroup g f).dirtyNext = s.dirtyNext := rfl
@[simp] theorem State.modGroup_dirtySlots (s : State) (g : Nat) (f : Group → Group) : (s.modGroup g f).dirtySlots = s.dirtySlots := rfl
@[simp] theorem State.modGroup_dirtySlotsNext (s : State) (g : Nat) (f : Group → Group) : (s.modGroup g f).dirtySlotsNext = s.dirtySlotsNext := rfl
@[simp] theorem State.modGroup_snaps (s : State) (g : Nat) (f : Group → Group) : (s.modGroup g f).snaps = s.snaps := rfl
@[simp] theorem State.modGroup_snapSeqs (s : State) (g : Nat) (f : Group → Group) : (s.modGroup g f).snapSeqs = s.snapSeqs := rfl

/-! ### storeCells -/

@[simp] theorem State.storeCells_agenda (s : State) (ws : List Host.Cell) : (s.storeCells ws).agenda = s.agenda := rfl
@[simp] theorem State.storeCells_cur (s : State) (ws : List Host.Cell) : (s.storeCells ws).cur = s.cur := rfl
@[simp] theorem State.storeCells_nextId (s : State) (ws : List Host.Cell) : (s.storeCells ws).nextId = s.nextId := rfl
@[simp] theorem State.storeCells_free (s : State) (ws : List Host.Cell) : (s.storeCells ws).free = s.free := rfl
@[simp] theorem State.storeCells_root (s : State) (ws : List Host.Cell) : (s.storeCells ws).root = s.root := rfl
@[simp] theorem State.storeCells_dies (s : State) (ws : List Host.Cell) : (s.storeCells ws).dies = s.dies := rfl
@[simp] theorem State.storeCells_cores (s : State) (ws : List Host.Cell) : (s.storeCells ws).cores = s.cores := rfl
@[simp] theorem State.storeCells_ctxs (s : State) (ws : List Host.Cell) : (s.storeCells ws).ctxs = s.ctxs := rfl
@[simp] theorem State.storeCells_queues (s : State) (ws : List Host.Cell) : (s.storeCells ws).queues = s.queues := rfl
@[simp] theorem State.storeCells_acl (s : State) (ws : List Host.Cell) : (s.storeCells ws).acl = s.acl := rfl
@[simp] theorem State.storeCells_nodes (s : State) (ws : List Host.Cell) : (s.storeCells ws).nodes = s.nodes := rfl
@[simp] theorem State.storeCells_graphs (s : State) (ws : List Host.Cell) : (s.storeCells ws).graphs = s.graphs := rfl
@[simp] theorem State.storeCells_wgs (s : State) (ws : List Host.Cell) : (s.storeCells ws).wgs = s.wgs := rfl
@[simp] theorem State.storeCells_groups (s : State) (ws : List Host.Cell) : (s.storeCells ws).groups = s.groups := rfl
@[simp] theorem State.storeCells_pend (s : State) (ws : List Host.Cell) : (s.storeCells ws).pend = s.pend := rfl
@[simp] theorem State.storeCells_stores (s : State) (ws : List Host.Cell) : (s.storeCells ws).stores = s.stores := rfl
@[simp] theorem State.storeCells_engs (s : State) (ws : List Host.Cell) : (s.storeCells ws).engs = s.engs := rfl
@[simp] theorem State.storeCells_done (s : State) (ws : List Host.Cell) : (s.storeCells ws).done = s.done := rfl
@[simp] theorem State.storeCells_colls (s : State) (ws : List Host.Cell) : (s.storeCells ws).colls = s.colls := rfl
@[simp] theorem State.storeCells_mops (s : State) (ws : List Host.Cell) : (s.storeCells ws).mops = s.mops := rfl
@[simp] theorem State.storeCells_tags (s : State) (ws : List Host.Cell) : (s.storeCells ws).tags = s.tags := rfl
@[simp] theorem State.storeCells_tagPoison (s : State) (ws : List Host.Cell) : (s.storeCells ws).tagPoison = s.tagPoison := rfl
@[simp] theorem State.storeCells_shadow (s : State) (ws : List Host.Cell) : (s.storeCells ws).shadow = s.shadow := rfl
@[simp] theorem State.storeCells_lines (s : State) (ws : List Host.Cell) : (s.storeCells ws).lines = s.lines := rfl
@[simp] theorem State.storeCells_dirty (s : State) (ws : List Host.Cell) : (s.storeCells ws).dirty = s.dirty := rfl
@[simp] theorem State.storeCells_dirtyNext (s : State) (ws : List Host.Cell) : (s.storeCells ws).dirtyNext = s.dirtyNext := rfl
@[simp] theorem State.storeCells_dirtySlots (s : State) (ws : List Host.Cell) : (s.storeCells ws).dirtySlots = s.dirtySlots := rfl
@[simp] theorem State.storeCells_dirtySlotsNext (s : State) (ws : List Host.Cell) : (s.storeCells ws).dirtySlotsNext = s.dirtySlotsNext := rfl
@[simp] theorem State.storeCells_snaps (s : State) (ws : List Host.Cell) : (s.storeCells ws).snaps = s.snaps := rfl
@[simp] theorem State.storeCells_snapSeqs (s : State) (ws : List Host.Cell) : (s.storeCells ws).snapSeqs = s.snapSeqs := rfl

/-! ### setTag -/

@[simp] theorem State.setTag_agenda (s : State) (l : Nat) (t : BitVec 16) : (s.setTag l t).agenda = s.agenda := rfl
@[simp] theorem State.setTag_cur (s : State) (l : Nat) (t : BitVec 16) : (s.setTag l t).cur = s.cur := rfl
@[simp] theorem State.setTag_nextId (s : State) (l : Nat) (t : BitVec 16) : (s.setTag l t).nextId = s.nextId := rfl
@[simp] theorem State.setTag_free (s : State) (l : Nat) (t : BitVec 16) : (s.setTag l t).free = s.free := rfl
@[simp] theorem State.setTag_root (s : State) (l : Nat) (t : BitVec 16) : (s.setTag l t).root = s.root := rfl
@[simp] theorem State.setTag_dies (s : State) (l : Nat) (t : BitVec 16) : (s.setTag l t).dies = s.dies := rfl
@[simp] theorem State.setTag_cores (s : State) (l : Nat) (t : BitVec 16) : (s.setTag l t).cores = s.cores := rfl
@[simp] theorem State.setTag_ctxs (s : State) (l : Nat) (t : BitVec 16) : (s.setTag l t).ctxs = s.ctxs := rfl
@[simp] theorem State.setTag_queues (s : State) (l : Nat) (t : BitVec 16) : (s.setTag l t).queues = s.queues := rfl
@[simp] theorem State.setTag_acl (s : State) (l : Nat) (t : BitVec 16) : (s.setTag l t).acl = s.acl := rfl
@[simp] theorem State.setTag_nodes (s : State) (l : Nat) (t : BitVec 16) : (s.setTag l t).nodes = s.nodes := rfl
@[simp] theorem State.setTag_graphs (s : State) (l : Nat) (t : BitVec 16) : (s.setTag l t).graphs = s.graphs := rfl
@[simp] theorem State.setTag_wgs (s : State) (l : Nat) (t : BitVec 16) : (s.setTag l t).wgs = s.wgs := rfl
@[simp] theorem State.setTag_groups (s : State) (l : Nat) (t : BitVec 16) : (s.setTag l t).groups = s.groups := rfl
@[simp] theorem State.setTag_pend (s : State) (l : Nat) (t : BitVec 16) : (s.setTag l t).pend = s.pend := rfl
@[simp] theorem State.setTag_stores (s : State) (l : Nat) (t : BitVec 16) : (s.setTag l t).stores = s.stores := rfl
@[simp] theorem State.setTag_engs (s : State) (l : Nat) (t : BitVec 16) : (s.setTag l t).engs = s.engs := rfl
@[simp] theorem State.setTag_done (s : State) (l : Nat) (t : BitVec 16) : (s.setTag l t).done = s.done := rfl
@[simp] theorem State.setTag_colls (s : State) (l : Nat) (t : BitVec 16) : (s.setTag l t).colls = s.colls := rfl
@[simp] theorem State.setTag_mops (s : State) (l : Nat) (t : BitVec 16) : (s.setTag l t).mops = s.mops := rfl
@[simp] theorem State.setTag_mem (s : State) (l : Nat) (t : BitVec 16) : (s.setTag l t).mem = s.mem := rfl
@[simp] theorem State.setTag_poison (s : State) (l : Nat) (t : BitVec 16) : (s.setTag l t).poison = s.poison := rfl
@[simp] theorem State.setTag_shadow (s : State) (l : Nat) (t : BitVec 16) : (s.setTag l t).shadow = s.shadow := rfl
@[simp] theorem State.setTag_lines (s : State) (l : Nat) (t : BitVec 16) : (s.setTag l t).lines = s.lines := rfl
@[simp] theorem State.setTag_dirty (s : State) (l : Nat) (t : BitVec 16) : (s.setTag l t).dirty = s.dirty := rfl
@[simp] theorem State.setTag_dirtyNext (s : State) (l : Nat) (t : BitVec 16) : (s.setTag l t).dirtyNext = s.dirtyNext := rfl
@[simp] theorem State.setTag_dirtySlots (s : State) (l : Nat) (t : BitVec 16) : (s.setTag l t).dirtySlots = s.dirtySlots := rfl
@[simp] theorem State.setTag_dirtySlotsNext (s : State) (l : Nat) (t : BitVec 16) : (s.setTag l t).dirtySlotsNext = s.dirtySlotsNext := rfl
@[simp] theorem State.setTag_snaps (s : State) (l : Nat) (t : BitVec 16) : (s.setTag l t).snaps = s.snaps := rfl
@[simp] theorem State.setTag_snapSeqs (s : State) (l : Nat) (t : BitVec 16) : (s.setTag l t).snapSeqs = s.snapSeqs := rfl

/-! ### setLine -/

@[simp] theorem State.setLine_agenda (s : State) (l : Nat) (x : Line) : (s.setLine l x).agenda = s.agenda := rfl
@[simp] theorem State.setLine_cur (s : State) (l : Nat) (x : Line) : (s.setLine l x).cur = s.cur := rfl
@[simp] theorem State.setLine_nextId (s : State) (l : Nat) (x : Line) : (s.setLine l x).nextId = s.nextId := rfl
@[simp] theorem State.setLine_free (s : State) (l : Nat) (x : Line) : (s.setLine l x).free = s.free := rfl
@[simp] theorem State.setLine_root (s : State) (l : Nat) (x : Line) : (s.setLine l x).root = s.root := rfl
@[simp] theorem State.setLine_dies (s : State) (l : Nat) (x : Line) : (s.setLine l x).dies = s.dies := rfl
@[simp] theorem State.setLine_cores (s : State) (l : Nat) (x : Line) : (s.setLine l x).cores = s.cores := rfl
@[simp] theorem State.setLine_ctxs (s : State) (l : Nat) (x : Line) : (s.setLine l x).ctxs = s.ctxs := rfl
@[simp] theorem State.setLine_queues (s : State) (l : Nat) (x : Line) : (s.setLine l x).queues = s.queues := rfl
@[simp] theorem State.setLine_acl (s : State) (l : Nat) (x : Line) : (s.setLine l x).acl = s.acl := rfl
@[simp] theorem State.setLine_nodes (s : State) (l : Nat) (x : Line) : (s.setLine l x).nodes = s.nodes := rfl
@[simp] theorem State.setLine_graphs (s : State) (l : Nat) (x : Line) : (s.setLine l x).graphs = s.graphs := rfl
@[simp] theorem State.setLine_wgs (s : State) (l : Nat) (x : Line) : (s.setLine l x).wgs = s.wgs := rfl
@[simp] theorem State.setLine_groups (s : State) (l : Nat) (x : Line) : (s.setLine l x).groups = s.groups := rfl
@[simp] theorem State.setLine_pend (s : State) (l : Nat) (x : Line) : (s.setLine l x).pend = s.pend := rfl
@[simp] theorem State.setLine_stores (s : State) (l : Nat) (x : Line) : (s.setLine l x).stores = s.stores := rfl
@[simp] theorem State.setLine_engs (s : State) (l : Nat) (x : Line) : (s.setLine l x).engs = s.engs := rfl
@[simp] theorem State.setLine_done (s : State) (l : Nat) (x : Line) : (s.setLine l x).done = s.done := rfl
@[simp] theorem State.setLine_colls (s : State) (l : Nat) (x : Line) : (s.setLine l x).colls = s.colls := rfl
@[simp] theorem State.setLine_mops (s : State) (l : Nat) (x : Line) : (s.setLine l x).mops = s.mops := rfl
@[simp] theorem State.setLine_mem (s : State) (l : Nat) (x : Line) : (s.setLine l x).mem = s.mem := rfl
@[simp] theorem State.setLine_tags (s : State) (l : Nat) (x : Line) : (s.setLine l x).tags = s.tags := rfl
@[simp] theorem State.setLine_poison (s : State) (l : Nat) (x : Line) : (s.setLine l x).poison = s.poison := rfl
@[simp] theorem State.setLine_tagPoison (s : State) (l : Nat) (x : Line) : (s.setLine l x).tagPoison = s.tagPoison := rfl
@[simp] theorem State.setLine_shadow (s : State) (l : Nat) (x : Line) : (s.setLine l x).shadow = s.shadow := rfl
@[simp] theorem State.setLine_dirty (s : State) (l : Nat) (x : Line) : (s.setLine l x).dirty = s.dirty := rfl
@[simp] theorem State.setLine_dirtyNext (s : State) (l : Nat) (x : Line) : (s.setLine l x).dirtyNext = s.dirtyNext := rfl
@[simp] theorem State.setLine_dirtySlots (s : State) (l : Nat) (x : Line) : (s.setLine l x).dirtySlots = s.dirtySlots := rfl
@[simp] theorem State.setLine_dirtySlotsNext (s : State) (l : Nat) (x : Line) : (s.setLine l x).dirtySlotsNext = s.dirtySlotsNext := rfl
@[simp] theorem State.setLine_snaps (s : State) (l : Nat) (x : Line) : (s.setLine l x).snaps = s.snaps := rfl
@[simp] theorem State.setLine_snapSeqs (s : State) (l : Nat) (x : Line) : (s.setLine l x).snapSeqs = s.snapSeqs := rfl

/-! ### putS -/

@[simp] theorem State.putS_agenda (s : State) (g n : Nat) (x : Word) : (s.putS g n x).agenda = s.agenda := rfl
@[simp] theorem State.putS_cur (s : State) (g n : Nat) (x : Word) : (s.putS g n x).cur = s.cur := rfl
@[simp] theorem State.putS_nextId (s : State) (g n : Nat) (x : Word) : (s.putS g n x).nextId = s.nextId := rfl
@[simp] theorem State.putS_free (s : State) (g n : Nat) (x : Word) : (s.putS g n x).free = s.free := rfl
@[simp] theorem State.putS_root (s : State) (g n : Nat) (x : Word) : (s.putS g n x).root = s.root := rfl
@[simp] theorem State.putS_dies (s : State) (g n : Nat) (x : Word) : (s.putS g n x).dies = s.dies := rfl
@[simp] theorem State.putS_cores (s : State) (g n : Nat) (x : Word) : (s.putS g n x).cores = s.cores := rfl
@[simp] theorem State.putS_ctxs (s : State) (g n : Nat) (x : Word) : (s.putS g n x).ctxs = s.ctxs := rfl
@[simp] theorem State.putS_queues (s : State) (g n : Nat) (x : Word) : (s.putS g n x).queues = s.queues := rfl
@[simp] theorem State.putS_acl (s : State) (g n : Nat) (x : Word) : (s.putS g n x).acl = s.acl := rfl
@[simp] theorem State.putS_nodes (s : State) (g n : Nat) (x : Word) : (s.putS g n x).nodes = s.nodes := rfl
@[simp] theorem State.putS_graphs (s : State) (g n : Nat) (x : Word) : (s.putS g n x).graphs = s.graphs := rfl
@[simp] theorem State.putS_wgs (s : State) (g n : Nat) (x : Word) : (s.putS g n x).wgs = s.wgs := rfl
@[simp] theorem State.putS_pend (s : State) (g n : Nat) (x : Word) : (s.putS g n x).pend = s.pend := rfl
@[simp] theorem State.putS_stores (s : State) (g n : Nat) (x : Word) : (s.putS g n x).stores = s.stores := rfl
@[simp] theorem State.putS_engs (s : State) (g n : Nat) (x : Word) : (s.putS g n x).engs = s.engs := rfl
@[simp] theorem State.putS_done (s : State) (g n : Nat) (x : Word) : (s.putS g n x).done = s.done := rfl
@[simp] theorem State.putS_colls (s : State) (g n : Nat) (x : Word) : (s.putS g n x).colls = s.colls := rfl
@[simp] theorem State.putS_mops (s : State) (g n : Nat) (x : Word) : (s.putS g n x).mops = s.mops := rfl
@[simp] theorem State.putS_mem (s : State) (g n : Nat) (x : Word) : (s.putS g n x).mem = s.mem := rfl
@[simp] theorem State.putS_tags (s : State) (g n : Nat) (x : Word) : (s.putS g n x).tags = s.tags := rfl
@[simp] theorem State.putS_poison (s : State) (g n : Nat) (x : Word) : (s.putS g n x).poison = s.poison := rfl
@[simp] theorem State.putS_tagPoison (s : State) (g n : Nat) (x : Word) : (s.putS g n x).tagPoison = s.tagPoison := rfl
@[simp] theorem State.putS_shadow (s : State) (g n : Nat) (x : Word) : (s.putS g n x).shadow = s.shadow := rfl
@[simp] theorem State.putS_lines (s : State) (g n : Nat) (x : Word) : (s.putS g n x).lines = s.lines := rfl
@[simp] theorem State.putS_dirty (s : State) (g n : Nat) (x : Word) : (s.putS g n x).dirty = s.dirty := rfl
@[simp] theorem State.putS_dirtyNext (s : State) (g n : Nat) (x : Word) : (s.putS g n x).dirtyNext = s.dirtyNext := rfl
@[simp] theorem State.putS_dirtySlots (s : State) (g n : Nat) (x : Word) : (s.putS g n x).dirtySlots = s.dirtySlots := rfl
@[simp] theorem State.putS_dirtySlotsNext (s : State) (g n : Nat) (x : Word) : (s.putS g n x).dirtySlotsNext = s.dirtySlotsNext := rfl
@[simp] theorem State.putS_snaps (s : State) (g n : Nat) (x : Word) : (s.putS g n x).snaps = s.snaps := rfl
@[simp] theorem State.putS_snapSeqs (s : State) (g n : Nat) (x : Word) : (s.putS g n x).snapSeqs = s.snapSeqs := rfl

/-! ### putV -/

@[simp] theorem State.putV_agenda (s : State) (g n : Nat) (m : Mask) (f : Nat → Word) : (s.putV g n m f).agenda = s.agenda := rfl
@[simp] theorem State.putV_cur (s : State) (g n : Nat) (m : Mask) (f : Nat → Word) : (s.putV g n m f).cur = s.cur := rfl
@[simp] theorem State.putV_nextId (s : State) (g n : Nat) (m : Mask) (f : Nat → Word) : (s.putV g n m f).nextId = s.nextId := rfl
@[simp] theorem State.putV_free (s : State) (g n : Nat) (m : Mask) (f : Nat → Word) : (s.putV g n m f).free = s.free := rfl
@[simp] theorem State.putV_root (s : State) (g n : Nat) (m : Mask) (f : Nat → Word) : (s.putV g n m f).root = s.root := rfl
@[simp] theorem State.putV_dies (s : State) (g n : Nat) (m : Mask) (f : Nat → Word) : (s.putV g n m f).dies = s.dies := rfl
@[simp] theorem State.putV_cores (s : State) (g n : Nat) (m : Mask) (f : Nat → Word) : (s.putV g n m f).cores = s.cores := rfl
@[simp] theorem State.putV_ctxs (s : State) (g n : Nat) (m : Mask) (f : Nat → Word) : (s.putV g n m f).ctxs = s.ctxs := rfl
@[simp] theorem State.putV_queues (s : State) (g n : Nat) (m : Mask) (f : Nat → Word) : (s.putV g n m f).queues = s.queues := rfl
@[simp] theorem State.putV_acl (s : State) (g n : Nat) (m : Mask) (f : Nat → Word) : (s.putV g n m f).acl = s.acl := rfl
@[simp] theorem State.putV_nodes (s : State) (g n : Nat) (m : Mask) (f : Nat → Word) : (s.putV g n m f).nodes = s.nodes := rfl
@[simp] theorem State.putV_graphs (s : State) (g n : Nat) (m : Mask) (f : Nat → Word) : (s.putV g n m f).graphs = s.graphs := rfl
@[simp] theorem State.putV_wgs (s : State) (g n : Nat) (m : Mask) (f : Nat → Word) : (s.putV g n m f).wgs = s.wgs := rfl
@[simp] theorem State.putV_pend (s : State) (g n : Nat) (m : Mask) (f : Nat → Word) : (s.putV g n m f).pend = s.pend := rfl
@[simp] theorem State.putV_stores (s : State) (g n : Nat) (m : Mask) (f : Nat → Word) : (s.putV g n m f).stores = s.stores := rfl
@[simp] theorem State.putV_engs (s : State) (g n : Nat) (m : Mask) (f : Nat → Word) : (s.putV g n m f).engs = s.engs := rfl
@[simp] theorem State.putV_done (s : State) (g n : Nat) (m : Mask) (f : Nat → Word) : (s.putV g n m f).done = s.done := rfl
@[simp] theorem State.putV_colls (s : State) (g n : Nat) (m : Mask) (f : Nat → Word) : (s.putV g n m f).colls = s.colls := rfl
@[simp] theorem State.putV_mops (s : State) (g n : Nat) (m : Mask) (f : Nat → Word) : (s.putV g n m f).mops = s.mops := rfl
@[simp] theorem State.putV_mem (s : State) (g n : Nat) (m : Mask) (f : Nat → Word) : (s.putV g n m f).mem = s.mem := rfl
@[simp] theorem State.putV_tags (s : State) (g n : Nat) (m : Mask) (f : Nat → Word) : (s.putV g n m f).tags = s.tags := rfl
@[simp] theorem State.putV_poison (s : State) (g n : Nat) (m : Mask) (f : Nat → Word) : (s.putV g n m f).poison = s.poison := rfl
@[simp] theorem State.putV_tagPoison (s : State) (g n : Nat) (m : Mask) (f : Nat → Word) : (s.putV g n m f).tagPoison = s.tagPoison := rfl
@[simp] theorem State.putV_shadow (s : State) (g n : Nat) (m : Mask) (f : Nat → Word) : (s.putV g n m f).shadow = s.shadow := rfl
@[simp] theorem State.putV_lines (s : State) (g n : Nat) (m : Mask) (f : Nat → Word) : (s.putV g n m f).lines = s.lines := rfl
@[simp] theorem State.putV_dirty (s : State) (g n : Nat) (m : Mask) (f : Nat → Word) : (s.putV g n m f).dirty = s.dirty := rfl
@[simp] theorem State.putV_dirtyNext (s : State) (g n : Nat) (m : Mask) (f : Nat → Word) : (s.putV g n m f).dirtyNext = s.dirtyNext := rfl
@[simp] theorem State.putV_dirtySlots (s : State) (g n : Nat) (m : Mask) (f : Nat → Word) : (s.putV g n m f).dirtySlots = s.dirtySlots := rfl
@[simp] theorem State.putV_dirtySlotsNext (s : State) (g n : Nat) (m : Mask) (f : Nat → Word) : (s.putV g n m f).dirtySlotsNext = s.dirtySlotsNext := rfl
@[simp] theorem State.putV_snaps (s : State) (g n : Nat) (m : Mask) (f : Nat → Word) : (s.putV g n m f).snaps = s.snaps := rfl
@[simp] theorem State.putV_snapSeqs (s : State) (g n : Nat) (m : Mask) (f : Nat → Word) : (s.putV g n m f).snapSeqs = s.snapSeqs := rfl

/-! ### addPend -/

@[simp] theorem State.addPend_agenda (s : State) (p : Pend) : (s.addPend p).agenda = s.agenda := rfl
@[simp] theorem State.addPend_cur (s : State) (p : Pend) : (s.addPend p).cur = s.cur := rfl
@[simp] theorem State.addPend_free (s : State) (p : Pend) : (s.addPend p).free = s.free := rfl
@[simp] theorem State.addPend_root (s : State) (p : Pend) : (s.addPend p).root = s.root := rfl
@[simp] theorem State.addPend_dies (s : State) (p : Pend) : (s.addPend p).dies = s.dies := rfl
@[simp] theorem State.addPend_cores (s : State) (p : Pend) : (s.addPend p).cores = s.cores := rfl
@[simp] theorem State.addPend_ctxs (s : State) (p : Pend) : (s.addPend p).ctxs = s.ctxs := rfl
@[simp] theorem State.addPend_queues (s : State) (p : Pend) : (s.addPend p).queues = s.queues := rfl
@[simp] theorem State.addPend_acl (s : State) (p : Pend) : (s.addPend p).acl = s.acl := rfl
@[simp] theorem State.addPend_nodes (s : State) (p : Pend) : (s.addPend p).nodes = s.nodes := rfl
@[simp] theorem State.addPend_graphs (s : State) (p : Pend) : (s.addPend p).graphs = s.graphs := rfl
@[simp] theorem State.addPend_wgs (s : State) (p : Pend) : (s.addPend p).wgs = s.wgs := rfl
@[simp] theorem State.addPend_groups (s : State) (p : Pend) : (s.addPend p).groups = s.groups := rfl
@[simp] theorem State.addPend_stores (s : State) (p : Pend) : (s.addPend p).stores = s.stores := rfl
@[simp] theorem State.addPend_engs (s : State) (p : Pend) : (s.addPend p).engs = s.engs := rfl
@[simp] theorem State.addPend_done (s : State) (p : Pend) : (s.addPend p).done = s.done := rfl
@[simp] theorem State.addPend_colls (s : State) (p : Pend) : (s.addPend p).colls = s.colls := rfl
@[simp] theorem State.addPend_mops (s : State) (p : Pend) : (s.addPend p).mops = s.mops := rfl
@[simp] theorem State.addPend_mem (s : State) (p : Pend) : (s.addPend p).mem = s.mem := rfl
@[simp] theorem State.addPend_tags (s : State) (p : Pend) : (s.addPend p).tags = s.tags := rfl
@[simp] theorem State.addPend_poison (s : State) (p : Pend) : (s.addPend p).poison = s.poison := rfl
@[simp] theorem State.addPend_tagPoison (s : State) (p : Pend) : (s.addPend p).tagPoison = s.tagPoison := rfl
@[simp] theorem State.addPend_shadow (s : State) (p : Pend) : (s.addPend p).shadow = s.shadow := rfl
@[simp] theorem State.addPend_lines (s : State) (p : Pend) : (s.addPend p).lines = s.lines := rfl
@[simp] theorem State.addPend_dirty (s : State) (p : Pend) : (s.addPend p).dirty = s.dirty := rfl
@[simp] theorem State.addPend_dirtyNext (s : State) (p : Pend) : (s.addPend p).dirtyNext = s.dirtyNext := rfl
@[simp] theorem State.addPend_dirtySlots (s : State) (p : Pend) : (s.addPend p).dirtySlots = s.dirtySlots := rfl
@[simp] theorem State.addPend_dirtySlotsNext (s : State) (p : Pend) : (s.addPend p).dirtySlotsNext = s.dirtySlotsNext := rfl
@[simp] theorem State.addPend_snaps (s : State) (p : Pend) : (s.addPend p).snaps = s.snaps := rfl
@[simp] theorem State.addPend_snapSeqs (s : State) (p : Pend) : (s.addPend p).snapSeqs = s.snapSeqs := rfl

/-! ### drawn -/

@[simp] theorem State.drawn_agenda (s : State) : (s.drawn).agenda = s.agenda := rfl
@[simp] theorem State.drawn_cur (s : State) : (s.drawn).cur = s.cur := rfl
@[simp] theorem State.drawn_nextId (s : State) : (s.drawn).nextId = s.nextId := rfl
@[simp] theorem State.drawn_root (s : State) : (s.drawn).root = s.root := rfl
@[simp] theorem State.drawn_dies (s : State) : (s.drawn).dies = s.dies := rfl
@[simp] theorem State.drawn_cores (s : State) : (s.drawn).cores = s.cores := rfl
@[simp] theorem State.drawn_ctxs (s : State) : (s.drawn).ctxs = s.ctxs := rfl
@[simp] theorem State.drawn_queues (s : State) : (s.drawn).queues = s.queues := rfl
@[simp] theorem State.drawn_acl (s : State) : (s.drawn).acl = s.acl := rfl
@[simp] theorem State.drawn_nodes (s : State) : (s.drawn).nodes = s.nodes := rfl
@[simp] theorem State.drawn_graphs (s : State) : (s.drawn).graphs = s.graphs := rfl
@[simp] theorem State.drawn_wgs (s : State) : (s.drawn).wgs = s.wgs := rfl
@[simp] theorem State.drawn_groups (s : State) : (s.drawn).groups = s.groups := rfl
@[simp] theorem State.drawn_pend (s : State) : (s.drawn).pend = s.pend := rfl
@[simp] theorem State.drawn_stores (s : State) : (s.drawn).stores = s.stores := rfl
@[simp] theorem State.drawn_engs (s : State) : (s.drawn).engs = s.engs := rfl
@[simp] theorem State.drawn_done (s : State) : (s.drawn).done = s.done := rfl
@[simp] theorem State.drawn_colls (s : State) : (s.drawn).colls = s.colls := rfl
@[simp] theorem State.drawn_mops (s : State) : (s.drawn).mops = s.mops := rfl
@[simp] theorem State.drawn_mem (s : State) : (s.drawn).mem = s.mem := rfl
@[simp] theorem State.drawn_tags (s : State) : (s.drawn).tags = s.tags := rfl
@[simp] theorem State.drawn_poison (s : State) : (s.drawn).poison = s.poison := rfl
@[simp] theorem State.drawn_tagPoison (s : State) : (s.drawn).tagPoison = s.tagPoison := rfl
@[simp] theorem State.drawn_shadow (s : State) : (s.drawn).shadow = s.shadow := rfl
@[simp] theorem State.drawn_lines (s : State) : (s.drawn).lines = s.lines := rfl
@[simp] theorem State.drawn_dirty (s : State) : (s.drawn).dirty = s.dirty := rfl
@[simp] theorem State.drawn_dirtyNext (s : State) : (s.drawn).dirtyNext = s.dirtyNext := rfl
@[simp] theorem State.drawn_dirtySlots (s : State) : (s.drawn).dirtySlots = s.dirtySlots := rfl
@[simp] theorem State.drawn_dirtySlotsNext (s : State) : (s.drawn).dirtySlotsNext = s.dirtySlotsNext := rfl
@[simp] theorem State.drawn_snaps (s : State) : (s.drawn).snaps = s.snaps := rfl
@[simp] theorem State.drawn_snapSeqs (s : State) : (s.drawn).snapSeqs = s.snapSeqs := rfl

/-! ### resolveReads -/

@[simp] theorem State.resolveReads_agenda (s : State) (g : Nat) (n : Info) : (s.resolveReads g n).agenda = s.agenda := rfl
@[simp] theorem State.resolveReads_cur (s : State) (g : Nat) (n : Info) : (s.resolveReads g n).cur = s.cur := rfl
@[simp] theorem State.resolveReads_nextId (s : State) (g : Nat) (n : Info) : (s.resolveReads g n).nextId = s.nextId := rfl
@[simp] theorem State.resolveReads_free (s : State) (g : Nat) (n : Info) : (s.resolveReads g n).free = s.free := rfl
@[simp] theorem State.resolveReads_root (s : State) (g : Nat) (n : Info) : (s.resolveReads g n).root = s.root := rfl
@[simp] theorem State.resolveReads_dies (s : State) (g : Nat) (n : Info) : (s.resolveReads g n).dies = s.dies := rfl
@[simp] theorem State.resolveReads_cores (s : State) (g : Nat) (n : Info) : (s.resolveReads g n).cores = s.cores := rfl
@[simp] theorem State.resolveReads_ctxs (s : State) (g : Nat) (n : Info) : (s.resolveReads g n).ctxs = s.ctxs := rfl
@[simp] theorem State.resolveReads_queues (s : State) (g : Nat) (n : Info) : (s.resolveReads g n).queues = s.queues := rfl
@[simp] theorem State.resolveReads_acl (s : State) (g : Nat) (n : Info) : (s.resolveReads g n).acl = s.acl := rfl
@[simp] theorem State.resolveReads_nodes (s : State) (g : Nat) (n : Info) : (s.resolveReads g n).nodes = s.nodes := rfl
@[simp] theorem State.resolveReads_graphs (s : State) (g : Nat) (n : Info) : (s.resolveReads g n).graphs = s.graphs := rfl
@[simp] theorem State.resolveReads_wgs (s : State) (g : Nat) (n : Info) : (s.resolveReads g n).wgs = s.wgs := rfl
@[simp] theorem State.resolveReads_pend (s : State) (g : Nat) (n : Info) : (s.resolveReads g n).pend = s.pend := rfl
@[simp] theorem State.resolveReads_stores (s : State) (g : Nat) (n : Info) : (s.resolveReads g n).stores = s.stores := rfl
@[simp] theorem State.resolveReads_engs (s : State) (g : Nat) (n : Info) : (s.resolveReads g n).engs = s.engs := rfl
@[simp] theorem State.resolveReads_done (s : State) (g : Nat) (n : Info) : (s.resolveReads g n).done = s.done := rfl
@[simp] theorem State.resolveReads_colls (s : State) (g : Nat) (n : Info) : (s.resolveReads g n).colls = s.colls := rfl
@[simp] theorem State.resolveReads_mops (s : State) (g : Nat) (n : Info) : (s.resolveReads g n).mops = s.mops := rfl
@[simp] theorem State.resolveReads_mem (s : State) (g : Nat) (n : Info) : (s.resolveReads g n).mem = s.mem := rfl
@[simp] theorem State.resolveReads_tags (s : State) (g : Nat) (n : Info) : (s.resolveReads g n).tags = s.tags := rfl
@[simp] theorem State.resolveReads_poison (s : State) (g : Nat) (n : Info) : (s.resolveReads g n).poison = s.poison := rfl
@[simp] theorem State.resolveReads_tagPoison (s : State) (g : Nat) (n : Info) : (s.resolveReads g n).tagPoison = s.tagPoison := rfl
@[simp] theorem State.resolveReads_shadow (s : State) (g : Nat) (n : Info) : (s.resolveReads g n).shadow = s.shadow := rfl
@[simp] theorem State.resolveReads_lines (s : State) (g : Nat) (n : Info) : (s.resolveReads g n).lines = s.lines := rfl
@[simp] theorem State.resolveReads_dirty (s : State) (g : Nat) (n : Info) : (s.resolveReads g n).dirty = s.dirty := rfl
@[simp] theorem State.resolveReads_dirtyNext (s : State) (g : Nat) (n : Info) : (s.resolveReads g n).dirtyNext = s.dirtyNext := rfl
@[simp] theorem State.resolveReads_dirtySlots (s : State) (g : Nat) (n : Info) : (s.resolveReads g n).dirtySlots = s.dirtySlots := rfl
@[simp] theorem State.resolveReads_dirtySlotsNext (s : State) (g : Nat) (n : Info) : (s.resolveReads g n).dirtySlotsNext = s.dirtySlotsNext := rfl
@[simp] theorem State.resolveReads_snaps (s : State) (g : Nat) (n : Info) : (s.resolveReads g n).snaps = s.snaps := rfl
@[simp] theorem State.resolveReads_snapSeqs (s : State) (g : Nat) (n : Info) : (s.resolveReads g n).snapSeqs = s.snapSeqs := rfl

/-! ### finish -/

@[simp] theorem State.finish_agenda (s : State) (g : Nat) (n : Info) (e : Mask) (pc : Dword) : (s.finish g n e pc).agenda = s.agenda := rfl
@[simp] theorem State.finish_cur (s : State) (g : Nat) (n : Info) (e : Mask) (pc : Dword) : (s.finish g n e pc).cur = s.cur := rfl
@[simp] theorem State.finish_nextId (s : State) (g : Nat) (n : Info) (e : Mask) (pc : Dword) : (s.finish g n e pc).nextId = s.nextId := rfl
@[simp] theorem State.finish_free (s : State) (g : Nat) (n : Info) (e : Mask) (pc : Dword) : (s.finish g n e pc).free = s.free := rfl
@[simp] theorem State.finish_root (s : State) (g : Nat) (n : Info) (e : Mask) (pc : Dword) : (s.finish g n e pc).root = s.root := rfl
@[simp] theorem State.finish_dies (s : State) (g : Nat) (n : Info) (e : Mask) (pc : Dword) : (s.finish g n e pc).dies = s.dies := rfl
@[simp] theorem State.finish_cores (s : State) (g : Nat) (n : Info) (e : Mask) (pc : Dword) : (s.finish g n e pc).cores = s.cores := rfl
@[simp] theorem State.finish_ctxs (s : State) (g : Nat) (n : Info) (e : Mask) (pc : Dword) : (s.finish g n e pc).ctxs = s.ctxs := rfl
@[simp] theorem State.finish_queues (s : State) (g : Nat) (n : Info) (e : Mask) (pc : Dword) : (s.finish g n e pc).queues = s.queues := rfl
@[simp] theorem State.finish_acl (s : State) (g : Nat) (n : Info) (e : Mask) (pc : Dword) : (s.finish g n e pc).acl = s.acl := rfl
@[simp] theorem State.finish_nodes (s : State) (g : Nat) (n : Info) (e : Mask) (pc : Dword) : (s.finish g n e pc).nodes = s.nodes := rfl
@[simp] theorem State.finish_graphs (s : State) (g : Nat) (n : Info) (e : Mask) (pc : Dword) : (s.finish g n e pc).graphs = s.graphs := rfl
@[simp] theorem State.finish_wgs (s : State) (g : Nat) (n : Info) (e : Mask) (pc : Dword) : (s.finish g n e pc).wgs = s.wgs := rfl
@[simp] theorem State.finish_pend (s : State) (g : Nat) (n : Info) (e : Mask) (pc : Dword) : (s.finish g n e pc).pend = s.pend := rfl
@[simp] theorem State.finish_stores (s : State) (g : Nat) (n : Info) (e : Mask) (pc : Dword) : (s.finish g n e pc).stores = s.stores := rfl
@[simp] theorem State.finish_engs (s : State) (g : Nat) (n : Info) (e : Mask) (pc : Dword) : (s.finish g n e pc).engs = s.engs := rfl
@[simp] theorem State.finish_done (s : State) (g : Nat) (n : Info) (e : Mask) (pc : Dword) : (s.finish g n e pc).done = s.done := rfl
@[simp] theorem State.finish_colls (s : State) (g : Nat) (n : Info) (e : Mask) (pc : Dword) : (s.finish g n e pc).colls = s.colls := rfl
@[simp] theorem State.finish_mops (s : State) (g : Nat) (n : Info) (e : Mask) (pc : Dword) : (s.finish g n e pc).mops = s.mops := rfl
@[simp] theorem State.finish_mem (s : State) (g : Nat) (n : Info) (e : Mask) (pc : Dword) : (s.finish g n e pc).mem = s.mem := rfl
@[simp] theorem State.finish_tags (s : State) (g : Nat) (n : Info) (e : Mask) (pc : Dword) : (s.finish g n e pc).tags = s.tags := rfl
@[simp] theorem State.finish_poison (s : State) (g : Nat) (n : Info) (e : Mask) (pc : Dword) : (s.finish g n e pc).poison = s.poison := rfl
@[simp] theorem State.finish_tagPoison (s : State) (g : Nat) (n : Info) (e : Mask) (pc : Dword) : (s.finish g n e pc).tagPoison = s.tagPoison := rfl
@[simp] theorem State.finish_shadow (s : State) (g : Nat) (n : Info) (e : Mask) (pc : Dword) : (s.finish g n e pc).shadow = s.shadow := rfl
@[simp] theorem State.finish_lines (s : State) (g : Nat) (n : Info) (e : Mask) (pc : Dword) : (s.finish g n e pc).lines = s.lines := rfl
@[simp] theorem State.finish_dirty (s : State) (g : Nat) (n : Info) (e : Mask) (pc : Dword) : (s.finish g n e pc).dirty = s.dirty := rfl
@[simp] theorem State.finish_dirtyNext (s : State) (g : Nat) (n : Info) (e : Mask) (pc : Dword) : (s.finish g n e pc).dirtyNext = s.dirtyNext := rfl
@[simp] theorem State.finish_dirtySlots (s : State) (g : Nat) (n : Info) (e : Mask) (pc : Dword) : (s.finish g n e pc).dirtySlots = s.dirtySlots := rfl
@[simp] theorem State.finish_dirtySlotsNext (s : State) (g : Nat) (n : Info) (e : Mask) (pc : Dword) : (s.finish g n e pc).dirtySlotsNext = s.dirtySlotsNext := rfl
@[simp] theorem State.finish_snaps (s : State) (g : Nat) (n : Info) (e : Mask) (pc : Dword) : (s.finish g n e pc).snaps = s.snaps := rfl
@[simp] theorem State.finish_snapSeqs (s : State) (g : Nat) (n : Info) (e : Mask) (pc : Dword) : (s.finish g n e pc).snapSeqs = s.snapSeqs := rfl

/-! ### writeS -/

@[simp] theorem Group.writeS_wg (g : Group) (n : Nat) (x : Word) (i : Nat) (o : Option Nat) : (g.writeS n x i o).wg = g.wg := rfl
@[simp] theorem Group.writeS_base (g : Group) (n : Nat) (x : Word) (i : Nat) (o : Option Nat) : (g.writeS n x i o).base = g.base := rfl
@[simp] theorem Group.writeS_width (g : Group) (n : Nat) (x : Word) (i : Nat) (o : Option Nat) : (g.writeS n x i o).width = g.width := rfl
@[simp] theorem Group.writeS_stage (g : Group) (n : Nat) (x : Word) (i : Nat) (o : Option Nat) : (g.writeS n x i o).stage = g.stage := rfl
@[simp] theorem Group.writeS_status (g : Group) (n : Nat) (x : Word) (i : Nat) (o : Option Nat) : (g.writeS n x i o).status = g.status := rfl
@[simp] theorem Group.writeS_pc (g : Group) (n : Nat) (x : Word) (i : Nat) (o : Option Nat) : (g.writeS n x i o).pc = g.pc := rfl
@[simp] theorem Group.writeS_v (g : Group) (n : Nat) (x : Word) (i : Nat) (o : Option Nat) : (g.writeS n x i o).v = g.v := rfl
@[simp] theorem Group.writeS_m (g : Group) (n : Nat) (x : Word) (i : Nat) (o : Option Nat) : (g.writeS n x i o).m = g.m := rfl
@[simp] theorem Group.writeS_flags (g : Group) (n : Nat) (x : Word) (i : Nat) (o : Option Nat) : (g.writeS n x i o).flags = g.flags := rfl
@[simp] theorem Group.writeS_vk (g : Group) (n : Nat) (x : Word) (i : Nat) (o : Option Nat) : (g.writeS n x i o).vk = g.vk := rfl
@[simp] theorem Group.writeS_sk (g : Group) (n : Nat) (x : Word) (i : Nat) (o : Option Nat) : (g.writeS n x i o).sk = g.sk := rfl
@[simp] theorem Group.writeS_mstk (g : Group) (n : Nat) (x : Word) (i : Nat) (o : Option Nat) : (g.writeS n x i o).mstk = g.mstk := rfl
@[simp] theorem Group.writeS_rstk (g : Group) (n : Nat) (x : Word) (i : Nat) (o : Option Nat) : (g.writeS n x i o).rstk = g.rstk := rfl
@[simp] theorem Group.writeS_rdDepth (g : Group) (n : Nat) (x : Word) (i : Nat) (o : Option Nat) : (g.writeS n x i o).rdDepth = g.rdDepth := rfl
@[simp] theorem Group.writeS_rdPar (g : Group) (n : Nat) (x : Word) (i : Nat) (o : Option Nat) : (g.writeS n x i o).rdPar = g.rdPar := rfl
@[simp] theorem Group.writeS_region (g : Group) (n : Nat) (x : Word) (i : Nat) (o : Option Nat) : (g.writeS n x i o).region = g.region := rfl
@[simp] theorem Group.writeS_rollbacks (g : Group) (n : Nat) (x : Word) (i : Nat) (o : Option Nat) : (g.writeS n x i o).rollbacks = g.rollbacks := rfl
@[simp] theorem Group.writeS_sig (g : Group) (n : Nat) (x : Word) (i : Nat) (o : Option Nat) : (g.writeS n x i o).sig = g.sig := rfl
@[simp] theorem Group.writeS_hlr (g : Group) (n : Nat) (x : Word) (i : Nat) (o : Option Nat) : (g.writeS n x i o).hlr = g.hlr := rfl
@[simp] theorem Group.writeS_hrun (g : Group) (n : Nat) (x : Word) (i : Nat) (o : Option Nat) : (g.writeS n x i o).hrun = g.hrun := rfl
@[simp] theorem Group.writeS_bundle (g : Group) (n : Nat) (x : Word) (i : Nat) (o : Option Nat) : (g.writeS n x i o).bundle = g.bundle := rfl
@[simp] theorem Group.writeS_handler (g : Group) (n : Nat) (x : Word) (i : Nat) (o : Option Nat) : (g.writeS n x i o).handler = g.handler := rfl
@[simp] theorem Group.writeS_pendTraps (g : Group) (n : Nat) (x : Word) (i : Nat) (o : Option Nat) : (g.writeS n x i o).pendTraps = g.pendTraps := rfl
@[simp] theorem Group.writeS_nb (g : Group) (n : Nat) (x : Word) (i : Nat) (o : Option Nat) : (g.writeS n x i o).nb = g.nb := rfl
@[simp] theorem Group.writeS_wm (g : Group) (n : Nat) (x : Word) (i : Nat) (o : Option Nat) : (g.writeS n x i o).wm = g.wm := rfl
@[simp] theorem Group.writeS_batchOpen (g : Group) (n : Nat) (x : Word) (i : Nat) (o : Option Nat) : (g.writeS n x i o).batchOpen = g.batchOpen := rfl
@[simp] theorem Group.writeS_openStatus (g : Group) (n : Nat) (x : Word) (i : Nat) (o : Option Nat) : (g.writeS n x i o).openStatus = g.openStatus := rfl
@[simp] theorem Group.writeS_batches (g : Group) (n : Nat) (x : Word) (i : Nat) (o : Option Nat) : (g.writeS n x i o).batches = g.batches := rfl
@[simp] theorem Group.writeS_interval (g : Group) (n : Nat) (x : Word) (i : Nat) (o : Option Nat) : (g.writeS n x i o).interval = g.interval := rfl
@[simp] theorem Group.writeS_holder (g : Group) (n : Nat) (x : Word) (i : Nat) (o : Option Nat) : (g.writeS n x i o).holder = g.holder := rfl
@[simp] theorem Group.writeS_parked (g : Group) (n : Nat) (x : Word) (i : Nat) (o : Option Nat) : (g.writeS n x i o).parked = g.parked := rfl
@[simp] theorem Group.writeS_wait (g : Group) (n : Nat) (x : Word) (i : Nat) (o : Option Nat) : (g.writeS n x i o).wait = g.wait := rfl
@[simp] theorem Group.writeS_stall (g : Group) (n : Nat) (x : Word) (i : Nat) (o : Option Nat) : (g.writeS n x i o).stall = g.stall := rfl
@[simp] theorem Group.writeS_poolHold (g : Group) (n : Nat) (x : Word) (i : Nat) (o : Option Nat) : (g.writeS n x i o).poolHold = g.poolHold := rfl
@[simp] theorem Group.writeS_rollbackDue (g : Group) (n : Nat) (x : Word) (i : Nat) (o : Option Nat) : (g.writeS n x i o).rollbackDue = g.rollbackDue := rfl
@[simp] theorem Group.writeS_issued (g : Group) (n : Nat) (x : Word) (i : Nat) (o : Option Nat) : (g.writeS n x i o).issued = g.issued := rfl
@[simp] theorem Group.writeS_readySince (g : Group) (n : Nat) (x : Word) (i : Nat) (o : Option Nat) : (g.writeS n x i o).readySince = g.readySince := rfl
@[simp] theorem Group.writeS_lastLoad (g : Group) (n : Nat) (x : Word) (i : Nat) (o : Option Nat) : (g.writeS n x i o).lastLoad = g.lastLoad := rfl
@[simp] theorem Group.writeS_past (g : Group) (n : Nat) (x : Word) (i : Nat) (o : Option Nat) : (g.writeS n x i o).past = g.past := rfl

/-! ### writeV -/

@[simp] theorem Group.writeV_wg (g : Group) (n : Nat) (m : Mask) (f : Nat → Word) (i : List Nat) : (g.writeV n m f i).wg = g.wg := rfl
@[simp] theorem Group.writeV_base (g : Group) (n : Nat) (m : Mask) (f : Nat → Word) (i : List Nat) : (g.writeV n m f i).base = g.base := rfl
@[simp] theorem Group.writeV_width (g : Group) (n : Nat) (m : Mask) (f : Nat → Word) (i : List Nat) : (g.writeV n m f i).width = g.width := rfl
@[simp] theorem Group.writeV_stage (g : Group) (n : Nat) (m : Mask) (f : Nat → Word) (i : List Nat) : (g.writeV n m f i).stage = g.stage := rfl
@[simp] theorem Group.writeV_status (g : Group) (n : Nat) (m : Mask) (f : Nat → Word) (i : List Nat) : (g.writeV n m f i).status = g.status := rfl
@[simp] theorem Group.writeV_pc (g : Group) (n : Nat) (m : Mask) (f : Nat → Word) (i : List Nat) : (g.writeV n m f i).pc = g.pc := rfl
@[simp] theorem Group.writeV_s (g : Group) (n : Nat) (m : Mask) (f : Nat → Word) (i : List Nat) : (g.writeV n m f i).s = g.s := rfl
@[simp] theorem Group.writeV_m (g : Group) (n : Nat) (m : Mask) (f : Nat → Word) (i : List Nat) : (g.writeV n m f i).m = g.m := rfl
@[simp] theorem Group.writeV_flags (g : Group) (n : Nat) (m : Mask) (f : Nat → Word) (i : List Nat) : (g.writeV n m f i).flags = g.flags := rfl
@[simp] theorem Group.writeV_vk (g : Group) (n : Nat) (m : Mask) (f : Nat → Word) (i : List Nat) : (g.writeV n m f i).vk = g.vk := rfl
@[simp] theorem Group.writeV_sk (g : Group) (n : Nat) (m : Mask) (f : Nat → Word) (i : List Nat) : (g.writeV n m f i).sk = g.sk := rfl
@[simp] theorem Group.writeV_mstk (g : Group) (n : Nat) (m : Mask) (f : Nat → Word) (i : List Nat) : (g.writeV n m f i).mstk = g.mstk := rfl
@[simp] theorem Group.writeV_rstk (g : Group) (n : Nat) (m : Mask) (f : Nat → Word) (i : List Nat) : (g.writeV n m f i).rstk = g.rstk := rfl
@[simp] theorem Group.writeV_rdDepth (g : Group) (n : Nat) (m : Mask) (f : Nat → Word) (i : List Nat) : (g.writeV n m f i).rdDepth = g.rdDepth := rfl
@[simp] theorem Group.writeV_rdPar (g : Group) (n : Nat) (m : Mask) (f : Nat → Word) (i : List Nat) : (g.writeV n m f i).rdPar = g.rdPar := rfl
@[simp] theorem Group.writeV_region (g : Group) (n : Nat) (m : Mask) (f : Nat → Word) (i : List Nat) : (g.writeV n m f i).region = g.region := rfl
@[simp] theorem Group.writeV_rollbacks (g : Group) (n : Nat) (m : Mask) (f : Nat → Word) (i : List Nat) : (g.writeV n m f i).rollbacks = g.rollbacks := rfl
@[simp] theorem Group.writeV_sig (g : Group) (n : Nat) (m : Mask) (f : Nat → Word) (i : List Nat) : (g.writeV n m f i).sig = g.sig := rfl
@[simp] theorem Group.writeV_hlr (g : Group) (n : Nat) (m : Mask) (f : Nat → Word) (i : List Nat) : (g.writeV n m f i).hlr = g.hlr := rfl
@[simp] theorem Group.writeV_hrun (g : Group) (n : Nat) (m : Mask) (f : Nat → Word) (i : List Nat) : (g.writeV n m f i).hrun = g.hrun := rfl
@[simp] theorem Group.writeV_bundle (g : Group) (n : Nat) (m : Mask) (f : Nat → Word) (i : List Nat) : (g.writeV n m f i).bundle = g.bundle := rfl
@[simp] theorem Group.writeV_handler (g : Group) (n : Nat) (m : Mask) (f : Nat → Word) (i : List Nat) : (g.writeV n m f i).handler = g.handler := rfl
@[simp] theorem Group.writeV_pendTraps (g : Group) (n : Nat) (m : Mask) (f : Nat → Word) (i : List Nat) : (g.writeV n m f i).pendTraps = g.pendTraps := rfl
@[simp] theorem Group.writeV_nb (g : Group) (n : Nat) (m : Mask) (f : Nat → Word) (i : List Nat) : (g.writeV n m f i).nb = g.nb := rfl
@[simp] theorem Group.writeV_wm (g : Group) (n : Nat) (m : Mask) (f : Nat → Word) (i : List Nat) : (g.writeV n m f i).wm = g.wm := rfl
@[simp] theorem Group.writeV_batchOpen (g : Group) (n : Nat) (m : Mask) (f : Nat → Word) (i : List Nat) : (g.writeV n m f i).batchOpen = g.batchOpen := rfl
@[simp] theorem Group.writeV_openStatus (g : Group) (n : Nat) (m : Mask) (f : Nat → Word) (i : List Nat) : (g.writeV n m f i).openStatus = g.openStatus := rfl
@[simp] theorem Group.writeV_batches (g : Group) (n : Nat) (m : Mask) (f : Nat → Word) (i : List Nat) : (g.writeV n m f i).batches = g.batches := rfl
@[simp] theorem Group.writeV_interval (g : Group) (n : Nat) (m : Mask) (f : Nat → Word) (i : List Nat) : (g.writeV n m f i).interval = g.interval := rfl
@[simp] theorem Group.writeV_holder (g : Group) (n : Nat) (m : Mask) (f : Nat → Word) (i : List Nat) : (g.writeV n m f i).holder = g.holder := rfl
@[simp] theorem Group.writeV_parked (g : Group) (n : Nat) (m : Mask) (f : Nat → Word) (i : List Nat) : (g.writeV n m f i).parked = g.parked := rfl
@[simp] theorem Group.writeV_wait (g : Group) (n : Nat) (m : Mask) (f : Nat → Word) (i : List Nat) : (g.writeV n m f i).wait = g.wait := rfl
@[simp] theorem Group.writeV_stall (g : Group) (n : Nat) (m : Mask) (f : Nat → Word) (i : List Nat) : (g.writeV n m f i).stall = g.stall := rfl
@[simp] theorem Group.writeV_poolHold (g : Group) (n : Nat) (m : Mask) (f : Nat → Word) (i : List Nat) : (g.writeV n m f i).poolHold = g.poolHold := rfl
@[simp] theorem Group.writeV_rollbackDue (g : Group) (n : Nat) (m : Mask) (f : Nat → Word) (i : List Nat) : (g.writeV n m f i).rollbackDue = g.rollbackDue := rfl
@[simp] theorem Group.writeV_issued (g : Group) (n : Nat) (m : Mask) (f : Nat → Word) (i : List Nat) : (g.writeV n m f i).issued = g.issued := rfl
@[simp] theorem Group.writeV_readySince (g : Group) (n : Nat) (m : Mask) (f : Nat → Word) (i : List Nat) : (g.writeV n m f i).readySince = g.readySince := rfl
@[simp] theorem Group.writeV_lastLoad (g : Group) (n : Nat) (m : Mask) (f : Nat → Word) (i : List Nat) : (g.writeV n m f i).lastLoad = g.lastLoad := rfl
@[simp] theorem Group.writeV_past (g : Group) (n : Nat) (m : Mask) (f : Nat → Word) (i : List Nat) : (g.writeV n m f i).past = g.past := rfl

/-! ### freeS -/

@[simp] theorem Group.freeS_wg (g : Group) (n : Nat) : (g.freeS n).wg = g.wg := rfl
@[simp] theorem Group.freeS_base (g : Group) (n : Nat) : (g.freeS n).base = g.base := rfl
@[simp] theorem Group.freeS_width (g : Group) (n : Nat) : (g.freeS n).width = g.width := rfl
@[simp] theorem Group.freeS_stage (g : Group) (n : Nat) : (g.freeS n).stage = g.stage := rfl
@[simp] theorem Group.freeS_status (g : Group) (n : Nat) : (g.freeS n).status = g.status := rfl
@[simp] theorem Group.freeS_pc (g : Group) (n : Nat) : (g.freeS n).pc = g.pc := rfl
@[simp] theorem Group.freeS_v (g : Group) (n : Nat) : (g.freeS n).v = g.v := rfl
@[simp] theorem Group.freeS_m (g : Group) (n : Nat) : (g.freeS n).m = g.m := rfl
@[simp] theorem Group.freeS_flags (g : Group) (n : Nat) : (g.freeS n).flags = g.flags := rfl
@[simp] theorem Group.freeS_vk (g : Group) (n : Nat) : (g.freeS n).vk = g.vk := rfl
@[simp] theorem Group.freeS_sk (g : Group) (n : Nat) : (g.freeS n).sk = g.sk := rfl
@[simp] theorem Group.freeS_mstk (g : Group) (n : Nat) : (g.freeS n).mstk = g.mstk := rfl
@[simp] theorem Group.freeS_rstk (g : Group) (n : Nat) : (g.freeS n).rstk = g.rstk := rfl
@[simp] theorem Group.freeS_rdDepth (g : Group) (n : Nat) : (g.freeS n).rdDepth = g.rdDepth := rfl
@[simp] theorem Group.freeS_rdPar (g : Group) (n : Nat) : (g.freeS n).rdPar = g.rdPar := rfl
@[simp] theorem Group.freeS_region (g : Group) (n : Nat) : (g.freeS n).region = g.region := rfl
@[simp] theorem Group.freeS_rollbacks (g : Group) (n : Nat) : (g.freeS n).rollbacks = g.rollbacks := rfl
@[simp] theorem Group.freeS_sig (g : Group) (n : Nat) : (g.freeS n).sig = g.sig := rfl
@[simp] theorem Group.freeS_hlr (g : Group) (n : Nat) : (g.freeS n).hlr = g.hlr := rfl
@[simp] theorem Group.freeS_hrun (g : Group) (n : Nat) : (g.freeS n).hrun = g.hrun := rfl
@[simp] theorem Group.freeS_bundle (g : Group) (n : Nat) : (g.freeS n).bundle = g.bundle := rfl
@[simp] theorem Group.freeS_handler (g : Group) (n : Nat) : (g.freeS n).handler = g.handler := rfl
@[simp] theorem Group.freeS_pendTraps (g : Group) (n : Nat) : (g.freeS n).pendTraps = g.pendTraps := rfl
@[simp] theorem Group.freeS_nb (g : Group) (n : Nat) : (g.freeS n).nb = g.nb := rfl
@[simp] theorem Group.freeS_wm (g : Group) (n : Nat) : (g.freeS n).wm = g.wm := rfl
@[simp] theorem Group.freeS_batchOpen (g : Group) (n : Nat) : (g.freeS n).batchOpen = g.batchOpen := rfl
@[simp] theorem Group.freeS_openStatus (g : Group) (n : Nat) : (g.freeS n).openStatus = g.openStatus := rfl
@[simp] theorem Group.freeS_batches (g : Group) (n : Nat) : (g.freeS n).batches = g.batches := rfl
@[simp] theorem Group.freeS_interval (g : Group) (n : Nat) : (g.freeS n).interval = g.interval := rfl
@[simp] theorem Group.freeS_holder (g : Group) (n : Nat) : (g.freeS n).holder = g.holder := rfl
@[simp] theorem Group.freeS_parked (g : Group) (n : Nat) : (g.freeS n).parked = g.parked := rfl
@[simp] theorem Group.freeS_wait (g : Group) (n : Nat) : (g.freeS n).wait = g.wait := rfl
@[simp] theorem Group.freeS_stall (g : Group) (n : Nat) : (g.freeS n).stall = g.stall := rfl
@[simp] theorem Group.freeS_poolHold (g : Group) (n : Nat) : (g.freeS n).poolHold = g.poolHold := rfl
@[simp] theorem Group.freeS_rollbackDue (g : Group) (n : Nat) : (g.freeS n).rollbackDue = g.rollbackDue := rfl
@[simp] theorem Group.freeS_issued (g : Group) (n : Nat) : (g.freeS n).issued = g.issued := rfl
@[simp] theorem Group.freeS_readySince (g : Group) (n : Nat) : (g.freeS n).readySince = g.readySince := rfl
@[simp] theorem Group.freeS_lastLoad (g : Group) (n : Nat) : (g.freeS n).lastLoad = g.lastLoad := rfl
@[simp] theorem Group.freeS_past (g : Group) (n : Nat) : (g.freeS n).past = g.past := rfl

/-! ### freeV -/

@[simp] theorem Group.freeV_wg (g : Group) (n : Nat) : (g.freeV n).wg = g.wg := rfl
@[simp] theorem Group.freeV_base (g : Group) (n : Nat) : (g.freeV n).base = g.base := rfl
@[simp] theorem Group.freeV_width (g : Group) (n : Nat) : (g.freeV n).width = g.width := rfl
@[simp] theorem Group.freeV_stage (g : Group) (n : Nat) : (g.freeV n).stage = g.stage := rfl
@[simp] theorem Group.freeV_status (g : Group) (n : Nat) : (g.freeV n).status = g.status := rfl
@[simp] theorem Group.freeV_pc (g : Group) (n : Nat) : (g.freeV n).pc = g.pc := rfl
@[simp] theorem Group.freeV_s (g : Group) (n : Nat) : (g.freeV n).s = g.s := rfl
@[simp] theorem Group.freeV_m (g : Group) (n : Nat) : (g.freeV n).m = g.m := rfl
@[simp] theorem Group.freeV_flags (g : Group) (n : Nat) : (g.freeV n).flags = g.flags := rfl
@[simp] theorem Group.freeV_vk (g : Group) (n : Nat) : (g.freeV n).vk = g.vk := rfl
@[simp] theorem Group.freeV_sk (g : Group) (n : Nat) : (g.freeV n).sk = g.sk := rfl
@[simp] theorem Group.freeV_mstk (g : Group) (n : Nat) : (g.freeV n).mstk = g.mstk := rfl
@[simp] theorem Group.freeV_rstk (g : Group) (n : Nat) : (g.freeV n).rstk = g.rstk := rfl
@[simp] theorem Group.freeV_rdDepth (g : Group) (n : Nat) : (g.freeV n).rdDepth = g.rdDepth := rfl
@[simp] theorem Group.freeV_rdPar (g : Group) (n : Nat) : (g.freeV n).rdPar = g.rdPar := rfl
@[simp] theorem Group.freeV_region (g : Group) (n : Nat) : (g.freeV n).region = g.region := rfl
@[simp] theorem Group.freeV_rollbacks (g : Group) (n : Nat) : (g.freeV n).rollbacks = g.rollbacks := rfl
@[simp] theorem Group.freeV_sig (g : Group) (n : Nat) : (g.freeV n).sig = g.sig := rfl
@[simp] theorem Group.freeV_hlr (g : Group) (n : Nat) : (g.freeV n).hlr = g.hlr := rfl
@[simp] theorem Group.freeV_hrun (g : Group) (n : Nat) : (g.freeV n).hrun = g.hrun := rfl
@[simp] theorem Group.freeV_bundle (g : Group) (n : Nat) : (g.freeV n).bundle = g.bundle := rfl
@[simp] theorem Group.freeV_handler (g : Group) (n : Nat) : (g.freeV n).handler = g.handler := rfl
@[simp] theorem Group.freeV_pendTraps (g : Group) (n : Nat) : (g.freeV n).pendTraps = g.pendTraps := rfl
@[simp] theorem Group.freeV_nb (g : Group) (n : Nat) : (g.freeV n).nb = g.nb := rfl
@[simp] theorem Group.freeV_wm (g : Group) (n : Nat) : (g.freeV n).wm = g.wm := rfl
@[simp] theorem Group.freeV_batchOpen (g : Group) (n : Nat) : (g.freeV n).batchOpen = g.batchOpen := rfl
@[simp] theorem Group.freeV_openStatus (g : Group) (n : Nat) : (g.freeV n).openStatus = g.openStatus := rfl
@[simp] theorem Group.freeV_batches (g : Group) (n : Nat) : (g.freeV n).batches = g.batches := rfl
@[simp] theorem Group.freeV_interval (g : Group) (n : Nat) : (g.freeV n).interval = g.interval := rfl
@[simp] theorem Group.freeV_holder (g : Group) (n : Nat) : (g.freeV n).holder = g.holder := rfl
@[simp] theorem Group.freeV_parked (g : Group) (n : Nat) : (g.freeV n).parked = g.parked := rfl
@[simp] theorem Group.freeV_wait (g : Group) (n : Nat) : (g.freeV n).wait = g.wait := rfl
@[simp] theorem Group.freeV_stall (g : Group) (n : Nat) : (g.freeV n).stall = g.stall := rfl
@[simp] theorem Group.freeV_poolHold (g : Group) (n : Nat) : (g.freeV n).poolHold = g.poolHold := rfl
@[simp] theorem Group.freeV_rollbackDue (g : Group) (n : Nat) : (g.freeV n).rollbackDue = g.rollbackDue := rfl
@[simp] theorem Group.freeV_issued (g : Group) (n : Nat) : (g.freeV n).issued = g.issued := rfl
@[simp] theorem Group.freeV_readySince (g : Group) (n : Nat) : (g.freeV n).readySince = g.readySince := rfl
@[simp] theorem Group.freeV_lastLoad (g : Group) (n : Nat) : (g.freeV n).lastLoad = g.lastLoad := rfl
@[simp] theorem Group.freeV_past (g : Group) (n : Nat) : (g.freeV n).past = g.past := rfl

/-! ### setMask -/

@[simp] theorem Group.setMask_wg (g : Group) (k : Nat) (v : Mask) : (g.setMask k v).wg = g.wg := rfl
@[simp] theorem Group.setMask_base (g : Group) (k : Nat) (v : Mask) : (g.setMask k v).base = g.base := rfl
@[simp] theorem Group.setMask_width (g : Group) (k : Nat) (v : Mask) : (g.setMask k v).width = g.width := rfl
@[simp] theorem Group.setMask_stage (g : Group) (k : Nat) (v : Mask) : (g.setMask k v).stage = g.stage := rfl
@[simp] theorem Group.setMask_status (g : Group) (k : Nat) (v : Mask) : (g.setMask k v).status = g.status := rfl
@[simp] theorem Group.setMask_pc (g : Group) (k : Nat) (v : Mask) : (g.setMask k v).pc = g.pc := rfl
@[simp] theorem Group.setMask_v (g : Group) (k : Nat) (v : Mask) : (g.setMask k v).v = g.v := rfl
@[simp] theorem Group.setMask_s (g : Group) (k : Nat) (v : Mask) : (g.setMask k v).s = g.s := rfl
@[simp] theorem Group.setMask_flags (g : Group) (k : Nat) (v : Mask) : (g.setMask k v).flags = g.flags := rfl
@[simp] theorem Group.setMask_vk (g : Group) (k : Nat) (v : Mask) : (g.setMask k v).vk = g.vk := rfl
@[simp] theorem Group.setMask_sk (g : Group) (k : Nat) (v : Mask) : (g.setMask k v).sk = g.sk := rfl
@[simp] theorem Group.setMask_mstk (g : Group) (k : Nat) (v : Mask) : (g.setMask k v).mstk = g.mstk := rfl
@[simp] theorem Group.setMask_rstk (g : Group) (k : Nat) (v : Mask) : (g.setMask k v).rstk = g.rstk := rfl
@[simp] theorem Group.setMask_rdDepth (g : Group) (k : Nat) (v : Mask) : (g.setMask k v).rdDepth = g.rdDepth := rfl
@[simp] theorem Group.setMask_rdPar (g : Group) (k : Nat) (v : Mask) : (g.setMask k v).rdPar = g.rdPar := rfl
@[simp] theorem Group.setMask_region (g : Group) (k : Nat) (v : Mask) : (g.setMask k v).region = g.region := rfl
@[simp] theorem Group.setMask_rollbacks (g : Group) (k : Nat) (v : Mask) : (g.setMask k v).rollbacks = g.rollbacks := rfl
@[simp] theorem Group.setMask_sig (g : Group) (k : Nat) (v : Mask) : (g.setMask k v).sig = g.sig := rfl
@[simp] theorem Group.setMask_hlr (g : Group) (k : Nat) (v : Mask) : (g.setMask k v).hlr = g.hlr := rfl
@[simp] theorem Group.setMask_hrun (g : Group) (k : Nat) (v : Mask) : (g.setMask k v).hrun = g.hrun := rfl
@[simp] theorem Group.setMask_bundle (g : Group) (k : Nat) (v : Mask) : (g.setMask k v).bundle = g.bundle := rfl
@[simp] theorem Group.setMask_handler (g : Group) (k : Nat) (v : Mask) : (g.setMask k v).handler = g.handler := rfl
@[simp] theorem Group.setMask_pendTraps (g : Group) (k : Nat) (v : Mask) : (g.setMask k v).pendTraps = g.pendTraps := rfl
@[simp] theorem Group.setMask_nb (g : Group) (k : Nat) (v : Mask) : (g.setMask k v).nb = g.nb := rfl
@[simp] theorem Group.setMask_wm (g : Group) (k : Nat) (v : Mask) : (g.setMask k v).wm = g.wm := rfl
@[simp] theorem Group.setMask_batchOpen (g : Group) (k : Nat) (v : Mask) : (g.setMask k v).batchOpen = g.batchOpen := rfl
@[simp] theorem Group.setMask_openStatus (g : Group) (k : Nat) (v : Mask) : (g.setMask k v).openStatus = g.openStatus := rfl
@[simp] theorem Group.setMask_batches (g : Group) (k : Nat) (v : Mask) : (g.setMask k v).batches = g.batches := rfl
@[simp] theorem Group.setMask_interval (g : Group) (k : Nat) (v : Mask) : (g.setMask k v).interval = g.interval := rfl
@[simp] theorem Group.setMask_holder (g : Group) (k : Nat) (v : Mask) : (g.setMask k v).holder = g.holder := rfl
@[simp] theorem Group.setMask_parked (g : Group) (k : Nat) (v : Mask) : (g.setMask k v).parked = g.parked := rfl
@[simp] theorem Group.setMask_wait (g : Group) (k : Nat) (v : Mask) : (g.setMask k v).wait = g.wait := rfl
@[simp] theorem Group.setMask_stall (g : Group) (k : Nat) (v : Mask) : (g.setMask k v).stall = g.stall := rfl
@[simp] theorem Group.setMask_poolHold (g : Group) (k : Nat) (v : Mask) : (g.setMask k v).poolHold = g.poolHold := rfl
@[simp] theorem Group.setMask_rollbackDue (g : Group) (k : Nat) (v : Mask) : (g.setMask k v).rollbackDue = g.rollbackDue := rfl
@[simp] theorem Group.setMask_issued (g : Group) (k : Nat) (v : Mask) : (g.setMask k v).issued = g.issued := rfl
@[simp] theorem Group.setMask_readySince (g : Group) (k : Nat) (v : Mask) : (g.setMask k v).readySince = g.readySince := rfl
@[simp] theorem Group.setMask_lastLoad (g : Group) (k : Nat) (v : Mask) : (g.setMask k v).lastLoad = g.lastLoad := rfl
@[simp] theorem Group.setMask_past (g : Group) (k : Nat) (v : Mask) : (g.setMask k v).past = g.past := rfl

/-! ### dropLatches -/

@[simp] theorem Group.dropLatches_wg (g : Group) : (g.dropLatches).wg = g.wg := rfl
@[simp] theorem Group.dropLatches_base (g : Group) : (g.dropLatches).base = g.base := rfl
@[simp] theorem Group.dropLatches_width (g : Group) : (g.dropLatches).width = g.width := rfl
@[simp] theorem Group.dropLatches_stage (g : Group) : (g.dropLatches).stage = g.stage := rfl
@[simp] theorem Group.dropLatches_status (g : Group) : (g.dropLatches).status = g.status := rfl
@[simp] theorem Group.dropLatches_pc (g : Group) : (g.dropLatches).pc = g.pc := rfl
@[simp] theorem Group.dropLatches_v (g : Group) : (g.dropLatches).v = g.v := rfl
@[simp] theorem Group.dropLatches_s (g : Group) : (g.dropLatches).s = g.s := rfl
@[simp] theorem Group.dropLatches_m (g : Group) : (g.dropLatches).m = g.m := rfl
@[simp] theorem Group.dropLatches_flags (g : Group) : (g.dropLatches).flags = g.flags := rfl
@[simp] theorem Group.dropLatches_mstk (g : Group) : (g.dropLatches).mstk = g.mstk := rfl
@[simp] theorem Group.dropLatches_rstk (g : Group) : (g.dropLatches).rstk = g.rstk := rfl
@[simp] theorem Group.dropLatches_rdDepth (g : Group) : (g.dropLatches).rdDepth = g.rdDepth := rfl
@[simp] theorem Group.dropLatches_rdPar (g : Group) : (g.dropLatches).rdPar = g.rdPar := rfl
@[simp] theorem Group.dropLatches_region (g : Group) : (g.dropLatches).region = g.region := rfl
@[simp] theorem Group.dropLatches_rollbacks (g : Group) : (g.dropLatches).rollbacks = g.rollbacks := rfl
@[simp] theorem Group.dropLatches_sig (g : Group) : (g.dropLatches).sig = g.sig := rfl
@[simp] theorem Group.dropLatches_hlr (g : Group) : (g.dropLatches).hlr = g.hlr := rfl
@[simp] theorem Group.dropLatches_hrun (g : Group) : (g.dropLatches).hrun = g.hrun := rfl
@[simp] theorem Group.dropLatches_bundle (g : Group) : (g.dropLatches).bundle = g.bundle := rfl
@[simp] theorem Group.dropLatches_handler (g : Group) : (g.dropLatches).handler = g.handler := rfl
@[simp] theorem Group.dropLatches_pendTraps (g : Group) : (g.dropLatches).pendTraps = g.pendTraps := rfl
@[simp] theorem Group.dropLatches_nb (g : Group) : (g.dropLatches).nb = g.nb := rfl
@[simp] theorem Group.dropLatches_wm (g : Group) : (g.dropLatches).wm = g.wm := rfl
@[simp] theorem Group.dropLatches_batchOpen (g : Group) : (g.dropLatches).batchOpen = g.batchOpen := rfl
@[simp] theorem Group.dropLatches_openStatus (g : Group) : (g.dropLatches).openStatus = g.openStatus := rfl
@[simp] theorem Group.dropLatches_batches (g : Group) : (g.dropLatches).batches = g.batches := rfl
@[simp] theorem Group.dropLatches_interval (g : Group) : (g.dropLatches).interval = g.interval := rfl
@[simp] theorem Group.dropLatches_holder (g : Group) : (g.dropLatches).holder = g.holder := rfl
@[simp] theorem Group.dropLatches_parked (g : Group) : (g.dropLatches).parked = g.parked := rfl
@[simp] theorem Group.dropLatches_wait (g : Group) : (g.dropLatches).wait = g.wait := rfl
@[simp] theorem Group.dropLatches_stall (g : Group) : (g.dropLatches).stall = g.stall := rfl
@[simp] theorem Group.dropLatches_poolHold (g : Group) : (g.dropLatches).poolHold = g.poolHold := rfl
@[simp] theorem Group.dropLatches_rollbackDue (g : Group) : (g.dropLatches).rollbackDue = g.rollbackDue := rfl
@[simp] theorem Group.dropLatches_issued (g : Group) : (g.dropLatches).issued = g.issued := rfl
@[simp] theorem Group.dropLatches_readySince (g : Group) : (g.dropLatches).readySince = g.readySince := rfl
@[simp] theorem Group.dropLatches_lastLoad (g : Group) : (g.dropLatches).lastLoad = g.lastLoad := rfl
@[simp] theorem Group.dropLatches_past (g : Group) : (g.dropLatches).past = g.past := rfl

/-! ### shiftS -/

@[simp] theorem Group.shiftS_wg (g : Group) (x : Word) (w : Option Nat) : (g.shiftS x w).wg = g.wg := rfl
@[simp] theorem Group.shiftS_base (g : Group) (x : Word) (w : Option Nat) : (g.shiftS x w).base = g.base := rfl
@[simp] theorem Group.shiftS_width (g : Group) (x : Word) (w : Option Nat) : (g.shiftS x w).width = g.width := rfl
@[simp] theorem Group.shiftS_stage (g : Group) (x : Word) (w : Option Nat) : (g.shiftS x w).stage = g.stage := rfl
@[simp] theorem Group.shiftS_status (g : Group) (x : Word) (w : Option Nat) : (g.shiftS x w).status = g.status := rfl
@[simp] theorem Group.shiftS_pc (g : Group) (x : Word) (w : Option Nat) : (g.shiftS x w).pc = g.pc := rfl
@[simp] theorem Group.shiftS_v (g : Group) (x : Word) (w : Option Nat) : (g.shiftS x w).v = g.v := rfl
@[simp] theorem Group.shiftS_s (g : Group) (x : Word) (w : Option Nat) : (g.shiftS x w).s = g.s := rfl
@[simp] theorem Group.shiftS_m (g : Group) (x : Word) (w : Option Nat) : (g.shiftS x w).m = g.m := rfl
@[simp] theorem Group.shiftS_flags (g : Group) (x : Word) (w : Option Nat) : (g.shiftS x w).flags = g.flags := rfl
@[simp] theorem Group.shiftS_vk (g : Group) (x : Word) (w : Option Nat) : (g.shiftS x w).vk = g.vk := rfl
@[simp] theorem Group.shiftS_mstk (g : Group) (x : Word) (w : Option Nat) : (g.shiftS x w).mstk = g.mstk := rfl
@[simp] theorem Group.shiftS_rstk (g : Group) (x : Word) (w : Option Nat) : (g.shiftS x w).rstk = g.rstk := rfl
@[simp] theorem Group.shiftS_rdDepth (g : Group) (x : Word) (w : Option Nat) : (g.shiftS x w).rdDepth = g.rdDepth := rfl
@[simp] theorem Group.shiftS_rdPar (g : Group) (x : Word) (w : Option Nat) : (g.shiftS x w).rdPar = g.rdPar := rfl
@[simp] theorem Group.shiftS_region (g : Group) (x : Word) (w : Option Nat) : (g.shiftS x w).region = g.region := rfl
@[simp] theorem Group.shiftS_rollbacks (g : Group) (x : Word) (w : Option Nat) : (g.shiftS x w).rollbacks = g.rollbacks := rfl
@[simp] theorem Group.shiftS_sig (g : Group) (x : Word) (w : Option Nat) : (g.shiftS x w).sig = g.sig := rfl
@[simp] theorem Group.shiftS_hlr (g : Group) (x : Word) (w : Option Nat) : (g.shiftS x w).hlr = g.hlr := rfl
@[simp] theorem Group.shiftS_hrun (g : Group) (x : Word) (w : Option Nat) : (g.shiftS x w).hrun = g.hrun := rfl
@[simp] theorem Group.shiftS_bundle (g : Group) (x : Word) (w : Option Nat) : (g.shiftS x w).bundle = g.bundle := rfl
@[simp] theorem Group.shiftS_handler (g : Group) (x : Word) (w : Option Nat) : (g.shiftS x w).handler = g.handler := rfl
@[simp] theorem Group.shiftS_pendTraps (g : Group) (x : Word) (w : Option Nat) : (g.shiftS x w).pendTraps = g.pendTraps := rfl
@[simp] theorem Group.shiftS_nb (g : Group) (x : Word) (w : Option Nat) : (g.shiftS x w).nb = g.nb := rfl
@[simp] theorem Group.shiftS_wm (g : Group) (x : Word) (w : Option Nat) : (g.shiftS x w).wm = g.wm := rfl
@[simp] theorem Group.shiftS_batchOpen (g : Group) (x : Word) (w : Option Nat) : (g.shiftS x w).batchOpen = g.batchOpen := rfl
@[simp] theorem Group.shiftS_openStatus (g : Group) (x : Word) (w : Option Nat) : (g.shiftS x w).openStatus = g.openStatus := rfl
@[simp] theorem Group.shiftS_batches (g : Group) (x : Word) (w : Option Nat) : (g.shiftS x w).batches = g.batches := rfl
@[simp] theorem Group.shiftS_interval (g : Group) (x : Word) (w : Option Nat) : (g.shiftS x w).interval = g.interval := rfl
@[simp] theorem Group.shiftS_holder (g : Group) (x : Word) (w : Option Nat) : (g.shiftS x w).holder = g.holder := rfl
@[simp] theorem Group.shiftS_parked (g : Group) (x : Word) (w : Option Nat) : (g.shiftS x w).parked = g.parked := rfl
@[simp] theorem Group.shiftS_wait (g : Group) (x : Word) (w : Option Nat) : (g.shiftS x w).wait = g.wait := rfl
@[simp] theorem Group.shiftS_stall (g : Group) (x : Word) (w : Option Nat) : (g.shiftS x w).stall = g.stall := rfl
@[simp] theorem Group.shiftS_poolHold (g : Group) (x : Word) (w : Option Nat) : (g.shiftS x w).poolHold = g.poolHold := rfl
@[simp] theorem Group.shiftS_rollbackDue (g : Group) (x : Word) (w : Option Nat) : (g.shiftS x w).rollbackDue = g.rollbackDue := rfl
@[simp] theorem Group.shiftS_issued (g : Group) (x : Word) (w : Option Nat) : (g.shiftS x w).issued = g.issued := rfl
@[simp] theorem Group.shiftS_readySince (g : Group) (x : Word) (w : Option Nat) : (g.shiftS x w).readySince = g.readySince := rfl
@[simp] theorem Group.shiftS_lastLoad (g : Group) (x : Word) (w : Option Nat) : (g.shiftS x w).lastLoad = g.lastLoad := rfl
@[simp] theorem Group.shiftS_past (g : Group) (x : Word) (w : Option Nat) : (g.shiftS x w).past = g.past := rfl

/-! ### shiftV -/

@[simp] theorem Group.shiftV_wg (g : Group) (n : Nat) (m : Mask) (f : Nat → Word) (w : Option Nat) : (g.shiftV n m f w).wg = g.wg := rfl
@[simp] theorem Group.shiftV_base (g : Group) (n : Nat) (m : Mask) (f : Nat → Word) (w : Option Nat) : (g.shiftV n m f w).base = g.base := rfl
@[simp] theorem Group.shiftV_width (g : Group) (n : Nat) (m : Mask) (f : Nat → Word) (w : Option Nat) : (g.shiftV n m f w).width = g.width := rfl
@[simp] theorem Group.shiftV_stage (g : Group) (n : Nat) (m : Mask) (f : Nat → Word) (w : Option Nat) : (g.shiftV n m f w).stage = g.stage := rfl
@[simp] theorem Group.shiftV_status (g : Group) (n : Nat) (m : Mask) (f : Nat → Word) (w : Option Nat) : (g.shiftV n m f w).status = g.status := rfl
@[simp] theorem Group.shiftV_pc (g : Group) (n : Nat) (m : Mask) (f : Nat → Word) (w : Option Nat) : (g.shiftV n m f w).pc = g.pc := rfl
@[simp] theorem Group.shiftV_v (g : Group) (n : Nat) (m : Mask) (f : Nat → Word) (w : Option Nat) : (g.shiftV n m f w).v = g.v := rfl
@[simp] theorem Group.shiftV_s (g : Group) (n : Nat) (m : Mask) (f : Nat → Word) (w : Option Nat) : (g.shiftV n m f w).s = g.s := rfl
@[simp] theorem Group.shiftV_m (g : Group) (n : Nat) (m : Mask) (f : Nat → Word) (w : Option Nat) : (g.shiftV n m f w).m = g.m := rfl
@[simp] theorem Group.shiftV_flags (g : Group) (n : Nat) (m : Mask) (f : Nat → Word) (w : Option Nat) : (g.shiftV n m f w).flags = g.flags := rfl
@[simp] theorem Group.shiftV_sk (g : Group) (n : Nat) (m : Mask) (f : Nat → Word) (w : Option Nat) : (g.shiftV n m f w).sk = g.sk := rfl
@[simp] theorem Group.shiftV_mstk (g : Group) (n : Nat) (m : Mask) (f : Nat → Word) (w : Option Nat) : (g.shiftV n m f w).mstk = g.mstk := rfl
@[simp] theorem Group.shiftV_rstk (g : Group) (n : Nat) (m : Mask) (f : Nat → Word) (w : Option Nat) : (g.shiftV n m f w).rstk = g.rstk := rfl
@[simp] theorem Group.shiftV_rdDepth (g : Group) (n : Nat) (m : Mask) (f : Nat → Word) (w : Option Nat) : (g.shiftV n m f w).rdDepth = g.rdDepth := rfl
@[simp] theorem Group.shiftV_rdPar (g : Group) (n : Nat) (m : Mask) (f : Nat → Word) (w : Option Nat) : (g.shiftV n m f w).rdPar = g.rdPar := rfl
@[simp] theorem Group.shiftV_region (g : Group) (n : Nat) (m : Mask) (f : Nat → Word) (w : Option Nat) : (g.shiftV n m f w).region = g.region := rfl
@[simp] theorem Group.shiftV_rollbacks (g : Group) (n : Nat) (m : Mask) (f : Nat → Word) (w : Option Nat) : (g.shiftV n m f w).rollbacks = g.rollbacks := rfl
@[simp] theorem Group.shiftV_sig (g : Group) (n : Nat) (m : Mask) (f : Nat → Word) (w : Option Nat) : (g.shiftV n m f w).sig = g.sig := rfl
@[simp] theorem Group.shiftV_hlr (g : Group) (n : Nat) (m : Mask) (f : Nat → Word) (w : Option Nat) : (g.shiftV n m f w).hlr = g.hlr := rfl
@[simp] theorem Group.shiftV_hrun (g : Group) (n : Nat) (m : Mask) (f : Nat → Word) (w : Option Nat) : (g.shiftV n m f w).hrun = g.hrun := rfl
@[simp] theorem Group.shiftV_bundle (g : Group) (n : Nat) (m : Mask) (f : Nat → Word) (w : Option Nat) : (g.shiftV n m f w).bundle = g.bundle := rfl
@[simp] theorem Group.shiftV_handler (g : Group) (n : Nat) (m : Mask) (f : Nat → Word) (w : Option Nat) : (g.shiftV n m f w).handler = g.handler := rfl
@[simp] theorem Group.shiftV_pendTraps (g : Group) (n : Nat) (m : Mask) (f : Nat → Word) (w : Option Nat) : (g.shiftV n m f w).pendTraps = g.pendTraps := rfl
@[simp] theorem Group.shiftV_nb (g : Group) (n : Nat) (m : Mask) (f : Nat → Word) (w : Option Nat) : (g.shiftV n m f w).nb = g.nb := rfl
@[simp] theorem Group.shiftV_wm (g : Group) (n : Nat) (m : Mask) (f : Nat → Word) (w : Option Nat) : (g.shiftV n m f w).wm = g.wm := rfl
@[simp] theorem Group.shiftV_batchOpen (g : Group) (n : Nat) (m : Mask) (f : Nat → Word) (w : Option Nat) : (g.shiftV n m f w).batchOpen = g.batchOpen := rfl
@[simp] theorem Group.shiftV_openStatus (g : Group) (n : Nat) (m : Mask) (f : Nat → Word) (w : Option Nat) : (g.shiftV n m f w).openStatus = g.openStatus := rfl
@[simp] theorem Group.shiftV_batches (g : Group) (n : Nat) (m : Mask) (f : Nat → Word) (w : Option Nat) : (g.shiftV n m f w).batches = g.batches := rfl
@[simp] theorem Group.shiftV_interval (g : Group) (n : Nat) (m : Mask) (f : Nat → Word) (w : Option Nat) : (g.shiftV n m f w).interval = g.interval := rfl
@[simp] theorem Group.shiftV_holder (g : Group) (n : Nat) (m : Mask) (f : Nat → Word) (w : Option Nat) : (g.shiftV n m f w).holder = g.holder := rfl
@[simp] theorem Group.shiftV_parked (g : Group) (n : Nat) (m : Mask) (f : Nat → Word) (w : Option Nat) : (g.shiftV n m f w).parked = g.parked := rfl
@[simp] theorem Group.shiftV_wait (g : Group) (n : Nat) (m : Mask) (f : Nat → Word) (w : Option Nat) : (g.shiftV n m f w).wait = g.wait := rfl
@[simp] theorem Group.shiftV_stall (g : Group) (n : Nat) (m : Mask) (f : Nat → Word) (w : Option Nat) : (g.shiftV n m f w).stall = g.stall := rfl
@[simp] theorem Group.shiftV_poolHold (g : Group) (n : Nat) (m : Mask) (f : Nat → Word) (w : Option Nat) : (g.shiftV n m f w).poolHold = g.poolHold := rfl
@[simp] theorem Group.shiftV_rollbackDue (g : Group) (n : Nat) (m : Mask) (f : Nat → Word) (w : Option Nat) : (g.shiftV n m f w).rollbackDue = g.rollbackDue := rfl
@[simp] theorem Group.shiftV_issued (g : Group) (n : Nat) (m : Mask) (f : Nat → Word) (w : Option Nat) : (g.shiftV n m f w).issued = g.issued := rfl
@[simp] theorem Group.shiftV_readySince (g : Group) (n : Nat) (m : Mask) (f : Nat → Word) (w : Option Nat) : (g.shiftV n m f w).readySince = g.readySince := rfl
@[simp] theorem Group.shiftV_lastLoad (g : Group) (n : Nat) (m : Mask) (f : Nat → Word) (w : Option Nat) : (g.shiftV n m f w).lastLoad = g.lastLoad := rfl
@[simp] theorem Group.shiftV_past (g : Group) (n : Nat) (m : Mask) (f : Nat → Word) (w : Option Nat) : (g.shiftV n m f w).past = g.past := rfl

/-! ### orFlags -/

@[simp] theorem Group.orFlags_wg (g : Group) (m : Mask) (f : Nat → BitVec 6) : (g.orFlags m f).wg = g.wg := rfl
@[simp] theorem Group.orFlags_base (g : Group) (m : Mask) (f : Nat → BitVec 6) : (g.orFlags m f).base = g.base := rfl
@[simp] theorem Group.orFlags_width (g : Group) (m : Mask) (f : Nat → BitVec 6) : (g.orFlags m f).width = g.width := rfl
@[simp] theorem Group.orFlags_stage (g : Group) (m : Mask) (f : Nat → BitVec 6) : (g.orFlags m f).stage = g.stage := rfl
@[simp] theorem Group.orFlags_status (g : Group) (m : Mask) (f : Nat → BitVec 6) : (g.orFlags m f).status = g.status := rfl
@[simp] theorem Group.orFlags_pc (g : Group) (m : Mask) (f : Nat → BitVec 6) : (g.orFlags m f).pc = g.pc := rfl
@[simp] theorem Group.orFlags_v (g : Group) (m : Mask) (f : Nat → BitVec 6) : (g.orFlags m f).v = g.v := rfl
@[simp] theorem Group.orFlags_s (g : Group) (m : Mask) (f : Nat → BitVec 6) : (g.orFlags m f).s = g.s := rfl
@[simp] theorem Group.orFlags_m (g : Group) (m : Mask) (f : Nat → BitVec 6) : (g.orFlags m f).m = g.m := rfl
@[simp] theorem Group.orFlags_vk (g : Group) (m : Mask) (f : Nat → BitVec 6) : (g.orFlags m f).vk = g.vk := rfl
@[simp] theorem Group.orFlags_sk (g : Group) (m : Mask) (f : Nat → BitVec 6) : (g.orFlags m f).sk = g.sk := rfl
@[simp] theorem Group.orFlags_mstk (g : Group) (m : Mask) (f : Nat → BitVec 6) : (g.orFlags m f).mstk = g.mstk := rfl
@[simp] theorem Group.orFlags_rstk (g : Group) (m : Mask) (f : Nat → BitVec 6) : (g.orFlags m f).rstk = g.rstk := rfl
@[simp] theorem Group.orFlags_rdDepth (g : Group) (m : Mask) (f : Nat → BitVec 6) : (g.orFlags m f).rdDepth = g.rdDepth := rfl
@[simp] theorem Group.orFlags_rdPar (g : Group) (m : Mask) (f : Nat → BitVec 6) : (g.orFlags m f).rdPar = g.rdPar := rfl
@[simp] theorem Group.orFlags_region (g : Group) (m : Mask) (f : Nat → BitVec 6) : (g.orFlags m f).region = g.region := rfl
@[simp] theorem Group.orFlags_rollbacks (g : Group) (m : Mask) (f : Nat → BitVec 6) : (g.orFlags m f).rollbacks = g.rollbacks := rfl
@[simp] theorem Group.orFlags_sig (g : Group) (m : Mask) (f : Nat → BitVec 6) : (g.orFlags m f).sig = g.sig := rfl
@[simp] theorem Group.orFlags_hlr (g : Group) (m : Mask) (f : Nat → BitVec 6) : (g.orFlags m f).hlr = g.hlr := rfl
@[simp] theorem Group.orFlags_hrun (g : Group) (m : Mask) (f : Nat → BitVec 6) : (g.orFlags m f).hrun = g.hrun := rfl
@[simp] theorem Group.orFlags_bundle (g : Group) (m : Mask) (f : Nat → BitVec 6) : (g.orFlags m f).bundle = g.bundle := rfl
@[simp] theorem Group.orFlags_handler (g : Group) (m : Mask) (f : Nat → BitVec 6) : (g.orFlags m f).handler = g.handler := rfl
@[simp] theorem Group.orFlags_pendTraps (g : Group) (m : Mask) (f : Nat → BitVec 6) : (g.orFlags m f).pendTraps = g.pendTraps := rfl
@[simp] theorem Group.orFlags_nb (g : Group) (m : Mask) (f : Nat → BitVec 6) : (g.orFlags m f).nb = g.nb := rfl
@[simp] theorem Group.orFlags_wm (g : Group) (m : Mask) (f : Nat → BitVec 6) : (g.orFlags m f).wm = g.wm := rfl
@[simp] theorem Group.orFlags_batchOpen (g : Group) (m : Mask) (f : Nat → BitVec 6) : (g.orFlags m f).batchOpen = g.batchOpen := rfl
@[simp] theorem Group.orFlags_openStatus (g : Group) (m : Mask) (f : Nat → BitVec 6) : (g.orFlags m f).openStatus = g.openStatus := rfl
@[simp] theorem Group.orFlags_batches (g : Group) (m : Mask) (f : Nat → BitVec 6) : (g.orFlags m f).batches = g.batches := rfl
@[simp] theorem Group.orFlags_interval (g : Group) (m : Mask) (f : Nat → BitVec 6) : (g.orFlags m f).interval = g.interval := rfl
@[simp] theorem Group.orFlags_holder (g : Group) (m : Mask) (f : Nat → BitVec 6) : (g.orFlags m f).holder = g.holder := rfl
@[simp] theorem Group.orFlags_parked (g : Group) (m : Mask) (f : Nat → BitVec 6) : (g.orFlags m f).parked = g.parked := rfl
@[simp] theorem Group.orFlags_wait (g : Group) (m : Mask) (f : Nat → BitVec 6) : (g.orFlags m f).wait = g.wait := rfl
@[simp] theorem Group.orFlags_stall (g : Group) (m : Mask) (f : Nat → BitVec 6) : (g.orFlags m f).stall = g.stall := rfl
@[simp] theorem Group.orFlags_poolHold (g : Group) (m : Mask) (f : Nat → BitVec 6) : (g.orFlags m f).poolHold = g.poolHold := rfl
@[simp] theorem Group.orFlags_rollbackDue (g : Group) (m : Mask) (f : Nat → BitVec 6) : (g.orFlags m f).rollbackDue = g.rollbackDue := rfl
@[simp] theorem Group.orFlags_issued (g : Group) (m : Mask) (f : Nat → BitVec 6) : (g.orFlags m f).issued = g.issued := rfl
@[simp] theorem Group.orFlags_readySince (g : Group) (m : Mask) (f : Nat → BitVec 6) : (g.orFlags m f).readySince = g.readySince := rfl
@[simp] theorem Group.orFlags_lastLoad (g : Group) (m : Mask) (f : Nat → BitVec 6) : (g.orFlags m f).lastLoad = g.lastLoad := rfl
@[simp] theorem Group.orFlags_past (g : Group) (m : Mask) (f : Nat → BitVec 6) : (g.orFlags m f).past = g.past := rfl

end Sys2Proof.Machine
end

