-- ==== Sys2Proof/Laws/Regs.lean ====
section
/-! SUPPORT. The laws of register access: what a write to a name leaves for a reader of it and of every other name. -/

namespace Sys2Proof.Machine

/-! ### Parts of the state -/

@[simp] theorem State.group_setGroup_same (s : State) (g : Nat) (v : Group) : (s.setGroup g v).group g = v := by
  simp [State.group, State.setGroup]

theorem State.group_setGroup_ne (s : State) {g h : Nat} (v : Group) (hn : h ≠ g) : (s.setGroup g v).group h = s.group h := by
  simp [State.group, State.setGroup, Fmap.get_insert_ne _ _ _ hn]

@[simp] theorem State.group_modGroup_same (s : State) (g : Nat) (f : Group → Group) :
    (s.modGroup g f).group g = f (s.group g) := by
  simp [State.modGroup]

theorem State.group_modGroup_ne (s : State) {g h : Nat} (f : Group → Group) (hn : h ≠ g) :
    (s.modGroup g f).group h = s.group h := by
  simp [State.modGroup, State.group_setGroup_ne _ _ hn]

@[simp] theorem State.modGroup_modGroup (s : State) (g : Nat) (f f' : Group → Group) :
    (s.modGroup g f).modGroup g f' = s.modGroup g (fun x => f' (f x)) := by
  show (s.modGroup g f).setGroup g (f' ((s.modGroup g f).group g)) = _
  rw [State.group_modGroup_same]
  simp [State.modGroup, State.setGroup]

@[simp] theorem State.setGroup_setGroup (s : State) (g : Nat) (v v' : Group) :
    (s.setGroup g v).setGroup g v' = s.setGroup g v' := by
  simp [State.setGroup]

@[simp] theorem State.modGroup_setGroup (s : State) (g : Nat) (v : Group) (f : Group → Group) :
    (s.setGroup g v).modGroup g f = s.setGroup g (f v) := by
  simp [State.modGroup]

theorem State.modGroup_eq (s : State) (g : Nat) (f : Group → Group) : s.modGroup g f = s.setGroup g (f (s.group g)) := rfl

@[simp] theorem State.group_addPend (s : State) (p : Pend) (g : Nat) : (s.addPend p).group g = s.group g := rfl

@[simp] theorem State.group_storeCells (s : State) (ws : List Host.Cell) (g : Nat) :
    (s.storeCells ws).group g = s.group g := rfl

@[simp] theorem State.core_setGroup (s : State) (g c : Nat) (v : Group) : (s.setGroup g v).core c = s.core c := rfl
@[simp] theorem State.wg_setGroup (s : State) (g k : Nat) (v : Group) : (s.setGroup g v).wg k = s.wg k := rfl
@[simp] theorem State.ctx_setGroup (s : State) (g k : Nat) (v : Group) : (s.setGroup g v).ctx k = s.ctx k := rfl
@[simp] theorem State.die_setGroup (s : State) (g d : Nat) (v : Group) : (s.setGroup g v).die d = s.die d := rfl

/-- A change of a group that leaves it in its workgroup leaves it on its core. -/
theorem State.coreOf_setGroup (s : State) (g h : Nat) (v : Group) (hv : v.wg = (s.group g).wg) :
    (s.setGroup g v).coreOf h = s.coreOf h := by
  by_cases hn : h = g
  · subst hn; simp [State.coreOf, State.wgOf, hv]
  · simp [State.coreOf, State.wgOf, State.group_setGroup_ne _ _ hn]

/-! ### Fresh numbers -/

/-- As many numbers are found as are asked for. -/
theorem freshIds_length (used : List Nat) (n : Nat) : (freshIds used n).length = n := by
  unfold freshIds
  rw [List.length_take, Nat.min_eq_left]
  have h : ∀ (m : Nat) (u : List Nat), m ≤ ((List.range m).filter (fun i => !u.contains i)).length + u.length := by
    intro m u
    have e : (List.range m).length ≤ ((List.range m).filter (fun i => !u.contains i)).length + ((List.range m).filter (fun i => u.contains i)).length := by
      rw [← List.length_append]
      refine (List.Perm.length_eq ?_).le
      have := List.filter_append_perm (fun i => u.contains i) (List.range m)
      refine this.symm.trans ?_
      refine (List.perm_append_comm).trans (List.Perm.append_right _ ?_)
      exact List.Perm.of_eq (List.filter_congr (fun x _ => by simp))
    have f : ((List.range m).filter (fun i => u.contains i)).length ≤ u.length := by
      refine List.Subperm.length_le ?_
      exact List.Nodup.subperm (List.nodup_range.filter _) (fun x hx => by simpa using (List.mem_filter.1 hx).2)
    simp only [List.length_range] at e
    omega
  have := h (used.length + n) used
  omega

/-! ### Scalar names -/

theorem Group.find_writeS (x : Group) (n k : Nat) (v : Word) (id : Nat) (fut : Option Nat) :
    Fmap.find (x.writeS n v id fut).s k = if k = n then some ⟨id, v, fut, false, x.lastLoad⟩ else Fmap.find x.s k := by
  simp [Group.writeS, Fmap.find_insert]

theorem Group.readS_writeS (x : Group) (n k : Nat) (v : Word) (id : Nat) (fut : Option Nat) :
    (x.writeS n v id fut).readS k = if k = n then v else x.readS k := by
  unfold Group.readS
  rw [Group.find_writeS]
  by_cases h : k = n <;> simp [h]

theorem State.putS_eq (s : State) (g n : Nat) (v : Word) :
    s.putS g n v = s.setGroup g ((s.group g).writeS n v ((freshIds (s.usedEntries (s.coreOf g)) 1).getD 0 0) none) := rfl

/-! ### Vector names -/

/-- The keys of different names differ. -/
theorem vkey_ne {n k q r : Nat} (h : n ≠ k) (hq : q < 16) (hr : r < 16) : vkey n q ≠ vkey k r := by
  unfold vkey; omega

theorem vkey_div {n q : Nat} (hq : q < 16) : vkey n q / 16 = n := by unfold vkey; omega

/-- A mask selects no lane of a quarter beyond the sixteenth. -/
theorem mem_hitQuarters {w : Nat} {m : Mask} {q : Nat} :
    q ∈ hitQuarters w m ↔ q < w / 8 ∧ ∃ l, l < 8 ∧ m.getLsbD (8 * q + l) = true := by
  simp [hitQuarters]

theorem hitQuarters_lt {w : Nat} {m : Mask} {q : Nat} (h : q ∈ hitQuarters w m) : q < 16 := by
  obtain ⟨_, l, _, hl⟩ := mem_hitQuarters.1 h
  by_contra hq
  rw [BitVec.getLsbD_of_ge m (8 * q + l) (by omega)] at hl
  exact Bool.false_ne_true hl

theorem hitQuarters_nodup (w : Nat) (m : Mask) : (hitQuarters w m).Nodup := List.nodup_range.filter _

/-- What slices put at quarters of a name leave at other keys. -/
theorem find_putSlices_ne {n : Nat} {val : Nat → List Word} {bad : Nat → Byte} {dep : Nat} (l : List (Nat × Nat)) (v : Fmap Slice) (k : Nat)
    (h : ∀ p ∈ l, k ≠ vkey n p.1) :
    Fmap.find (l.foldl (fun v p => Fmap.insert v (vkey n p.1) ⟨p.2, val p.1, bad p.1, dep⟩) v) k = Fmap.find v k := by
  induction l generalizing v with
  | nil => rfl
  | cons a t ih =>
    rw [List.foldl_cons, ih _ (fun p hp => h p (List.mem_cons_of_mem _ hp)), Fmap.find_insert_ne _ _ (h a List.mem_cons_self)]

/-- What slices put at quarters of a name leave at those quarters. -/
theorem find_putSlices_mem {n : Nat} {val : Nat → List Word} {bad : Nat → Byte} {dep : Nat} (l : List (Nat × Nat)) (v : Fmap Slice) (q : Nat)
    (h : q ∈ l.map Prod.fst) :
    ∃ id, (q, id) ∈ l ∧ Fmap.find (l.foldl (fun v p => Fmap.insert v (vkey n p.1) ⟨p.2, val p.1, bad p.1, dep⟩) v) (vkey n q) =
      some ⟨id, val q, bad q, dep⟩ := by
  induction l generalizing v with
  | nil => simp at h
  | cons a t ih =>
    rw [List.foldl_cons]
    by_cases ht : q ∈ t.map Prod.fst
    · obtain ⟨id, hm, he⟩ := ih (v := Fmap.insert v (vkey n a.1) ⟨a.2, val a.1, bad a.1, dep⟩) ht
      exact ⟨id, List.mem_cons_of_mem _ hm, he⟩
    · have hq : q = a.1 := by
        rcases List.mem_cons.1 h with h | h
        · exact h
        · exact absurd h ht
      refine ⟨a.2, by rw [hq]; exact List.mem_cons_self, ?_⟩
      rw [find_putSlices_ne, hq, Fmap.find_insert_same]
      intro p hp he
      have : q = p.1 := by unfold vkey at he; omega
      exact ht (this ▸ List.mem_map_of_mem hp)

/-- A write to vector name `n` leaves every key of another name. -/
theorem Group.find_writeV_ne (x : Group) (n : Nat) (m : Mask) (f : Nat → Word) (ids : List Nat) (k : Nat) (h : k / 16 ≠ n) :
    Fmap.find (x.writeV n m f ids).v k = Fmap.find x.v k := by
  refine find_putSlices_ne _ _ _ (fun p hp he => h ?_)
  rw [he, vkey_div (hitQuarters_lt (List.of_mem_zip hp).1)]

/-- A write to vector name `n` leaves the quarters in which the mask selects no lane. -/
theorem Group.find_writeV_out (x : Group) (n : Nat) (m : Mask) (f : Nat → Word) (ids : List Nat) (q : Nat)
    (h : q ∉ hitQuarters x.width m) :
    Fmap.find (x.writeV n m f ids).v (vkey n q) = Fmap.find x.v (vkey n q) := by
  refine find_putSlices_ne _ _ _ (fun p hp he => h ?_)
  have : q = p.1 := by unfold vkey at he; omega
  exact this ▸ (List.of_mem_zip hp).1

/-- A write to vector name `n` gives each quarter with an executing lane a new slice. -/
theorem Group.find_writeV_in (x : Group) (n : Nat) (m : Mask) (f : Nat → Word) (ids : List Nat) (q : Nat)
    (h : q ∈ hitQuarters x.width m) (hl : (hitQuarters x.width m).length ≤ ids.length) :
    ∃ id, id ∈ ids ∧ Fmap.find (x.writeV n m f ids).v (vkey n q) = some ⟨id, x.quarterVal n m f q, x.quarterBad n m q, x.lastLoad⟩ := by
  obtain ⟨id, hm, he⟩ := find_putSlices_mem (n := n) (val := x.quarterVal n m f) (bad := x.quarterBad n m) (dep := x.lastLoad)
    ((hitQuarters x.width m).zip ids) x.v q (by rw [List.map_fst_zip hl]; exact h)
  exact ⟨id, (List.of_mem_zip hm).2, he⟩

/-- Lane `l` of a quarter rewritten. -/
theorem quarterVal_getD (x : Group) (n : Nat) (m : Mask) (f : Nat → Word) (l : Nat) :
    (x.quarterVal n m f (l / 8)).getD (l % 8) 0 = if m.getLsbD l then f l else x.readV n l := by
  have hl : l % 8 < 8 := Nat.mod_lt _ (by omega)
  have he : 8 * (l / 8) + l % 8 = l := by omega
  simp [Group.quarterVal, hl, he]

/-- A write to a vector name is read back in executing lanes, and the other lanes keep their values (R55). -/
theorem Group.readV_writeV_same (x : Group) (n : Nat) (m : Mask) (f : Nat → Word) (ids : List Nat) (l : Nat)
    (hl : l / 8 < x.width / 8) (hi : (hitQuarters x.width m).length ≤ ids.length) :
    (x.writeV n m f ids).readV n l = if m.getLsbD l then f l else x.readV n l := by
  by_cases hq : l / 8 ∈ hitQuarters x.width m
  · obtain ⟨id, _, he⟩ := x.find_writeV_in n m f ids _ hq hi
    conv => lhs; unfold Group.readV
    rw [he]
    exact quarterVal_getD x n m f l
  · have hm : m.getLsbD l = false := by
      by_contra h
      refine hq (mem_hitQuarters.2 ⟨hl, l % 8, by omega, ?_⟩)
      have he : 8 * (l / 8) + l % 8 = l := by omega
      simpa [he] using h
    unfold Group.readV
    rw [x.find_writeV_out n m f ids _ hq]
    simp [hm]

/-- A write to a vector name leaves every other name. -/
theorem Group.readV_writeV_ne (x : Group) {n k : Nat} (m : Mask) (f : Nat → Word) (ids : List Nat) (l : Nat) (hn : k ≠ n)
    (hl : l < 128) : (x.writeV n m f ids).readV k l = x.readV k l := by
  unfold Group.readV
  rw [x.find_writeV_ne n m f ids _ (by rw [vkey_div (by omega)]; exact hn)]

/-! ### Flags -/

theorem mem_lanesOf {m : Mask} {l : Nat} : l ∈ lanesOf m ↔ m.getLsbD l = true := by
  simp only [lanesOf, List.mem_filter, List.mem_range, and_iff_right_iff_imp]
  intro h
  by_contra hl
  rw [BitVec.getLsbD_of_ge m l (by omega)] at h
  exact Bool.false_ne_true h

theorem lanesOf_nodup (m : Mask) : (lanesOf m).Nodup := List.nodup_range.filter _

theorem get_orInto (l : List Nat) (fl : Fmap (BitVec 6)) (f : Nat → BitVec 6) (k : Nat) (hn : l.Nodup) :
    Fmap.get 0 (l.foldl (fun fl l => Fmap.put 0 fl l (Fmap.get 0 fl l ||| f l)) fl) k =
      if k ∈ l then Fmap.get 0 fl k ||| f k else Fmap.get 0 fl k := by
  induction l generalizing fl with
  | nil => simp
  | cons a t ih =>
    have ha := List.nodup_cons.1 hn
    rw [List.foldl_cons, ih _ ha.2]
    by_cases hk : k = a
    · subst hk; simp [ha.1, Fmap.get_put]
    · simp [hk, Fmap.get_put]

/-- Flags are ORed into the executing lanes and no others (R80). -/
theorem Group.flag_orFlags (x : Group) (m : Mask) (f : Nat → BitVec 6) (l : Nat) :
    (x.orFlags m f).flag l = if m.getLsbD l then x.flag l ||| f l else x.flag l := by
  unfold Group.flag Group.orFlags
  rw [get_orInto _ _ _ _ (lanesOf_nodup m)]
  simp only [mem_lanesOf]

/-! ### Masks -/

theorem Group.mask_setMask (x : Group) (k j : Nat) (v : Mask) :
    (x.setMask k v).mask j = if j = 0 then fullMask x.width else if j = k then v &&& fullMask x.width else x.mask j := by
  unfold Group.mask Group.setMask
  by_cases h : j = 0
  · simp [h]
  · simp only [h, if_false, Fmap.get_insert]

/-! ### Names freed -/

/-- What a scalar name maps to once registers are freed after their last read (R58). -/
theorem Group.find_freeRegs_s (x : Group) (l : List (Nat × Nat)) (n : Nat) :
    Fmap.find (x.freeRegs l).s n = if (0, n) ∈ l then none else Fmap.find x.s n := by
  unfold Group.freeRegs
  induction l generalizing x with
  | nil => simp
  | cons a t ih =>
    rw [List.foldl_cons, ih]
    obtain ⟨c, r⟩ := a
    rcases c with _ | _ | c
    · simp only [Group.freeReg, Group.freeS, Fmap.find_erase, List.mem_cons, Prod.mk.injEq, true_and]
      by_cases h : n = r <;> simp [h]
    · simp [Group.freeReg, Group.freeV]
    · simp [Group.freeReg]

/-- What a vector key maps to once registers are freed after their last read (R58, R266). -/
theorem Group.find_freeRegs_v (x : Group) (l : List (Nat × Nat)) (hl : ∀ r ∈ l, r.1 < 3) (k : Nat) :
    Fmap.find (x.freeRegs l).v k =
      if (1, k / 16) ∈ l ∨ 64 ≤ k / 16 ∧ (2, (k / 16 - 64) / 32) ∈ l then none else Fmap.find x.v k := by
  unfold Group.freeRegs
  induction l generalizing x with
  | nil => simp
  | cons a t ih =>
    rw [List.foldl_cons, ih _ (fun r hr => hl r (List.mem_cons_of_mem _ hr))]
    obtain ⟨c, r⟩ := a
    have hc : c < 3 := hl (c, r) List.mem_cons_self
    rcases c with _ | _ | c
    · simp [Group.freeReg, Group.freeS]
    · simp only [Group.freeReg, Group.freeV]
      rw [Fmap.find_select x.v (fun k => k / 16 != r)]
      by_cases h : k / 16 = r <;> simp [h]
    · have : c = 0 := by omega
      subst this
      simp only [Group.freeReg]
      rw [Fmap.find_select x.v (fun k => !(decide (64 + 32 * r ≤ k / 16) && decide (k / 16 < 96 + 32 * r)))]
      by_cases h : 64 ≤ k / 16 ∧ (k / 16 - 64) / 32 = r
      · have h1 : 64 + 32 * r ≤ k / 16 ∧ k / 16 < 96 + 32 * r := by omega
        simp [h.1, h.2, h1.1, h1.2]
      · have h1 : ¬ (64 + 32 * r ≤ k / 16 ∧ k / 16 < 96 + 32 * r) := by omega
        have h3 : (decide (64 + 32 * r ≤ k / 16) && decide (k / 16 < 96 + 32 * r)) = false := by
          simpa using fun a => by simpa using not_and.1 h1 a
        have h4 : (64 ≤ k / 16 ∧ (2, (k / 16 - 64) / 32) ∈ ((2, r) :: t)) ↔ (64 ≤ k / 16 ∧ (2, (k / 16 - 64) / 32) ∈ t) := by
          refine and_congr_right fun h64 => ?_
          simp only [List.mem_cons, Prod.mk.injEq, true_and, or_iff_right_iff_imp]
          exact fun he => absurd ⟨h64, he⟩ h
        simp only [h3, Bool.not_false, if_true, h4]
        simp

end Sys2Proof.Machine
end

