-- ==== Sys2Proof/Laws/Issue.lean ====
section
/-! SUPPORT. The laws of issue: an instruction that passes its checks does what its body says, once; and what the end of an
instruction leaves of its group. -/

namespace Sys2Proof.Machine

@[simp] theorem State.seen_cur (s : State) (i : Instr) : (s.seen i).cur = s.cur := rfl

theorem State.reader_eq (s : State) (i : Instr) : (s.seen i).group s.cur = s.reader i := rfl

/-- The checks at issue are passed. -/
theorem Ready.gate {i : Instr} {s : State} (h : Ready i s) : s.gate s.cur (Instr.info i) = .go := by
  have hc : classOk (Instr.info i).cls (s.core (s.coreOf s.cur)).exchange (s.ctx (s.ctxOf s.cur)).phased = true := h.class_
  have hl : encodingOk (Instr.info i) (s.group s.cur) = true := h.legal
  have hk : (Instr.info i).dsts.any (fun o => s.dstBusy s.cur o ((s.group s.cur).execMask (Instr.info i).pred)) = false := h.kept
  have ha : (Instr.info i).srcs.any (fun o => o.isLatch && !(o.latch (s.group s.cur)).valid) = false := h.latches
  have hr : ((Instr.info i).idemTrap && (s.group s.cur).region.isSome) = false := h.region
  have ht : ((Instr.info i).reads (s.group s.cur)).any (fun o => s.srcBusy s.cur o) = false := h.there
  simp only [State.gate, hl, hc, ht, hk, ha, hr, Bool.not_true, Bool.false_eq_true, Bool.or_self, if_false]

theorem Ready.sound' {i : Instr} {s : State} (h : Ready i s) : ((s.seen i).group s.cur).badReads (Instr.info i) = false := h.sound

/-- A body that ends with its effect done. -/
theorem issue_done {i : Instr} {s s2 : State} {body : State → Body} {pc : Dword} (h : Ready i s)
    (hb : body (s.seen i) = .done s2 pc) :
    issue (Instr.info i) body s = .next (s2.finish s.cur (Instr.info i) ((s.reader i).execMask (Instr.info i).pred) pc) := by
  have hb' : body (s.resolveReads s.cur (Instr.info i)) = .done s2 pc := hb
  have hs : ((s.resolveReads s.cur (Instr.info i)).group s.cur).badReads (Instr.info i) = false := h.sound
  simp only [issue, h.gate, hb', hs, Bool.false_eq_true, if_false]
  rfl

/-- A body that ends with a taken transfer. -/
theorem issue_jump {i : Instr} {s s2 : State} {body : State → Body} {pc : Dword} (h : Ready i s)
    (hb : body (s.seen i) = .jump s2 pc) :
    issue (Instr.info i) body s =
      .next ((s2.finish s.cur (Instr.info i) ((s.reader i).execMask (Instr.info i).pred) pc).modGroup s.cur
        (fun x => { x with hlr := [] })) := by
  have hb' : body (s.resolveReads s.cur (Instr.info i)) = .jump s2 pc := hb
  have hs : ((s.resolveReads s.cur (Instr.info i)).group s.cur).badReads (Instr.info i) = false := h.sound
  simp only [issue, h.gate, hb', hs, Bool.false_eq_true, if_false]
  rfl

/-- A body that leaves the group waiting, split or ended. -/
theorem issue_left {i : Instr} {s s2 : State} {body : State → Body} (h : Ready i s) (hb : body (s.seen i) = .left s2) :
    issue (Instr.info i) body s = .next s2 := by
  have hb' : body (s.resolveReads s.cur (Instr.info i)) = .left s2 := hb
  have hs : ((s.resolveReads s.cur (Instr.info i)).group s.cur).badReads (Instr.info i) = false := h.sound
  simp only [issue, h.gate, hb', hs, Bool.false_eq_true, if_false]

/-- A body that traps. -/
theorem issue_trap {i : Instr} {s : State} {body : State → Body} {t : TrapInfo} (h : Ready i s)
    (hb : body (s.seen i) = .trap t) : issue (Instr.info i) body s = .next ((s.seen i).preciseTrap s.cur t) := by
  have hb' : body (s.resolveReads s.cur (Instr.info i)) = .trap t := hb
  simp only [issue, h.gate, hb']
  rfl

/-- A body that stalls. -/
theorem issue_stall {i : Instr} {s s2 : State} {body : State → Body} {r : Stall} (h : Ready i s)
    (hb : body (s.seen i) = .stall s2 r) :
    issue (Instr.info i) body s = .next (s2.modGroup s.cur (fun x => { x with stall := some r })) := by
  have hb' : body (s.resolveReads s.cur (Instr.info i)) = .stall s2 r := hb
  simp only [issue, h.gate, hb']

/-- Everything that an instruction proper can do: a trap or a stall at the checks, a trap, a stall or a wait of its own, an
uncorrectable error in what it read, or its effect and its end. -/
theorem issue_cases (n : Info) (body : State → Body) (s t : State) (h : issue n body s = .next t) :
    (∃ r, s.gate s.cur n = .trap r ∧ t = s.preciseTrap s.cur { trap := r }) ∨
    (∃ r, s.gate s.cur n = .stall r ∧ t = s.modGroup s.cur (fun x => { x with stall := some r })) ∨
    s.gate s.cur n = .go ∧
      let u := s.resolveReads s.cur n
      ((∃ r, body u = .trap r ∧ t = u.preciseTrap s.cur r) ∨
       (∃ v r, body u = .stall v r ∧ t = v.modGroup s.cur (fun x => { x with stall := some r })) ∨
       t = u.uncorrectable s.cur 2 0 ∨ body u = .left t ∨
       (∃ v pc, body u = .done v pc ∧ t = v.finish s.cur n ((u.group s.cur).execMask n.pred) pc) ∨
       ∃ v pc, body u = .jump v pc ∧
         t = (v.finish s.cur n ((u.group s.cur).execMask n.pred) pc).modGroup s.cur (fun x => { x with hlr := [] })) := by
  simp only [issue] at h
  split at h
  · rename_i r hg; cases h; exact .inl ⟨r, hg, rfl⟩
  · rename_i r hg; cases h; exact .inr (.inl ⟨r, hg, rfl⟩)
  · rename_i hg
    refine .inr (.inr ⟨hg, ?_⟩)
    split at h
    · rename_i r hb; cases h; exact .inl ⟨r, hb, rfl⟩
    · rename_i v r hb; cases h; exact .inr (.inl ⟨v, r, hb, rfl⟩)
    · rename_i v hb
      cases h
      split
      · exact .inr (.inr (.inl rfl))
      · exact .inr (.inr (.inr (.inl hb)))
    · rename_i v pc hb
      cases h
      split
      · exact .inr (.inr (.inl rfl))
      · exact .inr (.inr (.inr (.inr (.inl ⟨v, pc, hb, rfl⟩))))
    · rename_i v pc hb
      cases h
      split
      · exact .inr (.inr (.inl rfl))
      · exact .inr (.inr (.inr (.inr (.inr ⟨v, pc, hb, rfl⟩))))

/-- An instruction proper always answers a next state. -/
theorem issue_answers (n : Info) (body : State → Body) (s : State) : ∃ t, issue n body s = .next t := by
  simp only [issue]
  split
  · exact ⟨_, rfl⟩
  · exact ⟨_, rfl⟩
  · split <;> exact ⟨_, rfl⟩

/-- The room is there. -/
theorem withRoom_of {s : State} {nv ns : Nat} (k : Body) (h : s.room (s.group s.cur).wg nv ns = true) :
    withRoom s nv ns k = k := by simp [withRoom, h]

/-- What the body of an instruction may do to its group: what it writes, and what it leaves as in `x` or in `z`. -/
structure Effect (x z y : Group) (w : Writes) : Prop where
  pc : y.pc = x.pc
  sig : y.sig = x.sig
  hlr : y.hlr = x.hlr
  width : y.width = x.width
  scalars : ∀ n, n ∉ w.s → Fmap.find y.s n = Fmap.find x.s n
  vectors : ∀ k, k / 16 ∉ w.v → Fmap.find y.v k = Fmap.find x.v k
  masks : ∀ k, k ∉ w.masks → y.mask k = z.mask k
  flags : w.flags = false → y.flags = z.flags
  sk : w.sk = false → y.sk = z.sk
  vk : w.vk = false → y.vk = z.vk
  rest : { y with bundle := none, stall := none } =
    { z with pc := y.pc, sig := y.sig, hlr := y.hlr, s := y.s, v := y.v, m := y.m, flags := y.flags, sk := y.sk
             vk := y.vk, bundle := none, stall := none }

theorem Group.lastReads_congr {x y : Group} (n : Info) (hh : y.hlr = x.hlr) (hw : y.width = x.width) :
    y.lastReads n = x.lastReads n := by
  simp only [Group.lastReads, hh, hw]

theorem Group.lastReads_lt (x : Group) (n : Info) : ∀ r ∈ x.lastReads n, r.1 < 3 := by
  intro r hr
  simp only [Group.lastReads] at hr
  split at hr
  · simp at hr
  · obtain ⟨o, _, ho⟩ := List.mem_flatMap.1 hr
    obtain ⟨i, _, rfl⟩ := List.mem_map.1 ho
    cases o.file <;> simp [RFile.code]

/-- Registers freed change nothing but the maps of names. -/
theorem Group.freeRegs_eq (x : Group) (l : List (Nat × Nat)) :
    x.freeRegs l = { x with s := (x.freeRegs l).s, v := (x.freeRegs l).v } := by
  unfold Group.freeRegs
  induction l generalizing x with
  | nil => rfl
  | cons a t ih =>
    rw [List.foldl_cons, ih]
    obtain ⟨c, r⟩ := a
    rcases c with _ | _ | c <;> rfl

/-- The end of an instruction whose body had an `Effect`. -/
theorem Effect.ran {i : Instr} {x z y : Group} {w : Writes} (h : Effect x z y w) (pc : Dword) :
    Ran i x z ((y.freeRegs (y.lastReads (Instr.info i))).completed (Instr.info i).word (x.execMask (Instr.info i).pred) pc) pc
      false w := by
  have hl := Group.lastReads_congr (Instr.info i) h.hlr h.width
  have hf := Group.freeRegs_eq y (x.lastReads (Instr.info i))
  have hmask : ∀ k, ((y.freeRegs (x.lastReads (Instr.info i))).completed (Instr.info i).word
      (x.execMask (Instr.info i).pred) pc).mask k = y.mask k := by
    intro k; rw [hf]; rfl
  rw [hl]
  constructor
  · rfl
  · rw [hf]; simp only [Group.completed]; rw [h.sig]
  · rw [hf]; simp only [Group.completed, true_and]; rw [h.pc, h.hlr]
  · intro n hn
    show Fmap.find (y.freeRegs _).s n = _
    rw [Group.find_freeRegs_s, h.scalars n hn]
  · intro k hk
    show Fmap.find (y.freeRegs _).v k = _
    rw [Group.find_freeRegs_v _ _ (x.lastReads_lt _), h.vectors k hk]
  · intro k hk; rw [hmask, h.masks k hk]
  · intro hw; rw [hf]; exact h.flags hw
  · intro hw; rw [hf]; exact h.sk hw
  · intro hw; rw [hf]; exact h.vk hw
  · rw [hf]
    have hr := h.rest
    simp only [Group.mk.injEq, Group.completed] at hr ⊢
    simpa using hr

/-- The end of an instruction whose body was a transfer. -/
theorem Effect.ran_jump {i : Instr} {x z y : Group} {w : Writes} (h : Effect x z y w) (pc : Dword) :
    Ran i x z { (y.freeRegs (y.lastReads (Instr.info i))).completed (Instr.info i).word (x.execMask (Instr.info i).pred) pc with
      hlr := [] } pc true w := by
  have r := h.ran (i := i) pc
  constructor
  · exact r.goesOn
  · exact r.sig
  · simp
  · exact r.scalars
  · exact r.vectors
  · exact r.masks
  · exact r.flags
  · exact r.sk
  · exact r.vk
  · exact congrArg (fun g : Group => { g with hlr := [] }) r.rest

/-- An instruction whose body ends with its effect done. -/
theorem does_of_done {i : Instr} {s s2 v : State} {z : Group} {body : State → Body} {pc : Dword} {w : Writes}
    (hr : Ready i s) (he : exec i s = issue (Instr.info i) body s) (hb : body (s.seen i) = .done s2 pc)
    (hv : { s2 with groups := [] } = { v with groups := [] }) (ho : ∀ h, h ≠ s.cur → s2.group h = s.group h)
    (hg : Effect (s.reader i) z (s2.group s.cur) w) :
    Does i s v z pc false w (s2.finish s.cur (Instr.info i) ((s.reader i).execMask (Instr.info i).pred) pc) := by
  constructor
  · rw [he, issue_done hr hb]
  · simp only [State.mk.injEq] at hv
    simp only [State.finish, State.modGroup, State.setGroup, State.mk.injEq, true_and]
    simpa using hv
  · intro h hn
    rw [State.finish, State.group_modGroup_ne _ _ hn, ho h hn]
  · rw [State.finish, State.group_modGroup_same]
    exact hg.ran pc

/-- An instruction whose body ends with a taken transfer. -/
theorem does_of_jump {i : Instr} {s s2 v : State} {z : Group} {body : State → Body} {pc : Dword} {w : Writes}
    (hr : Ready i s) (he : exec i s = issue (Instr.info i) body s) (hb : body (s.seen i) = .jump s2 pc)
    (hv : { s2 with groups := [] } = { v with groups := [] }) (ho : ∀ h, h ≠ s.cur → s2.group h = s.group h)
    (hg : Effect (s.reader i) z (s2.group s.cur) w) :
    Does i s v z pc true w ((s2.finish s.cur (Instr.info i) ((s.reader i).execMask (Instr.info i).pred) pc).modGroup s.cur
      (fun x => { x with hlr := [] })) := by
  constructor
  · rw [he, issue_jump hr hb]
  · simp only [State.mk.injEq] at hv
    simp only [State.finish, State.modGroup, State.setGroup, State.mk.injEq, true_and]
    simpa using hv
  · intro h hn
    rw [State.group_modGroup_ne _ _ hn, State.finish, State.group_modGroup_ne _ _ hn, ho h hn]
  · rw [State.group_modGroup_same, State.finish, State.group_modGroup_same]
    exact hg.ran_jump pc

/-- Reading futures changes the issuing group alone. -/
theorem State.seen_group_ne (s : State) (i : Instr) {h : Nat} (hn : h ≠ s.cur) : (s.seen i).group h = s.group h :=
  State.group_modGroup_ne _ _ hn

theorem Group.resolve_eq (x : Group) (done : Fmap Word) (n : Nat) : x.resolve done n = { x with s := (x.resolve done n).s } := by
  unfold Group.resolve
  split
  · split <;> rfl
  · rfl

/-- Reading futures changes nothing of the group but what its future-bound names map to. -/
theorem State.reader_rest (s : State) (i : Instr) : s.reader i = { s.me with s := (s.reader i).s } := by
  have h1 : ∀ (l : List Nat) (o : Nat) (x : Group) (d : Fmap Word), l.foldl (fun x i => x.resolve d (o + i)) x =
      { x with s := (l.foldl (fun x i => x.resolve d (o + i)) x).s } := by
    intro l o
    induction l with
    | nil => intros; rfl
    | cons a t ih => intro x d; rw [List.foldl_cons, ih, Group.resolve_eq]
  have h2 : ∀ (l : List Src) (x : Group) (d : Fmap Word),
      l.foldl (fun x o => (List.range (o.count x.width)).foldl (fun x i => x.resolve d (o.reg + i)) x) x =
        { x with s := (l.foldl (fun x o => (List.range (o.count x.width)).foldl (fun x i => x.resolve d (o.reg + i)) x) x).s } := by
    intro l
    induction l with
    | nil => intros; rfl
    | cons a t ih => intro x d; rw [List.foldl_cons, ih, h1]
  have h3 : s.reader i = (((Instr.info i).reads s.me).filter (fun o => o.file = .s && o.ordinary && !o.isLatch)).foldl
      (fun x o => (List.range (o.count x.width)).foldl (fun x i => x.resolve s.done (o.reg + i)) x) s.me := by
    show (s.resolveReads s.cur (Instr.info i)).group s.cur = _
    unfold State.resolveReads
    rw [State.group_modGroup_same]
    rfl
  rw [h3]
  exact h2 _ _ _

@[simp] theorem State.reader_pc (s : State) (i : Instr) : (s.reader i).pc = s.me.pc := by rw [State.reader_rest]
@[simp] theorem State.reader_width (s : State) (i : Instr) : (s.reader i).width = s.me.width := by rw [State.reader_rest]
@[simp] theorem State.reader_wg (s : State) (i : Instr) : (s.reader i).wg = s.me.wg := by rw [State.reader_rest]
@[simp] theorem State.reader_sk (s : State) (i : Instr) : (s.reader i).sk = s.me.sk := by rw [State.reader_rest]
@[simp] theorem State.reader_vk (s : State) (i : Instr) : (s.reader i).vk = s.me.vk := by rw [State.reader_rest]
@[simp] theorem State.reader_v (s : State) (i : Instr) : (s.reader i).v = s.me.v := by rw [State.reader_rest]
@[simp] theorem State.reader_flags (s : State) (i : Instr) : (s.reader i).flags = s.me.flags := by rw [State.reader_rest]
@[simp] theorem State.reader_m (s : State) (i : Instr) : (s.reader i).m = s.me.m := by rw [State.reader_rest]
@[simp] theorem State.reader_mstk (s : State) (i : Instr) : (s.reader i).mstk = s.me.mstk := by rw [State.reader_rest]
@[simp] theorem State.reader_rstk (s : State) (i : Instr) : (s.reader i).rstk = s.me.rstk := by rw [State.reader_rest]
@[simp] theorem State.reader_bundle (s : State) (i : Instr) : (s.reader i).bundle = s.me.bundle := by rw [State.reader_rest]

end Sys2Proof.Machine
end

