-- ==== Sys2Proof/Laws/Mem.lean ====
section
/-! SUPPORT. The laws of memory: what a byte reads as after a write, and that every operation on memory keeps its canonical
form. -/

namespace Sys2Proof.Machine

/-! ### Numbers and bytes -/

@[simp] theorem leBytes_length (n x : Nat) : (leBytes n x).length = n := by
  induction n generalizing x with
  | zero => rfl
  | succ k ih => simp [leBytes, ih]

/-- Bytes of a number encode it again (R3). -/
theorem leNat_leBytes (n x : Nat) : leNat (leBytes n x) = x % 256 ^ n := by
  induction n generalizing x with
  | zero => simp [leBytes, leNat, Nat.mod_one]
  | succ k ih =>
    simp only [leBytes, leNat, ih, BitVec.toNat_ofNat]
    rw [show 256 ^ (k + 1) = 256 * 256 ^ k by rw [pow_succ, Nat.mul_comm], Nat.mod_mul]

theorem leNat_lt (bs : List Byte) : leNat bs < 256 ^ bs.length := by
  induction bs with
  | nil => simp [leNat]
  | cons b t ih =>
    have hb := b.isLt
    simp only [leNat, List.length_cons, pow_succ]
    omega

/-- Byte `i` of a number's bytes. -/
theorem leBytes_getD (n x i : Nat) (h : i < n) : (leBytes n x).getD i 0 = BitVec.ofNat 8 (x / 256 ^ i) := by
  induction n generalizing x i with
  | zero => omega
  | succ k ih =>
    cases i with
    | zero => simp [leBytes]
    | succ j =>
      simp only [leBytes, List.getD_cons_succ]
      rw [ih _ _ (by omega), Nat.div_div_eq_div_mul, pow_succ, Nat.mul_comm 256]

/-! ### Reads after writes -/

theorem get_writeCells_ne (m ws : List Host.Cell) (a : Nat) (h : ∀ w ∈ ws, w.1 ≠ a) :
    Fmap.get unlisted (writeCells m ws) a = Fmap.get unlisted m a := by
  induction ws generalizing m with
  | nil => rfl
  | cons w t ih =>
    rw [writeCells, ih _ (fun x hx => h x (List.mem_cons_of_mem _ hx)), Fmap.get_put,
      if_neg (fun e => h w List.mem_cons_self e.symm)]

theorem writeCells_append (m ws vs : List Host.Cell) : writeCells m (ws ++ vs) = writeCells (writeCells m ws) vs := by
  induction ws generalizing m with
  | nil => rfl
  | cons w t ih => exact ih _

theorem mem_cellsOf {loc : Nat} {bs : List Byte} {w : Host.Cell} (h : w ∈ cellsOf loc bs) :
    loc ≤ w.1 ∧ w.1 < loc + bs.length := by
  induction bs generalizing loc with
  | nil => simp [cellsOf] at h
  | cons b t ih =>
    rcases List.mem_cons.1 h with rfl | h
    · simp
    · have := ih h
      simp only [List.length_cons]
      omega

/-- What consecutive bytes written at `loc` leave at every location. -/
theorem get_writeCells_cellsOf (m : List Host.Cell) (loc : Nat) (bs : List Byte) (a : Nat) :
    Fmap.get unlisted (writeCells m (cellsOf loc bs)) a =
      if loc ≤ a ∧ a < loc + bs.length then bs.getD (a - loc) 0 else Fmap.get unlisted m a := by
  induction bs generalizing m loc with
  | nil => simp [cellsOf, writeCells]
  | cons b t ih =>
    rw [cellsOf, writeCells, ih, Fmap.get_put]
    rcases Nat.lt_trichotomy a loc with h | h | h
    · rw [if_neg (by omega), if_neg (by omega), if_neg (by omega)]
    · subst h; simp
    · by_cases h2 : a < loc + 1 + t.length
      · rw [if_pos (by omega), if_pos (by simp only [List.length_cons]; omega)]
        obtain ⟨k, rfl⟩ : ∃ k, a = loc + 1 + k := ⟨a - loc - 1, by omega⟩
        rw [show loc + 1 + k - loc = k + 1 by omega, show loc + 1 + k - (loc + 1) = k by omega, List.getD_cons_succ]
      · rw [if_neg (by omega), if_neg (by omega), if_neg (by simp only [List.length_cons]; omega)]

/-- Bytes stored at `loc` are read back, and every other byte reads as before. -/
theorem State.byteAt_storeCells (s : State) (loc : Nat) (bs : List Byte) (a : Nat) :
    (s.storeCells (cellsOf loc bs)).byteAt a =
      if loc ≤ a ∧ a < loc + bs.length then bs.getD (a - loc) 0 else s.byteAt a :=
  get_writeCells_cellsOf _ _ _ _

theorem State.byteAt_storeCells_ne (s : State) (ws : List Host.Cell) (a : Nat) (h : ∀ w ∈ ws, w.1 ≠ a) :
    (s.storeCells ws).byteAt a = s.byteAt a := get_writeCells_ne _ _ _ h

theorem bytesAt_congr {s t : State} {loc n : Nat} (h : ∀ i, i < n → t.byteAt (loc + i) = s.byteAt (loc + i)) :
    t.bytesAt loc n = s.bytesAt loc n := by
  refine List.map_congr_left fun i hi => h i (List.mem_range.1 hi)

/-- A number stored is the number read. -/
theorem State.natAt_storeCells (s : State) (loc n x : Nat) :
    (s.storeCells (cellsOf loc (leBytes n x))).natAt loc n = x % 256 ^ n := by
  have : (s.storeCells (cellsOf loc (leBytes n x))).bytesAt loc n = leBytes n x := by
    refine List.ext_getElem (by simp [State.bytesAt]) fun i h1 h2 => ?_
    have hi : i < n := by simpa [State.bytesAt] using h1
    simp only [State.bytesAt, List.getElem_map, List.getElem_range, State.byteAt_storeCells, leBytes_length]
    rw [if_pos (by omega), show loc + i - loc = i by omega, List.getD_eq_getElem _ _ h2]
  rw [State.natAt, this, leNat_leBytes]

/-! ### The canonical form -/

theorem memWf_writeCells (m ws : List Host.Cell) (h : memWf m = true) : memWf (writeCells m ws) = true := by
  induction ws generalizing m with
  | nil => exact h
  | cons w t ih => exact ih _ (Fmap.wf_put _ _ h)

theorem memWf_storeCells (s : State) (ws : List Host.Cell) (h : memWf s.mem = true) : memWf (s.storeCells ws).mem = true :=
  memWf_writeCells _ _ h

theorem memWf_outside (m : List Host.Cell) (a b : Nat) (h : memWf m = true) : memWf (outside m a b) = true := by
  simp only [memWf, Fmap.wf, Bool.and_eq_true] at h ⊢
  exact ⟨Fmap.risingFrom_filter _ h.1, List.all_eq_true.2 fun x hx => List.all_eq_true.1 h.2 x (List.mem_filter.1 hx).1⟩

theorem memWf_moveBytes (m : List Host.Cell) (a n b : Nat) (h : memWf m = true) : memWf (moveBytes m a n b) = true :=
  memWf_writeCells _ _ (memWf_outside _ _ _ (memWf_outside _ _ _ h))

theorem memWf_clearPad (s : State) (loc n : Nat) (h : memWf s.mem = true) : memWf (s.clearPad loc n).mem = true :=
  memWf_outside _ _ _ h

theorem memWf_movePad (s : State) (a n b : Nat) (h : memWf s.mem = true) : memWf (s.movePad a n b).mem = true :=
  memWf_moveBytes _ _ _ _ h

/-- A mark of dirty bytes changes no byte. -/
@[simp] theorem State.markBytes_mem (s : State) (c k : Nat) (va : Dword) (loc n : Nat) : (s.markBytes c k va loc n).mem = s.mem := by
  unfold State.markBytes; simp only; split <;> rfl

@[simp] theorem State.markTag_mem (s : State) (c k : Nat) (va : Dword) (loc : Nat) : (s.markTag c k va loc).mem = s.mem := by
  unfold State.markTag; simp only; split <;> rfl

@[simp] theorem State.markSlot_mem (s : State) (c k : Nat) (va : Dword) (j : Nat) : (s.markSlot c k va j).mem = s.mem := by
  unfold State.markSlot; simp only; split <;> rfl

@[simp] theorem State.shade_mem (s : State) (g : Nat) (t : Target) (n : Nat) (at_ : Bool) (sc : Nat) :
    (s.shade g t n at_ sc).mem = s.mem := by
  unfold State.shade
  split
  · rfl
  · split <;> rfl

@[simp] theorem State.updateL1_mem (s : State) (c pa : Nat) (bs : List Byte) : (s.updateL1 c pa bs).mem = s.mem := by
  unfold State.updateL1; split <;> rfl

theorem memWf_writeTarget (s : State) (c k : Nat) (va : Dword) (t : Target) (bs : List Byte) (h : memWf s.mem = true) :
    memWf (s.writeTarget c k va t bs).mem = true := by
  unfold State.writeTarget
  split
  · rw [State.markBytes_mem, State.updateL1_mem]; exact memWf_storeCells _ _ h
  · rw [State.updateL1_mem]; exact memWf_storeCells _ _ h
  · exact memWf_storeCells _ _ h
  · exact h

theorem memWf_ctxWrite (s t : State) (k d : Nat) (va : Dword) (bs : List Byte) (h : memWf s.mem = true)
    (e : s.ctxWrite k d va bs = some t) : memWf t.mem = true := by
  unfold State.ctxWrite at e
  split at e
  · cases e; exact memWf_storeCells _ _ h
  · cases e

theorem memWf_reset : memWf State.reset.mem = true := rfl

/-- What a write through a target leaves of each byte. -/
theorem State.byteAt_writeTarget (s : State) (c k : Nat) (va : Dword) (t : Target) (bs : List Byte) (loc a : Nat)
    (h : t.loc? = some loc) :
    (s.writeTarget c k va t bs).byteAt a = if loc ≤ a ∧ a < loc + bs.length then bs.getD (a - loc) 0 else s.byteAt a := by
  unfold State.writeTarget
  split
  · cases h
    simp only [State.byteAt, State.markBytes_mem, State.updateL1_mem]
    exact s.byteAt_storeCells _ _ _
  · cases h
    simp only [State.byteAt, State.updateL1_mem]
    exact s.byteAt_storeCells _ _ _
  · cases h; exact s.byteAt_storeCells _ _ _
  · rename_i h1 h2 h3
    cases t <;> simp [Target.loc?] at h
    · rename_i pa cp mir res
      cases mir
      · exact absurd rfl (h2 pa cp res)
      · exact absurd rfl (h1 pa cp res)
    · rename_i l w
      exact absurd rfl (h3 l w)

end Sys2Proof.Machine
end

