-- ==== Sys2Proof/Laws/Access.lean ====
section
/-! SUPPORT. The laws of memory accesses: an access whose checks are passed goes on with its hits; a store changes its bytes,
marks and shadow and nothing else. -/

namespace Sys2Proof.Machine

/-- The checks of R220, passed. -/
theorem checked_of_accessible (s : State) (u : Use) (l : List Access) (h : Accessible s u l) :
    s.checked u l = .ok (s.hits l u.acc) := by
  have hm : ∀ x ∈ s.hits l u.acc, ∃ a ∈ l, x = ⟨a.lane, a.va, s.target s.me.wg a.va u.acc⟩ := by
    intro x hx
    simp only [State.hits, List.mem_map] at hx
    obtain ⟨a, ha, rfl⟩ := hx
    exact ⟨a, ha, rfl⟩
  have h1 : (s.hits l u.acc).find? (fun h => h.va.toNat % u.align != 0) = none := by
    rw [List.find?_eq_none]; intro x hx; obtain ⟨a, ha, rfl⟩ := hm x hx
    simp [h.aligned a ha]
  have h2 : (s.hits l u.acc).findSome? (fun h => h.windowTrap.map (fun t => h.trap t)) = none := by
    rw [List.findSome?_eq_none_iff]; intro x hx; obtain ⟨a, ha, rfl⟩ := hm x hx
    have := h.reaches a ha
    unfold Reaches at this
    simp only [Hit.windowTrap]
    split at this <;> simp_all
  have h3 : (s.hits l u.acc).any (fun h => h.tgt = .miss) = false := by
    rw [List.any_eq_false]; intro x hx; obtain ⟨a, ha, rfl⟩ := hm x hx
    have := h.reaches a ha
    unfold Reaches at this
    split at this <;> simp_all
  have h4 : (s.hits l u.acc).findSome? (fun h => h.cause.map (fun c => Body.left (s.translationFault s.cur c u.acc h.va))) = none := by
    rw [List.findSome?_eq_none_iff]; intro x hx; obtain ⟨a, ha, rfl⟩ := hm x hx
    have := h.reaches a ha
    unfold Reaches at this
    simp only [Hit.cause]
    split at this <;> simp_all
  have h5 : (s.hits l u.acc).find? (fun h => !(s.core s.myCore).exchange && !h.tgt.home s.myDie) = none := by
    rw [List.find?_eq_none]; intro x hx; obtain ⟨a, ha, rfl⟩ := hm x hx
    have := h.reaches a ha
    unfold Reaches at this
    split at this <;> simp_all [Target.home]
    intro he hm
    rcases this.1 with h | h | h <;> simp_all
  have h6 : (s.hits l u.acc).findSome? (fun h => (s.kindTrap u h).map (fun t => h.trap t)) = none := by
    rw [List.findSome?_eq_none_iff]; intro x hx; obtain ⟨a, ha, rfl⟩ := hm x hx
    have := h.reaches a ha
    unfold Reaches at this
    simp only [State.kindTrap]
    split at this <;> simp_all
    by_cases hs : u.acc = Acc.store <;> simp_all
  have h7 : (s.hits l u.acc).find? (fun h => (s.ctx s.myCtx).race = 1 && !(s.conflicts u h).isEmpty) = none := by
    rw [List.find?_eq_none]; intro x hx
    simp only [Bool.and_eq_true, decide_eq_true_eq, not_and]
    intro hr
    simp [h.unraced hr x hx]
  have h8 : s.placed u l = .ok (s.hits l u.acc) := by
    unfold State.placed
    simp only [h1, h2, h3, h4, h5, h6]
    simp
  unfold State.checked
  simp only [h8, h7]

/-! ### Stores -/

theorem SameButL1.refl (s : State) : SameButL1 s s := fun _ => rfl

theorem SameButL1.trans {s t u : State} (h1 : SameButL1 s t) (h2 : SameButL1 t u) : SameButL1 s u := by
  intro c
  rw [h2 c, h1 c]

theorem SameButL1.of_cores {s t : State} (h : t.cores = s.cores) : SameButL1 s t := by
  intro c
  show Fmap.get Core.reset t.cores c = { Fmap.get Core.reset s.cores c with l1 := (Fmap.get Core.reset t.cores c).l1 }
  rw [h]

/-- A write changes nothing of a core but the L1 line that it hits. -/
theorem State.updateL1_same (s : State) (c pa : Nat) (bs : List Byte) : SameButL1 s (s.updateL1 c pa bs) := by
  unfold State.updateL1
  split
  · intro e
    by_cases he : e = c
    · subst he; simp only [State.core, State.setCore, Fmap.get, Fmap.find_insert_same, Option.getD_some]
    · simp only [State.core, State.setCore, Fmap.get, Fmap.find_insert_ne _ _ he]
  · exact .refl s

theorem State.updateL1_eq (s : State) (c pa : Nat) (bs : List Byte) :
    s.updateL1 c pa bs = { s with cores := (s.updateL1 c pa bs).cores } := by
  unfold State.updateL1; split <;> rfl

/-- `t` differs from `s` in what stores change: memory and its errors, lines of L1 caches, the dirty marks and the shadow. -/
structure StoresOnly (s t : State) : Prop where
  rest : t = { s with mem := t.mem, poison := t.poison, cores := t.cores, dirty := t.dirty, dirtyNext := t.dirtyNext
                      shadow := t.shadow }
  cores : SameButL1 s t

theorem StoresOnly.refl (s : State) : StoresOnly s s := ⟨rfl, .refl s⟩

theorem StoresOnly.trans {s t u : State} (h1 : StoresOnly s t) (h2 : StoresOnly t u) : StoresOnly s u := by
  refine ⟨?_, h1.cores.trans h2.cores⟩
  have e1 := h1.rest
  have e2 := h2.rest
  clear h1 h2
  cases s; cases t; cases u
  simp only [State.mk.injEq] at e1 e2 ⊢
  simp_all

theorem StoresOnly.groups {s t : State} (h : StoresOnly s t) : t.groups = s.groups := by rw [h.rest]

theorem State.markBytes_eq (s : State) (c k : Nat) (va : Dword) (loc n : Nat) :
    s.markBytes c k va loc n = { s with dirty := (s.markBytes c k va loc n).dirty, dirtyNext := (s.markBytes c k va loc n).dirtyNext } := by
  unfold State.markBytes; simp only; split <;> rfl

/-- What a write through a target changes. -/
theorem State.storesOnly_writeTarget (s : State) (c k : Nat) (va : Dword) (a : Target) (bs : List Byte) :
    StoresOnly s (s.writeTarget c k va a bs) := by
  have hs : ∀ ws, StoresOnly s (s.storeCells ws) := fun ws => ⟨rfl, .of_cores rfl⟩
  have hu : ∀ (t : State) pa, StoresOnly t (t.updateL1 c pa bs) := fun t pa =>
    ⟨by rw [t.updateL1_eq], t.updateL1_same c pa bs⟩
  have hm : ∀ (t : State) pa n, StoresOnly t (t.markBytes c k va pa n) := fun t pa n => by
    rw [t.markBytes_eq]; exact ⟨rfl, .of_cores rfl⟩
  unfold State.writeTarget
  split
  · exact ((hs _).trans (hu _ _)).trans (hm _ _ _)
  · exact (hs _).trans (hu _ _)
  · exact hs _
  · exact .refl s

theorem State.shade_eq (s : State) (g : Nat) (a : Target) (n : Nat) (at_ : Bool) (sc : Nat) :
    s.shade g a n at_ sc = { s with shadow := (s.shade g a n at_ sc).shadow } := by
  unfold State.shade
  split
  · rfl
  · split <;> rfl

/-- One store changes memory, its errors, the dirty marks and the shadow, and nothing else. -/
theorem State.storesOnly_storeHit (s : State) (u : Use) (h : Hit) (bs : List Byte) : StoresOnly s (s.storeHit u h bs) := by
  refine (s.storesOnly_writeTarget s.myCore s.myCtx h.va h.tgt bs).trans ?_
  unfold State.storeHit
  rw [State.shade_eq]
  exact ⟨rfl, .of_cores rfl⟩

@[simp] theorem State.storeHit_groups (s : State) (u : Use) (h : Hit) (bs : List Byte) : (s.storeHit u h bs).groups = s.groups := by
  exact (s.storesOnly_storeHit u h bs).groups

/-- The bytes that one store leaves. -/
theorem State.byteAt_storeHit (s : State) (u : Use) (h : Hit) (bs : List Byte) (loc a : Nat) (hl : h.tgt.loc? = some loc) :
    (s.storeHit u h bs).byteAt a = if loc ≤ a ∧ a < loc + bs.length then bs.getD (a - loc) 0 else s.byteAt a := by
  have : (s.storeHit u h bs).byteAt a = (s.writeTarget s.myCore s.myCtx h.va h.tgt bs).byteAt a := by
    simp only [State.storeHit, State.byteAt, State.shade_mem]
  rw [this, State.byteAt_writeTarget _ _ _ _ _ _ _ _ hl]

theorem memWf_storeHit (s : State) (u : Use) (h : Hit) (bs : List Byte) (hm : memWf s.mem = true) :
    memWf (s.storeHit u h bs).mem = true := by
  simp only [State.storeHit, State.shade_mem]
  exact memWf_writeTarget _ _ _ _ _ _ hm

/-- Stores of one instruction change what one store changes. -/
theorem State.storesOnly_storeAll (s : State) (u : Use) (l : List (Hit × List Byte)) : StoresOnly s (s.storeAll u l) := by
  unfold State.storeAll
  induction l generalizing s with
  | nil => exact .refl s
  | cons p t ih => exact (s.storesOnly_storeHit u p.1 p.2).trans (ih _)

@[simp] theorem State.storeAll_groups (s : State) (u : Use) (l : List (Hit × List Byte)) : (s.storeAll u l).groups = s.groups := by
  exact (s.storesOnly_storeAll u l).groups

theorem memWf_storeAll (s : State) (u : Use) (l : List (Hit × List Byte)) (hm : memWf s.mem = true) :
    memWf (s.storeAll u l).mem = true := by
  unfold State.storeAll
  induction l generalizing s with
  | nil => exact hm
  | cons p t ih => exact ih _ (memWf_storeHit _ _ _ _ hm)

/-- Stores that are not acknowledged yet change the list of them, and the next number. -/
theorem State.addStores_eq (s : State) (hs : List Hit) :
    s.addStores hs = { s with stores := (s.addStores hs).stores, nextId := (s.addStores hs).nextId } := by
  unfold State.addStores
  generalize s.ackPlaces hs = l
  induction l generalizing s with
  | nil => rfl
  | cons p t ih =>
    rw [List.foldl_cons]
    exact (ih { s with stores := Fmap.insert s.stores s.nextId ⟨s.cur, s.me.wg, s.myCore, p⟩, nextId := s.nextId + 1 }).trans rfl

end Sys2Proof.Machine
end

