-- ==== Sys2Proof/Laws/Results.lean ====
section
/-! SUPPORT. What a scalar result, a vector result and a mask result leave (R55, R65, R80, R158, R194, R203). -/

namespace Sys2Proof.Machine

theorem State.room_eq {s : State} {i : Instr} {nv ns : Nat} (h : HasRoom i s nv ns) :
    (s.seen i).room ((s.seen i).group s.cur).wg nv ns = true := h

theorem withRoom_pass {s : State} {nv ns : Nat} {k : Body} (h : s.room (s.group s.cur).wg nv ns = true) :
    withRoom s nv ns k = k := by
  simp [withRoom, h]

/-- A write of a scalar name changes the group's scalar names alone. -/
theorem Group.writeS_effect (x : Group) (n : Nat) (v : Word) (id : Nat) (fut : Option Nat) :
    Effect x x (x.writeS n v id fut) { s := [n] } where
  pc := rfl
  sig := rfl
  hlr := rfl
  width := rfl
  scalars := fun k hk => by rw [Group.find_writeS]; simp [show k ≠ n from by simpa using hk]
  vectors := fun _ _ => rfl
  masks := fun _ _ => rfl
  flags := fun _ => rfl
  sk := fun _ => rfl
  vk := fun _ => rfl
  rest := rfl

/-- The group that a scalar result leaves, before the end of the instruction. -/
def Group.scalarDone (x : Group) (d : Nat) (ws wide : Bool) (r : Dword) (i1 i2 : Nat) (w : Option Nat) : Group :=
  let y := if ws then x else if wide then (x.writeS d (loOf r) i1 none).writeS (d + 1) (hiOf r) i2 none
    else x.writeS d (loOf r) i1 none
  y.shiftS (loOf r) w

theorem Group.scalarDone_effect (x : Group) (d : Nat) (ws wide : Bool) (r : Dword) (i1 i2 : Nat) (w : Option Nat) :
    Effect x x (x.scalarDone d ws wide r i1 i2 w)
      { s := if ws then [] else if wide then [d, d + 1] else [d], sk := true } := by
  cases ws <;> cases wide <;> constructor <;>
    first
      | rfl
      | (intros; rfl)
      | (intro h; exact absurd h (by simp))
      | (intro n hn
         simp only [Bool.false_eq_true, if_false, if_true, List.mem_cons, List.not_mem_nil, or_false, not_or] at hn
         simp [Group.scalarDone, Group.find_writeS, hn])

theorem bit_zero {b : BitVec 1} (h : b ≠ 1) : b = 0 := by
  revert b; decide

/-- The states that a scalar result goes through. -/
def State.scalarPut (s : State) (g d : Nat) (ws wide : Bool) (r : Dword) : State :=
  if ws then s else if wide then s.putS2 g d r else s.putS g d (loOf r)

theorem State.scalarPut_eq (s : State) (g d : Nat) (ws wide : Bool) (r : Dword) : ∃ i1 i2,
    ∀ w, ((s.scalarPut g d ws wide r).group g).shiftS (loOf r) w = (s.group g).scalarDone d ws wide r i1 i2 w := by
  cases ws <;> cases wide
  · exact ⟨_, 0, fun w => by simp [State.scalarPut, State.putS_eq, Group.scalarDone]; rfl⟩
  · exact ⟨_, _, fun w => by simp [State.scalarPut, State.putS2, State.putS_eq, Group.scalarDone]; rfl⟩
  · exact ⟨0, 0, fun w => rfl⟩
  · exact ⟨0, 0, fun w => rfl⟩

theorem State.scalarPut_groups (s : State) (g d : Nat) (ws wide : Bool) (r : Dword) :
    s.scalarPut g d ws wide r = { s with groups := (s.scalarPut g d ws wide r).groups } := by
  cases ws <;> cases wide <;> rfl

theorem State.scalarPut_ne (s : State) {g h : Nat} (d : Nat) (ws wide : Bool) (r : Dword) (hn : h ≠ g) :
    (s.scalarPut g d ws wide r).group h = s.group h := by
  cases ws <;> cases wide <;> simp [State.scalarPut, State.putS2, State.putS_eq, State.group_setGroup_ne _ _ hn]

/-- A last-read bit frees no register that the instruction writes (R58). -/
theorem Group.not_lastRead {x : Group} {n : Info} {f : RFile} {o : Dst} {r : Nat} (ho : o ∈ n.dsts) (hf : o.file = f)
    (h1 : o.reg ≤ r) (h2 : r < o.reg + o.count x.width) : (f.code, r) ∉ x.lastReads n := by
  intro h
  simp only [Group.lastReads] at h
  split at h
  · simp at h
  · obtain ⟨a, _, ha⟩ := List.mem_flatMap.1 h
    obtain ⟨k, hk, he⟩ := List.mem_map.1 ha
    have hl := (List.mem_filter.1 hk).2
    simp only [Prod.mk.injEq] at he
    have hfile : a.file = f := by
      cases hx : a.file <;> cases f <;> simp [hx, RFile.code] at he ⊢
    simp only [lastRead, Bool.and_eq_true, Bool.not_eq_true'] at hl
    have := List.any_eq_false.1 hl.2 o ho
    simp [hf, hfile, he.2, h1, h2] at this

/-- What `scalarResult` does once the pool has room. -/
theorem scalarResult_does {i : Instr} {s : State} {body : State → Body} {d : BitVec 6} {ws : BitVec 1} {wide slow : Bool} {r : Dword}
    (hr : Ready i s) (he : exec i s = issue (Instr.info i) body s)
    (hb : body (s.seen i) = scalarResult (s.seen i) d ws wide slow r)
    (hroom : HasRoom i s 0 (if ws = 1 then 0 else if wide then 2 else 1))
    (hdst : ws = 0 → sDst2 wide d ∈ (Instr.info i).dsts) :
    ScalarResult i s d.toNat (decide (ws = 1)) wide slow r := by
  let s1 := s.seen i
  let t := s1.scalarPut s.cur d.toNat (decide (ws = 1)) wide r
  let ids := if ws = 1 then [] else (t.group s.cur).idS d.toNat ++ (if wide then (t.group s.cur).idS (d.toNat + 1) else [])
  let p : Pend := ⟨.slow, s.cur, (s1.group s.cur).wg, s1.coreOf s.cur, [], ids⟩
  let u := if slow then t.addPend p else t
  have ht : (if ws = 1 then s.seen i else if wide = true then (s.seen i).putS2 (s.seen i).cur d.toNat r
      else (s.seen i).putS (s.seen i).cur d.toNat (loOf r)) = t := by
    show (if ws = 1 then s1 else if wide then s1.putS2 s.cur d.toNat r else s1.putS s.cur d.toNat (loOf r)) = t
    simp only [t, State.scalarPut, decide_eq_true_eq]
  have hu : u.group s.cur = t.group s.cur := by simp only [u]; split <;> rfl
  obtain ⟨i1, i2, hd⟩ := s1.scalarPut_eq s.cur d.toNat (decide (ws = 1)) wide r
  have hdo := hd (if slow then some t.nextId else none)
  have hgroup : (u.modGroup s.cur (fun x => x.shiftS (loOf r) (if slow then some t.nextId else none))).group s.cur =
      (s.reader i).scalarDone d.toNat (decide (ws = 1)) wide r i1 i2 (if slow then some t.nextId else none) := by
    rw [State.group_modGroup_same, hu, hdo]; rfl
  have heff := (s.reader i).scalarDone_effect d.toNat (decide (ws = 1)) wide r i1 i2 (if slow then some t.nextId else none)
  have hbody : body (s.seen i) =
      .done (u.modGroup s.cur (fun x => x.shiftS (loOf r) (if slow then some t.nextId else none))) (nextPc s.me.pc) := by
    rw [hb]
    have hw : withRoom s1 0 (if ws = 1 then 0 else if wide then 2 else 1) = fun k => k :=
      funext fun k => withRoom_pass (show s1.room (s1.group s1.cur).wg _ _ = true from hroom)
    show withRoom s1 0 (if ws = 1 then 0 else if wide then 2 else 1) _ = _
    rw [hw]
    show andNext _ = _
    rw [ht]
    show Body.done _ (nextPc ((State.modGroup u s.cur _).group (State.modGroup u s.cur _).cur).pc) = _
    have hcur : u.cur = s.cur := by simp only [u]; split <;> (simp only [t]; rw [State.scalarPut_groups]; rfl)
    rw [State.modGroup_cur, hcur, hgroup, heff.pc, State.reader_pc]
    rfl
  refine ⟨_, p, does_of_done (v := if slow then s.addPend p else s) (z := s.reader i) hr he hbody ?_ ?_ (hgroup ▸ heff), ?_⟩
  · have h1 : { s1 with groups := [] } = { s with groups := [] } := rfl
    have h2 : { t with groups := [] } = { s with groups := [] } := by
      simp only [t]; rw [State.scalarPut_groups]; exact h1
    cases slow
    · exact h2
    · simp only [State.mk.injEq] at h2
      simp [u, State.addPend, State.modGroup, State.setGroup, h2]
  · intro h hn
    rw [State.group_modGroup_ne _ _ hn]
    have : u.group h = t.group h := by simp only [u]; split <;> rfl
    rw [this, State.scalarPut_ne _ _ _ _ _ hn, State.seen_group_ne _ _ hn]
  · have hfin : ∀ n, ws = 0 → (n = d.toNat ∨ wide = true ∧ n = d.toNat + 1) →
        Fmap.find (((u.modGroup s.cur (fun x => x.shiftS (loOf r) (if slow then some t.nextId else none))).finish s.cur
          (Instr.info i) ((s.reader i).execMask (Instr.info i).pred) (nextPc s.me.pc)).group s.cur).s n =
        Fmap.find ((s.reader i).scalarDone d.toNat (decide (ws = 1)) wide r i1 i2 (if slow then some t.nextId else none)).s n := by
      intro n hws hn
      rw [State.finish, State.group_modGroup_same, hgroup]
      show Fmap.find (Group.freeRegs _ _).s n = _
      rw [Group.find_freeRegs_s, if_neg]
      refine Group.not_lastRead (hdst hws) rfl ?_ ?_
      · rcases hn with rfl | ⟨_, rfl⟩ <;> simp [sDst2]
      · cases wide
        · rcases hn with rfl | ⟨h, _⟩
          · simp [sDst2, Dst.count]
          · simp at h
        · rcases hn with rfl | ⟨_, rfl⟩ <;> simp [sDst2, Dst.count]
    have hsk : ((((u.modGroup s.cur (fun x => x.shiftS (loOf r) (if slow then some t.nextId else none))).finish s.cur
        (Instr.info i) ((s.reader i).execMask (Instr.info i).pred) (nextPc s.me.pc)).group s.cur)).sk =
        ((s.reader i).scalarDone d.toNat (decide (ws = 1)) wide r i1 i2 (if slow then some t.nextId else none)).sk := by
      rw [State.finish, State.group_modGroup_same, hgroup, Group.freeRegs_eq]; rfl
    have hws : ∀ {P : Prop}, (ws = 0 → P) → decide (ws = 1) = false → P := by
      intro P h hf
      exact h (bit_zero (of_decide_eq_false hf))
    refine ⟨hws fun h => ?_, fun h hw => ?_, ?_, rfl, hws fun h e he => ?_⟩
    · unfold Group.readS
      rw [hfin _ h (.inl rfl)]
      subst h
      cases wide <;> simp [Group.scalarDone, Group.find_writeS]
    · refine hws (fun h => ?_) h
      unfold Group.readS
      rw [hfin _ h (.inr ⟨hw, rfl⟩)]
      subst h; subst hw
      simp [Group.scalarDone, Group.find_writeS]
    · rw [hsk]
      have hn : t.nextId = s.nextId := by simp only [t]; rw [State.scalarPut_groups]; rfl
      rw [hn]
      have hsk' : ∀ b, ((s.reader i).scalarDone d.toNat b wide r i1 i2 (if slow then some s.nextId else none)).sk =
          shiftChain s.me.sk ⟨true, if slow then some s.nextId else none, [loOf r]⟩ := by
        intro b
        cases b <;> cases wide <;> simp [Group.scalarDone, Group.shiftS]
      exact hsk' _
    · rw [hfin _ h (.inl rfl)] at he
      have hy : Fmap.find (t.group s.cur).s d.toNat = some e := by
        rw [← he]
        show Fmap.find (((s1.scalarPut s.cur d.toNat (decide (ws = 1)) wide r).group s.cur).shiftS (loOf r)
          (if slow then some t.nextId else none)).s d.toNat = _
        rw [hdo]
        rfl
      subst h
      simp [p, ids, Group.idS, hy]

/-! ### Vector results -/

/-- Registers from `n` on written under a mask: what the group is then. -/
theorem State.putVs_group (s : State) (g n : Nat) (m : Mask) (rs : List (Nat → Word)) :
    (s.putVs g n m rs).group g = { s.group g with v := ((s.putVs g n m rs).group g).v } := by
  induction rs generalizing s n with
  | nil => rfl
  | cons f t ih =>
    rw [State.putVs, ih]
    simp only [State.putV, State.group_setGroup_same, Group.writeV]

theorem State.putVs_find (s : State) (g n : Nat) (m : Mask) (rs : List (Nat → Word)) (k : Nat)
    (hk : k / 16 ∉ (List.range rs.length).map (fun j => n + j)) :
    Fmap.find ((s.putVs g n m rs).group g).v k = Fmap.find (s.group g).v k := by
  induction rs generalizing s n with
  | nil => rfl
  | cons f t ih =>
    simp only [List.length_cons, List.mem_map, List.mem_range, not_exists, not_and] at hk
    rw [State.putVs, ih]
    · simp only [State.putV, State.group_setGroup_same]
      exact Group.find_writeV_ne _ _ _ _ _ _ (fun he => hk 0 (by omega) (by omega))
    · simp only [List.mem_map, List.mem_range, not_exists, not_and]
      intro j hj he
      exact hk (j + 1) (by omega) (by omega)

theorem State.putVs_readV (s : State) (g n : Nat) (m : Mask) (rs : List (Nat → Word)) (j l : Nat) (hj : j < rs.length)
    (hl : l < 128) (hw : l / 8 < (s.group g).width / 8) :
    ((s.putVs g n m rs).group g).readV (n + j) l =
      if m.getLsbD l then (rs.getD j (fun _ => 0)) l else (s.group g).readV (n + j) l := by
  induction rs generalizing s n j with
  | nil => simp at hj
  | cons f t ih =>
    rw [State.putVs]
    have hg : (s.putV g n m f).group g = (s.group g).writeV n m f
        (freshIds (s.usedSlices (s.coreOf g)) (hitQuarters (s.group g).width m).length) := by
      simp [State.putV]
    cases j with
    | zero =>
      have hf : Fmap.find (((s.putV g n m f).putVs g (n + 1) m t).group g).v (vkey n (l / 8)) =
          Fmap.find ((s.putV g n m f).group g).v (vkey n (l / 8)) := by
        refine State.putVs_find _ _ _ _ _ _ ?_
        rw [vkey_div (by omega)]
        simp only [List.mem_map, List.mem_range, not_exists, not_and]
        intro j _; omega
      have hr : ∀ x : Group, ∀ y : Group, Fmap.find x.v (vkey n (l / 8)) = Fmap.find y.v (vkey n (l / 8)) →
          x.readV n l = y.readV n l := by
        intro x y h; unfold Group.readV; rw [h]
      simp only [Nat.add_zero]
      rw [hr _ _ hf, hg]
      simpa using Group.readV_writeV_same (s.group g) n m f _ l hw (le_of_eq (freshIds_length _ _).symm)
    | succ j =>
      have h1 := ih (s := s.putV g n m f) (n := n + 1) (j := j) (by simpa using hj) (by rw [hg]; simpa [Group.writeV] using hw)
      rw [show n + (j + 1) = n + 1 + j from by omega, h1]
      have h2 : ((s.putV g n m f).group g).readV (n + 1 + j) l = (s.group g).readV (n + 1 + j) l := by
        rw [hg]; exact Group.readV_writeV_ne _ _ _ _ _ (by omega) hl
      simp [h2]

theorem State.putVs_groups (s : State) (g n : Nat) (m : Mask) (rs : List (Nat → Word)) :
    s.putVs g n m rs = { s with groups := (s.putVs g n m rs).groups } := by
  induction rs generalizing s n with
  | nil => rfl
  | cons f t ih => rw [State.putVs, ih]; rfl

theorem State.putVs_ne (s : State) {g h : Nat} (n : Nat) (m : Mask) (rs : List (Nat → Word)) (hn : h ≠ g) :
    (s.putVs g n m rs).group h = s.group h := by
  induction rs generalizing s n with
  | nil => rfl
  | cons f t ih => rw [State.putVs, ih, State.putV, State.group_setGroup_ne _ _ hn]

/-- The group that a vector result leaves, before the end of the instruction. -/
def Group.vectorDone (x y : Group) (quiet : Bool) (m : Mask) (fl : Nat → Flags) (vk : List Latch) : Group :=
  { (if quiet then { x with v := y.v } else ({ x with v := y.v } : Group).orFlags m fl) with vk := vk }

theorem Group.vectorDone_effect (x y : Group) (quiet : Bool) (m : Mask) (fl : Nat → Flags) (vk : List Latch) (vs : List Nat)
    (hv : ∀ k, k / 16 ∉ vs → Fmap.find y.v k = Fmap.find x.v k) :
    Effect x x (x.vectorDone y quiet m fl vk) { v := vs, flags := !quiet, vk := true } := by
  cases quiet <;> constructor <;>
    first
      | rfl
      | (intros; rfl)
      | exact hv
      | (intro h; exact absurd h (by simp))

theorem Group.vectorDone_flag (x y : Group) (quiet : Bool) (m : Mask) (fl : Nat → Flags) (vk : List Latch) (l : Nat) :
    (x.vectorDone y quiet m fl vk).flag l =
      if quiet = false ∧ m.getLsbD l = true then x.flag l ||| fl l else x.flag l := by
  cases quiet
  · show (({ x with v := y.v } : Group).orFlags m fl).flag l = _
    rw [Group.flag_orFlags]
    simp only [true_and]
    rfl
  · simp [Group.vectorDone, Group.flag]

/-- What `vectorResult` does once the pool has room. -/
theorem vectorResult_does {i : Instr} {s : State} {body : State → Body} {d : BitVec 6} {q ws : BitVec 1} {m : Mask}
    {rs : List (Nat → Word)} {fl : Nat → Flags} {slow : Bool}
    (hr : Ready i s) (he : exec i s = issue (Instr.info i) body s)
    (hb : body (s.seen i) = vectorResult d q ws m rs fl slow (s.seen i))
    (hroom : HasRoom i s (if ws = 1 then 0 else rs.length * (hitQuarters s.me.width m).length) 0)
    (hdst : ws = 0 → ∀ k, k < rs.length → ∃ o ∈ (Instr.info i).dsts, o.file = .v ∧ o.reg ≤ d.toNat + k ∧
      d.toNat + k < o.reg + o.n ∧ o.n ≠ 0) (hd : d.toNat + rs.length ≤ 64) :
    VectorResult i s d.toNat (decide (q = 1)) (decide (ws = 1)) m rs fl slow := by
  let s1 := s.seen i
  let x := s.reader i
  let t := if ws = 1 then s1 else s1.putVs s.cur d.toNat m rs
  let ids := if ws = 1 then [] else (t.group s.cur).idsVs d.toNat rs.length m
  let p : Pend := ⟨.slow, s.cur, x.wg, s1.coreOf s.cur, ids, []⟩
  let u := if slow then t.addPend p else t
  let latch := x.shiftV d.toNat m (rs.head?.getD (fun _ => 0)) (if slow then some t.nextId else none)
  let fin := fun y : Group => { (if q = 0 then y.orFlags m fl else y) with vk := latch.vk }
  have ht : (if ws = 1 then s.seen i else (s.seen i).putVs (s.seen i).cur d.toNat m rs) = t := rfl
  have htg : t = { s1 with groups := t.groups } := by
    simp only [t]; split
    · rfl
    · exact State.putVs_groups _ _ _ _ _
  have hxt : t.group s.cur = { x with v := (t.group s.cur).v } := by
    simp only [t]; split
    · rfl
    · exact State.putVs_group _ _ _ _ _
  have hu : u.group s.cur = t.group s.cur := by simp only [u]; split <;> rfl
  have hfin : fin (t.group s.cur) = x.vectorDone (t.group s.cur) (decide (q = 1)) m fl latch.vk := by
    simp only [fin, Group.vectorDone]
    rw [hxt]
    by_cases hq : q = 1
    · have : ¬ q = 0 := by rw [hq]; decide
      simp [hq]
    · have := bit_zero hq
      simp [this]
  have hgroup : (u.modGroup s.cur fin).group s.cur = x.vectorDone (t.group s.cur) (decide (q = 1)) m fl latch.vk := by
    rw [State.group_modGroup_same, hu, hfin]
  have hfind : ∀ k, k / 16 ∉ (if decide (ws = 1) = true then [] else (List.range rs.length).map (fun j => d.toNat + j)) →
      Fmap.find (t.group s.cur).v k = Fmap.find x.v k := by
    intro k hk
    by_cases hw : ws = 1
    · simp only [t, hw, if_true]; rfl
    · simp only [hw, decide_false, Bool.false_eq_true, if_false] at hk
      simp only [t, hw, if_false]
      exact State.putVs_find _ _ _ _ _ _ hk
  have heff := Group.vectorDone_effect x (t.group s.cur) (decide (q = 1)) m fl latch.vk _ hfind
  have hcur : u.cur = s.cur := by
    have : t.cur = s.cur := by rw [htg]; rfl
    simp only [u]; split
    · exact this
    · exact this
  have hbody : body (s.seen i) = .done (u.modGroup s.cur fin) (nextPc s.me.pc) := by
    rw [hb]
    have hw : withRoom s1 (if ws = 1 then 0 else rs.length * (hitQuarters ((s.seen i).group (s.seen i).cur).width m).length) 0 =
        fun k => k := by
      refine funext fun k => withRoom_pass ?_
      have hwd : ((s.seen i).group (s.seen i).cur).width = s.me.width := s.reader_width i
      rw [hwd]
      exact hroom
    show withRoom s1 (if ws = 1 then 0 else rs.length * (hitQuarters ((s.seen i).group (s.seen i).cur).width m).length) 0 _ = _
    rw [hw]
    show andNext _ = _
    rw [ht]
    show Body.done _ (nextPc ((State.modGroup u s.cur fin).group (State.modGroup u s.cur fin).cur).pc) = _
    rw [State.modGroup_cur, hcur, hgroup, heff.pc, State.reader_pc]
    rfl
  refine ⟨_, p, does_of_done (v := if slow then s.addPend p else s) (z := s.reader i) hr he hbody ?_ ?_ (hgroup ▸ heff), ?_⟩
  · have h1 : { s1 with groups := [] } = { s with groups := [] } := rfl
    have h2 : { t with groups := [] } = { s with groups := [] } := by rw [htg]; exact h1
    cases slow
    · exact h2
    · simp only [State.mk.injEq] at h2
      simp [u, State.addPend, State.modGroup, State.setGroup, h2]
  · intro h hn
    rw [State.group_modGroup_ne _ _ hn]
    have h1 : u.group h = t.group h := by simp only [u]; split <;> rfl
    have h2 : t.group h = s1.group h := by
      simp only [t]; split
      · rfl
      · exact State.putVs_ne _ _ _ _ hn
    rw [h1, h2, State.seen_group_ne _ _ hn]
  · have hws : ∀ {P : Prop}, (ws = 0 → P) → decide (ws = 1) = false → P := fun h hf => h (bit_zero (of_decide_eq_false hf))
    have hkey : ∀ k, ws = 0 → k < rs.length → ∀ r, r < 16 →
        Fmap.find (((u.modGroup s.cur fin).finish s.cur (Instr.info i) ((s.reader i).execMask (Instr.info i).pred)
          (nextPc s.me.pc)).group s.cur).v (vkey (d.toNat + k) r) = Fmap.find (t.group s.cur).v (vkey (d.toNat + k) r) := by
      intro k hw hk r hr16
      rw [State.finish, State.group_modGroup_same, hgroup]
      show Fmap.find (Group.freeRegs _ _).v _ = _
      rw [Group.find_freeRegs_v _ _ (Group.lastReads_lt _ _), vkey_div hr16, if_neg]
      · cases decide (q = 1) <;> rfl
      · obtain ⟨o, ho, hf, h1, h2, h3⟩ := hdst hw k hk
        rintro (h | ⟨h64, _⟩)
        · exact Group.not_lastRead (f := .v) ho hf h1 (by simpa [Dst.count, h3] using h2) h
        · omega
    refine ⟨hws fun h k hk l hl => ?_, fun l _ => ?_, ?_, rfl, hws fun h k hk r hrq e he => ?_⟩
    · have hread : ∀ y z : Group, Fmap.find y.v (vkey (d.toNat + k) (l / 8)) = Fmap.find z.v (vkey (d.toNat + k) (l / 8)) →
          y.readV (d.toNat + k) l = z.readV (d.toNat + k) l := by
        intro y z hyz; unfold Group.readV; rw [hyz]
      rw [hread _ _ (hkey k h hk _ (by have := hl.1; omega))]
      subst h
      exact State.putVs_readV _ _ _ _ _ _ _ hk hl.1 hl.2
    · rw [State.finish, State.group_modGroup_same, hgroup, Group.freeRegs_eq]
      show (x.vectorDone (t.group s.cur) (decide (q = 1)) m fl latch.vk).flag l = _
      rw [Group.vectorDone_flag]
    · rw [State.finish, State.group_modGroup_same, hgroup, Group.freeRegs_eq]
      have hn : t.nextId = s.nextId := by rw [htg]; rfl
      show latch.vk = _
      have hh : rs.head?.getD (fun _ => 0) = rs.getD 0 (fun _ => 0) := by cases rs <;> rfl
      simp only [latch, Group.shiftV, hn, hh, x, State.reader_vk, State.reader_width]
    · have hk16 := hitQuarters_lt hrq
      rw [hkey k h hk _ hk16] at he
      subst h
      have : e.id ∈ (t.group s.cur).idsV (d.toNat + k) m := by
        refine List.mem_filterMap.2 ⟨r, ?_, by rw [he]; rfl⟩
        rw [hxt]
        show r ∈ hitQuarters (s.reader i).width m
        rw [State.reader_width]
        exact hrq
      show e.id ∈ ids
      simp only [ids]
      exact List.mem_flatMap.2 ⟨k, List.mem_range.2 hk, this⟩

end Sys2Proof.Machine
end

