-- ==== Sys2Proof/Tests/Slice0.lean ====
section
/-! SUPPORT. Tests: the words that the spec's examples write out, the well-formedness checks, single steps whose results the spec's
tables give, and for every statement with hypotheses a state and operands that meet them. -/

namespace Sys2Proof.Tests

open Sys2Proof.Machine Sys2Proof.Claims

-- The kernel evaluates one test at a time, so that the tests ask for few threads.
set_option Elab.async false

/-! ### Decoding: the examples of the spec -/

/-- A word decodes to an instruction. -/
noncomputable def decodes (p : Nat × Instr) : Bool := decodeTableWord 32 p.1 = some p.2

/-- The example words of R158, R159 and R161. -/
theorem test_decode_scalar :
    [(0x04408300, Instr.sadd ⟨4, 2, 3, 0, 0⟩), (0x0441880C, .ssub ⟨4, 6, 8, 1, 0⟩), (0x0820E064, .ssltiN ⟨2, 3, 100⟩),
     (0x08411803, .sshriI ⟨4, 4, 3⟩), (0x0C400100, .sget ⟨4, 0x040⟩), (0x0C01904C, .sset ⟨6, 0x013⟩)].all decodes = true := by
  decide +kernel

/-- The example words of R163, R164, R167 to R169, R173, R176, R179, R184 to R187. -/
theorem test_decode_control :
    [(0x10500008, Instr.bz ⟨5, 8⟩), (0x1025FFFE, .bltz ⟨2, -2⟩), (0x1400000A, .jmp ⟨10⟩), (0x1C220000, .jmpi ⟨8⟩),
     (0x1C320000, .calli ⟨8⟩), (0x21000004, .vif ⟨2, 0, 0, 4⟩), (0x24000005, .vloop ⟨5⟩), (0x29C00004, .vwhile ⟨3, 1, 4⟩),
     (0x2C308000, .gsplit ⟨3, 1⟩), (0x2C350000, .gfuse ⟨3, 2⟩), (0x2C380000, .gcompact ⟨3⟩), (0x30018000, .barb ⟨0, 6⟩),
     (0x30219000, .barn ⟨2, 6⟩), (0x3041A000, .barc ⟨4, 6⟩), (0x30017800, .blset ⟨5⟩), (0x30017000, .blclr ⟨5⟩),
     (0x1D100004, .fence ⟨4⟩), (0x1D220300, .dlaunch ⟨8, 3⟩), (0x1C700005, .trap ⟨5⟩)].all decodes = true := by decide +kernel

/-- The function words of R162 without operands. -/
theorem test_decode_bare :
    [(0x1C000000, Instr.nop), (0x1C100000, .ret), (0x1C400000, .exit), (0x1C500000, .yield), (0x1C600000, .snap),
     (0x1C800000, .velse), (0x1C900000, .vend), (0x1CA00000, .phend), (0x1CB00000, .xend), (0x1CC00000, .idemb),
     (0x1CD00000, .ideme), (0x1CE00000, .rdenter), (0x1CF00000, .rdexit), (0x1D000000, .gpwait)].all decodes = true := by
  decide +kernel

/-- The example words of the vector chapter (R198 to R217). -/
theorem test_decode_vector :
    [(0x48A08330, Instr.vfmaBf16 ⟨10, 2, 3, 0, 0, 0⟩), (0x406140B8, .vrsqF32 ⟨6, 5, 1, 0, 0⟩), (0x44304270, .vdivF16 ⟨3, 1, 2, 0, 0, 0⟩),
     (0x4C304270, .vaddsI32 ⟨3, 1, 2, 0, 0, 0⟩), (0x50204390, .vshlN32 ⟨2, 1, 3, 0, 0, 0⟩), (0x54418800, .vaddI64 ⟨4, 6, 8, 0, 0, 0⟩),
     (0x58404283, .vsel ⟨4, 1, 2, 0, 0, 3⟩), (0x58300070, .vimm ⟨3, 0, 0, 0⟩), (0x5CC042B0, .vcgt ⟨1, 1, 2, 11, 0, 0⟩),
     (0x5E604200, .vcun ⟨4, 1, 2, 0, 0, 0⟩), (0x69940000, .mand ⟨3, 1, 2⟩), (0x68210200, .mpopc ⟨2, 4⟩), (0x69014381, .vballot ⟨2, 7, 1⟩),
     (0x605040D0, .vcvt ⟨5, 1, 0, 3, 2, 0, 0⟩), (0x60505430, .vcvt ⟨5, 1, 5, 0, 6, 0, 0⟩), (0x60504C48, .vcvt ⟨5, 1, 3, 1, 1, 0, 0⟩),
     (0x602042C0, .vcvt ⟨2, 1, 0, 11, 0, 0, 0⟩), (0x645040D0, .vcvtq ⟨5, 1, 0, 3, 2, 0, 0⟩), (0x74810000, .vbscale ⟨8, 4, 0, 0, 0, 0⟩),
     (0x74810030, .vbscale ⟨8, 4, 3, 0, 0, 0⟩), (0x74910870, .vquant ⟨9, 4, 8, 3, 0, 0, 0⟩), (0x74C248A0, .vdeq ⟨12, 9, 8, 2, 0, 0, 0⟩),
     (0x6C50C400, .vshfl ⟨5, 3, 4, 0, 0, 0⟩), (0x6C608730, .vbcast ⟨6, 2, 7, 0, 0, 0⟩), (0x70708000, .vrsumF32 ⟨7, 2, 0, 0, 0⟩),
     (0x70708090, .vssumI32 ⟨7, 2, 0, 0, 0⟩), (0x0C402008, .vget ⟨4, 2, 0⟩), (0x0C01B008, .vset ⟨6, 2, 0⟩)].all decodes = true := by
  decide +kernel

/-- The example words of the memory chapter (R221 to R252), with the hint words of their bundles. -/
theorem test_decode_memory :
    [(0x80808680, Instr.vld ⟨8, 2, 6, 2, 0, 0, 0, 0⟩), (0x80508368, .vld ⟨5, 2, 3, 1, 1, 0, 1, 0⟩), (0x80808690, .vld ⟨8, 2, 6, 2, 0, 1, 0, 0⟩),
     (0x844086C0, .vst ⟨4, 2, 6, 3, 0, 0, 0⟩), (0x8840A010, .sld ⟨4, 2, 2, 0, 0, 16⟩), (0x88408800, .sld ⟨4, 2, 0, 1, 0, 0⟩),
     (0x8C60B008, .sst ⟨6, 2, 3, 0, 8⟩), (0x904086A0, .vatomCas ⟨4, 2, 6, 0, 0, 0⟩), (0x90408608, .vatomAdd ⟨4, 2, 6, 1, 0, 0⟩),
     (0x94408600, .satomAdd ⟨4, 2, 6, 0, 0⟩), (0x98508710, .baddF32 ⟨5, 2, 7, 0, 0⟩), (0x98508761, .binc ⟨5, 2, 7, 0, 1⟩),
     (0x98408678, .bmaxp ⟨4, 2, 6, 0, 0⟩), (0x9C408000, .tagld ⟨4, 2⟩), (0x9C008508, .tagst ⟨2, 5⟩), (0x9C008010, .sete ⟨2⟩),
     (0x9C008018, .setf ⟨2⟩), (0x9C008521, .qpush ⟨2, 5, 1⟩), (0x9C608028, .qpop ⟨6, 2, 0⟩), (0xFD0A0000, .hmod ⟨0, 0, 1, 2, 0, 0⟩),
     (0xFD500000, .hmod ⟨1, 1, 0, 0, 0, 0⟩), (0xFC800002, .himm ⟨0, 2⟩)].all decodes = true := by decide +kernel

/-- The example words of the engine, the recycling unit and the exchange (R236 to R252). -/
theorem test_decode_engine :
    [(0xA0310609, Instr.cpy ⟨3, 4, 6, 2, 1⟩), (0xA0310600, .cpy ⟨3, 4, 6, 0, 0⟩), (0xA0320A10, .gath ⟨3, 8, 10, 0⟩),
     (0xA0320A20, .scat ⟨3, 8, 10, 0⟩), (0xA0310630, .pfd ⟨3, 4, 6⟩), (0xA050C040, .fwait ⟨5, 3⟩), (0xA050C050, .ftest ⟨5, 3⟩),
     (0xA000C060, .fcancel ⟨3⟩), (0xA050C070, .fpass ⟨5, 3⟩), (0xA4010600, .pub ⟨4, 6⟩), (0xA4210608, .retire ⟨2, 4, 6⟩),
     (0xA4828010, .poola ⟨8, 10⟩), (0xA4020A18, .poolf ⟨8, 10⟩), (0xA841880C, .xput ⟨4, 6, 8, 3⟩), (0xA8A30E01, .xget ⟨10, 12, 14, 0⟩),
     (0xA8418816, .coll ⟨4, 6, 8, 5⟩), (0xA8000017, .cabort ⟨5⟩)].all decodes = true := by decide +kernel

/-- The example words of the matrix chapter (R258 to R271). -/
theorem test_decode_matrix :
    [(0xC0218000, Instr.mma ⟨0, 8, 24, 0, 0, 0, 0⟩), (0xC1010481, .mma ⟨1, 0, 16, 2, 2, 0, 1⟩), (0xC628C000, .mmas ⟨2, 10, 12, 0, 0, 0, 0⟩),
     (0xCB106000, .mmat ⟨3, 4, 6, 0, 0⟩), (0xCC518480, .mmax ⟨0, 20, 24, 2, 2, 0, 0⟩), (0xD0100002, .mzero ⟨1, 2⟩),
     (0xD0410000, .mld ⟨0, 4, 0⟩), (0xD0A10000, .mst ⟨2, 4, 0⟩), (0xD0D14600, .mrd ⟨1, 5, 6, 0⟩), (0xD1114600, .mwr ⟨1, 5, 6, 0⟩),
     (0xD140C000, .mfence ⟨3⟩), (0xD180C000, .mwait ⟨3⟩), (0xD1C0C000, .mstat ⟨3⟩)].all decodes = true := by decide +kernel

/-- HLR, HRUN and HSIG, by the layouts of R131 and R133. -/
theorem test_decode_hints :
    [(0b11111000011001110001111000011111, Instr.hlr ⟨0b011001110001111000011111⟩), (0b11111100000000000000000000000101, .hrun ⟨5⟩),
     (0b11111101100000001111000011110000, .hsig ⟨0xF0F0⟩)].all decodes = true := by decide +kernel

/-- Reserved encodings: code 28 of SALU, SMOV with B set, code 10 of SALUI, code 19 of CTL, code 14 of VI32, kind 4 of major 0x3F,
major 0 (R140, R158, R159, R162, R200, R133). -/
theorem test_decode_reserved :
    [0x044083E0, 0x044083C8, 0x0820E864, 0x1D300000, 0x4C3042E0, 0xFE000000, 0x00000000].all
      (fun w => decodeTableWord 32 w = none) = true := by decide +kernel

/-! ### Well-formedness: one ill-formed term for each check, and its legal neighbour -/

/-- Operands that R130 refuses: an odd pair, a latch as a destination, a pair beyond 59, a group that is not aligned, a pair with a latch code. -/
theorem test_wf_operands :
    [Instr.sadd ⟨4, 3, 6, 1, 0⟩, .sadd ⟨60, 2, 4, 0, 0⟩, .sadd ⟨4, 60, 6, 1, 0⟩, .barb ⟨1, 6⟩, .gath ⟨3, 7, 10, 0⟩, .mma ⟨0, 2, 24, 0, 0, 0, 0⟩,
     .vaddI64 ⟨4, 7, 8, 0, 0, 0⟩].all (fun i => !wf i) &&
    [Instr.sadd ⟨4, 2, 6, 1, 0⟩, .sadd ⟨4, 60, 63, 0, 0⟩, .barb ⟨0, 6⟩, .gath ⟨3, 8, 10, 0⟩, .mma ⟨0, 4, 24, 0, 0, 0, 0⟩,
     .vaddI64 ⟨4, 6, 8, 0, 0, 0⟩].all wf = true := by decide +kernel

/-- Fields that R50, R135, R139, R141, R142, R143, R203, R204 and R205 refuse. -/
theorem test_wf_fields :
    [Instr.sget ⟨4, 0x046⟩, .sset ⟨6, 0x012⟩, .vget ⟨4, 3, 0⟩, .vset ⟨6, 1, 0⟩, .fence ⟨6⟩, .gsplit ⟨3, 3⟩, .gfuse ⟨3, 0⟩, .gfuse ⟨3, 5⟩,
     .vceq ⟨0, 1, 2, 0, 0, 0⟩, .vceq ⟨1, 1, 2, 3, 0, 0⟩, .vcun ⟨1, 1, 2, 11, 0, 0⟩, .vcvt ⟨2, 1, 3, 3, 0, 0, 0⟩, .vcvt ⟨2, 1, 3, 0, 4, 0, 0⟩,
     .mand ⟨0, 1, 2⟩, .vballot ⟨0, 1, 0⟩, .vld ⟨8, 2, 6, 2, 1, 0, 0, 0⟩, .sld ⟨4, 2, 3, 1, 0, 0⟩, .cpy ⟨3, 4, 6, 3, 0⟩,
     .mma ⟨0, 8, 24, 0, 2, 0, 0⟩, .hmod ⟨1, 1, 1, 6, 0, 0⟩, .hmod ⟨0, 1, 0, 0, 0, 0⟩].all (fun i => !wf i) &&
    [Instr.sget ⟨4, 0x045⟩, .sset ⟨6, 0x013⟩, .vget ⟨4, 2, 0⟩, .vset ⟨6, 2, 0⟩, .fence ⟨5⟩, .gsplit ⟨3, 2⟩, .gfuse ⟨3, 1⟩, .gfuse ⟨3, 4⟩,
     .vceq ⟨1, 1, 2, 0, 0, 0⟩, .vcun ⟨1, 1, 2, 0, 0, 0⟩, .vcvt ⟨2, 1, 3, 0, 3, 0, 0⟩, .mand ⟨1, 1, 2⟩, .vballot ⟨1, 1, 0⟩,
     .vld ⟨8, 2, 6, 1, 1, 0, 0, 0⟩, .cpy ⟨3, 4, 6, 2, 0⟩, .mma ⟨0, 8, 24, 0, 1, 0, 0⟩, .hmod ⟨1, 1, 1, 5, 0, 0⟩].all wf = true := by
  decide +kernel

/-- Events that name a part the package does not have (R1), one for each arm of `eventOk`. -/
theorem test_wf_events :
    [Instr.weightRecomputation 48, .starvationGuard 48, .waveToken 48, .coreArrival 48, .release 48, .stragglerExpiry 48,
     .stragglerKill 48, .clusterDispatch 4, .starvationResolution 48, .pageTableWalk 4 0, .cxmInval 64 0, .invalidationComplete 64,
     .cxmResume 64 0, .pfdLineIssue 4, .pfdBudgetWindow 4, .parityFlip 48, .selfTest 48 0 true true, .selfTest 0 4 true true,
     .softError (.vector 0 0 128), .softError (.issueState 48), .softError (.dieControl 4), .dieLost 4, .gridCompletion 64 0,
     .doorbell 1024 0, .queueEnable 1024 0, .queueDisable 1024 0, .clr 1024, .peerWrite (.slot 0 1024 0 []),
     .peerWrite (.doorbell 0 1024 0), .contextCreate 64 1, .contextFree 64 0, .preemptionRequest 64 1, .drainPeriod 64,
     .poolCfg 4 0 0 0, .poolCfg 0 64 0 0, .poolCfg 0 0 16 0, .mxctlFence 48 1, .retest 48 1, .dieAuthentication 0 true,
     .dieAuthentication 4 true, .throttle 4 0, .throttle 0 5, .snapshotLatch 117, .rbsel 48 0].all (fun i => !wf i) &&
    [Instr.release 47, .clusterDispatch 3, .cxmInval 63 0, .doorbell 1023 0, .poolCfg 3 63 15 0, .dieAuthentication 1 true,
     .throttle 3 4, .snapshotLatch 116, .selfTest 47 3 true true].all wf = true := by decide +kernel

/-! ### Single steps -/

/-- One group of 32 lanes of a resident workgroup on core 0, with room for every register. -/
def one : State := { State.reset.withFetchWord 32 0 with agenda := [] }

/-- The same with scalar registers set. -/
def oneS (l : List (Nat × Word)) : State := one.modGroup 0 (fun x => l.foldl (fun x p => x.writeS p.1 p.2 p.1 none) x)

/-- The same with every lane of vector registers set. -/
def oneV (l : List (Nat × Word)) : State :=
  one.modGroup 0 (fun x => l.foldl (fun x p => x.writeV p.1 (fullMask 32) (fun _ => p.2) ((List.range 4).map (fun q => 4 * p.1 + q))) x)

/-- What the group holds after an instruction that answers a next state. -/
def after {α : Type} (i : Instr) (s : State) (f : Group → α) : Option α :=
  match exec i s with
  | .next t => some (f (t.group 0))
  | _ => none

/-- SADD wraps at 2^32; SDIV.i of the least number by -1 gives the least number (R158). -/
theorem test_scalar_corners :
    after (.sadd ⟨4, 2, 3, 0, 0⟩) (oneS [(2, 0xFFFFFFFF), (3, 2)]) (·.readS 4) = some 1 ∧
    after (.sdivI ⟨4, 2, 3, 0, 0⟩) (oneS [(2, 0x80000000), (3, 0xFFFFFFFF)]) (·.readS 4) = some 0x80000000 ∧
    after (.sdivI ⟨4, 2, 3, 0, 0⟩) (oneS [(2, 7), (3, 0)]) (·.readS 4) = some 0 ∧
    after (.sremI ⟨4, 2, 3, 0, 0⟩) (oneS [(2, 0xFFFFFFF9), (3, 2)]) (·.readS 4) = some 0xFFFFFFFF ∧
    after (.sshrI ⟨2, 2, 3, 0, 0⟩) (oneS [(2, 0x80000000), (3, 31)]) (·.readS 2) = some 0xFFFFFFFF ∧
    after (.sclz ⟨4, 2, 0, 0⟩) (oneS [(2, 0)]) (·.readS 4) = some 32 ∧
    after (.smulhN ⟨4, 2, 3, 0, 0⟩) (oneS [(2, 0xFFFFFFFF), (3, 0xFFFFFFFF)]) (·.readS 4) = some 0xFFFFFFFE := by decide +kernel

/-- With DW set a pair is written; with WS set only the chain is (R65, R158). -/
theorem test_scalar_pair_and_chain :
    after (.sadd ⟨4, 2, 2, 1, 0⟩) (oneS [(2, 0x80000000), (3, 0)]) (fun x => (x.readS 4, x.readS 5)) = some (0, 1) ∧
    after (.sadd ⟨4, 2, 3, 0, 1⟩) (oneS [(2, 1), (3, 2)]) (fun x => (x.readS 4, (x.sk.getD 0 noLatch).val)) = some (0, [3]) := by
  decide +kernel

/-- BLTZ jumps back and a bundle's immediate takes the place of its offset (R134, R163). -/
theorem test_branch :
    after (.bltz ⟨2, -2⟩) (oneS [(2, 0xFFFFFFFF)]) (·.pc) = some 65528 ∧ after (.bltz ⟨2, -2⟩) (oneS [(2, 1)]) (·.pc) = some 65540 ∧
    after (.bltz ⟨2, 0⟩) ((oneS [(2, 0xFFFFFFFF)]).modGroup 0 (fun x => { x with bundle := some ⟨65532, none, some 4, none⟩ })) (·.pc) =
      some 65552 := by decide +kernel

/-- CALL pushes the next word's address and RET goes there (R163, R164); a RET with nothing pushed ends the workgroup (R307). -/
theorem test_call_return :
    after (.call ⟨10⟩) one (fun x => (x.pc, x.rstk)) = some (65576, [65540]) ∧
    after .ret (one.modGroup 0 (fun x => { x with rstk := [64] })) (fun x => (x.pc, x.rstk)) = some (64, []) ∧
    after .ret one (·.status) = some .terminated := by decide +kernel

/-- VIF with an empty side goes to the reconvergence PC; VELSE turns the mask (R167, R168). -/
theorem test_mask_stack :
    after (.vif ⟨2, 0, 0, 4⟩) one (fun x => (x.pc, x.mstk)) = some (65552, [⟨0, 0, 65552⟩]) ∧
    after (.vif ⟨2, 1, 0, 4⟩) one (fun x => (x.pc, x.curMask)) = some (65540, 0xFFFFFFFF) ∧
    after .velse (one.modGroup 0 (fun x => { x with mstk := [⟨65536, 0xFF, 65600⟩] })) (fun x => (x.pc, x.curMask)) =
      some (65540, 0xFFFFFF00) := by decide +kernel

/-- VADDS.i32 clamps and raises SAT (bit 5 of R79); VDIV.n32 by 0 gives 0 and DZ; VABS of the least number raises OF (R200). -/
theorem test_integer_lanes :
    after (.vaddsI32 ⟨3, 1, 2, 0, 0, 0⟩) (oneV [(1, 0x7FFFFFFF), (2, 1)]) (fun x => (x.readV 3 31, x.flag 31)) = some (0x7FFFFFFF, flagSAT) ∧
    after (.vdivN32 ⟨3, 1, 2, 0, 0, 0⟩) (oneV [(1, 7)]) (fun x => (x.readV 3 0, x.flag 0)) = some (0, flagDZ) ∧
    after (.vabsI32 ⟨3, 1, 0, 0, 0⟩) (oneV [(1, 0x80000000)]) (fun x => (x.readV 3 5, x.flag 5)) = some (0x80000000, flagOF) := by
  decide +kernel

/-- 1.0 + 2^-24 rounds to even with NX in RNE and up in RUP (R77); 1.5 × 2 + 1 = 4 in one rounding (R197). -/
theorem test_float_lanes :
    after (.vaddF32 ⟨3, 1, 2, 0, 0, 0⟩) (oneV [(1, 0x3F800000), (2, 0x33800000)]) (fun x => (x.readV 3 0, x.flag 0)) =
      some (0x3F800000, flagNX) ∧
    after (.vaddF32 ⟨3, 1, 2, 0, 0, 0⟩) ((oneV [(1, 0x3F800000), (2, 0x33800000)]).modGroup 0
      (fun x => { x with bundle := some ⟨65532, none, none, some ⟨1, 2, 0, 0, 0, 0⟩⟩ })) (·.readV 3 0) = some 0x3F800001 ∧
    after (.vfmaF32 ⟨3, 1, 2, 0, 0, 0⟩) (oneV [(1, 0x3FC00000), (2, 0x40000000), (3, 0x3F800000)]) (·.readV 3 0) = some 0x40800000 := by
  decide +kernel

/-- Compares with NaN (R203): VCNE is 1 and VCEQ is 0; a packed conversion keeps the other elements (R205). -/
theorem test_compare_and_convert :
    after (.vcne ⟨1, 1, 2, 0, 0, 0⟩) (oneV [(1, 0x7FC00000), (2, 0)]) (·.mask 1) = some 0xFFFFFFFF ∧
    after (.vceq ⟨1, 1, 2, 0, 0, 0⟩) (oneV [(1, 0x80000000), (2, 0)]) (·.mask 1) = some 0xFFFFFFFF ∧
    after (.vcvt ⟨5, 1, 0, 1, 1, 0, 0⟩) (oneV [(1, 0x3F800000), (5, 0x00001234)]) (·.readV 5 9) = some 0x3C001234 := by decide +kernel

/-- VROT by 1, VSHUP by 1 and an inclusive sum (R215, R216), on lanes that hold their own number plus 1. -/
theorem test_cross_lane :
    let s := one.modGroup 0 (fun x => x.writeV 1 (fullMask 32) (fun l => BitVec.ofNat 32 (l + 1)) [0, 1, 2, 3])
    after (.vrot ⟨2, 1, 5, 0, 0, 0⟩) (s.modGroup 0 (fun x => x.writeS 5 1 0 none)) (fun x => (x.readV 2 0, x.readV 2 31)) = some (2, 1) ∧
    after (.vshup ⟨2, 1, 5, 0, 0, 0⟩) (s.modGroup 0 (fun x => x.writeS 5 1 0 none)) (fun x => (x.readV 2 0, x.readV 2 31)) = some (1, 31) ∧
    after (.vssumI32 ⟨2, 1, 0, 0, 0⟩) s (fun x => (x.readV 2 3, x.readV 2 31)) = some (10, 528) ∧
    after (.vrsumI32 ⟨2, 1, 0, 0, 0⟩) s (·.readV 2 7) = some 528 := by decide +kernel

/-- A store to the own scratchpad is little-endian, and a load of two bytes sign-extends (R3, R221, R222). -/
theorem test_memory :
    let s := ((oneS [(2, 0), (3, 0x0F000000), (6, 0x8899AABB)]).setWg 0 { one.wg 0 with lines := 8 })
    (match exec (.sst ⟨6, 2, 2, 0, 16⟩) s with
      | .next t => (List.range 5).map (fun i => t.byteAt (spadLoc 0 (16 + i)))
      | _ => []) = [0xBB, 0xAA, 0x99, 0x88, 0] ∧
    (match exec (.sst ⟨6, 2, 2, 0, 16⟩) s with
      | .next t => after (.sld ⟨8, 2, 1, 1, 0, 18⟩) t (·.readS 8)
      | _ => none) = some 0xFFFF8899 := by decide +kernel

/-- An unhandled trap ends the workgroup (R307); a handled one saves PC and cause and goes to the handler (R305). -/
theorem test_traps :
    after (.trap ⟨5⟩) one (fun x => (x.status, x.pc)) = some (.terminated, 65536) ∧
    after (.trap ⟨5⟩) (one.setCtx 0 { one.ctx 0 with trap := 0x20001 }) (fun x => (x.pc, x.readS 52, x.handler)) =
      some (0x20000, 65536, true) := by decide +kernel

/-- A step with nothing chosen is one clk, and a step that issues runs the word at the program counter: NOP (R29, R191). -/
theorem test_step :
    (match step (State.reset.withFetchWord 32 0x1C000000) with | .next t => some (t.group 0).pc | _ => none) = some 65540 ∧
    (match step State.reset with | .next t => some t.agenda | _ => none) = some [] := by decide +kernel

/-! ### Witnesses: the hypotheses of the statements are met -/

/-- The checks of `Ready`, each as a Bool. -/
def readyChecks (i : Instr) (s : State) : List Bool :=
  let n := Instr.info i
  [encodingOk n s.me, classOk n.cls (s.core s.myCore).exchange (s.ctx s.myCtx).phased, !(n.reads s.me).any (fun o => s.srcBusy s.cur o),
   !n.dsts.any (fun o => s.dstBusy s.cur o (s.me.execMask n.pred)), !n.srcs.any (fun o => o.isLatch && !(o.latch s.me).valid),
   !(n.idemTrap && s.me.region.isSome), !(s.reader i).badReads n]

/-- `Ready` as one Bool. -/
def readyB (i : Instr) (s : State) : Bool := (readyChecks i s).all id

/-- `Ready` and `HasRoom` as one Bool. -/
def readyRoom (i : Instr) (s : State) (nv ns : Nat) : Bool := readyB i s && (s.seen i).room (s.reader i).wg nv ns

theorem ready_of {i : Instr} {s : State} (h : readyB i s = true) : Ready i s := by
  have c : ∀ b ∈ readyChecks i s, b = true := List.all_eq_true.1 h
  simp only [readyChecks, List.forall_mem_cons, Bool.not_eq_true'] at c
  exact ⟨c.1, c.2.1, c.2.2.1, c.2.2.2.1, c.2.2.2.2.1, c.2.2.2.2.2.1, c.2.2.2.2.2.2.1⟩

theorem ready_room_of {i : Instr} {s : State} {nv ns : Nat} (h : readyRoom i s nv ns = true) : Ready i s ∧ HasRoom i s nv ns := by
  simp only [readyRoom, Bool.and_eq_true] at h
  exact ⟨ready_of h.1, h.2⟩

/-- The group changed. -/
def oneG (f : Group → Group) : State := one.modGroup 0 f

/-- An immediate in the bundle. -/
def immState (s : State) (v : Word) : State := s.modGroup 0 (fun x => { x with bundle := some ⟨65532, none, some v, none⟩ })

/-- SALU with pairs, single registers and no destination, its one-source forms, SALUI with and without an immediate. -/
theorem witness_ScalarArithmetic :
    (saluRows.all (fun r => readyRoom (r.instr ⟨2, 4, 6, 1, 0⟩) one 0 2 && readyRoom (r.instr ⟨2, 4, 5, 0, 0⟩) one 0 1 &&
      readyRoom (r.instr ⟨2, 4, 6, 1, 1⟩) one 0 0) &&
    salu1Rows.all (fun r => readyRoom (r.1 ⟨2, 4, 1, 0⟩) one 0 2 && readyRoom (r.1 ⟨2, 4, 0, 1⟩) one 0 0) &&
    saluiRows.all (fun r => readyRoom (r.1 ⟨2, 4, 31⟩) one 0 1 && readyRoom (r.1 ⟨2, 4, 0⟩) (immState one 31) 0 1) &&
    readyRoom (.smovi ⟨2, 512⟩) one 0 1) = true := by decide +kernel

/-- No flag owed, and a result in flight whose flags are. -/
theorem witness_SpecialRegisters :
    let owed : State := { one with pend := [(7, ⟨.slow, 0, 0, 0, [], []⟩)] }
    (specialRows.all (fun r => readyRoom (.sget ⟨2, r.1⟩) one 0 2) && !one.flagsPending one.cur && readyB (.sset ⟨6, 0x013⟩) one &&
      readyRoom (.vget ⟨4, 0, 0⟩) one 4 0 && readyRoom (.vget ⟨4, 2, 0⟩) one 4 0 && readyB (.vset ⟨6, 2, 0⟩) one) = true ∧
    (owed.flagsPending owed.cur && readyB (.sget ⟨2, 0x013⟩) owed && readyB (.sset ⟨6, 0x013⟩) owed && readyB (.vget ⟨4, 2, 0⟩) owed &&
      readyB (.vset ⟨6, 2, 0⟩) owed) = true := by decide +kernel

/-- An open region that began at depth `n` of the mask stack and at depth `k` of the return stack. -/
def regionFrom (n k : Nat) : Region :=
  ⟨65536, 65600, n, k, [], [], 0, false, 0, [], []⟩

def regionAt (n : Nat) : Region := regionFrom n 0

/-- Branches on 0, 1 and -1, each condition met and not met; calls at the last free entry and with none; aligned and misaligned targets;
returns above the depth that a region saved, at that depth, and with nothing pushed. -/
theorem witness_ControlTransfers :
    ([0, 1, 0xFFFFFFFF].all (fun v => branchRows.all (fun r => readyB (r.1 ⟨4, 2⟩) (oneS [(4, v)]))) && readyB (.jmp ⟨2⟩) one &&
      readyB .nop one && readyB (.call ⟨2⟩) (oneG (fun x => { x with rstk := List.replicate 15 0 })) &&
      readyB (.call ⟨2⟩) (oneG (fun x => { x with rstk := List.replicate 16 0 })) &&
      readyB (.calli ⟨4⟩) (oneS [(4, 64)]) && readyB (.calli ⟨4⟩) (oneS [(4, 66)]) && readyB (.jmpi ⟨4⟩) (oneS [(4, 66)]) &&
      readyB .ret (oneG (fun x => { x with rstk := [64] })) && readyB .ret one &&
      ((oneS [(4, 64)]).reader (.calli ⟨4⟩)).readS2 4 = 64 && ((oneS [(4, 66)]).reader (.calli ⟨4⟩)).readS2 4 = 66) = true ∧
    (∀ row ∈ branchRows, (∃ x ∈ [(0 : Int), 1, -1], row.2 x) ∧ ∃ x ∈ [(0 : Int), 1, -1], ¬ row.2 x) ∧
    (let inside := fun (k : Nat) => oneG (fun x => { x with rstk := [64], region := some (regionFrom 0 k) })
     one.me.rstk = [] ∧ one.me.region = none ∧
      ∀ k ∈ [0, 1], readyB .ret (inside k) = true ∧ (inside k).me.rstk = [64] ∧ (inside k).me.region = some (regionFrom 0 k)) := by
  refine ⟨by decide +kernel, by simp [branchRows], by decide +kernel⟩

theorem witness_IntegerLanes :
    (laneRows.all (fun r => readyRoom (r.instr ⟨2, 4, 6, 0, 0, 0⟩) one 4 0 && readyRoom (r.instr ⟨2, 4, 6, 1, 1, 1⟩) one 0 0) &&
    lane1Rows.all (fun r => readyRoom (r.1 ⟨2, 4, 0, 0, 0⟩) one 4 0) && readyRoom (.vbs ⟨2, 4, 0, 0, 0⟩) one 4 0 &&
    readyRoom (.vimm ⟨2, 0, 0, 0⟩) (immState one 7) 4 0 && readyRoom (.vsel ⟨2, 4, 6, 0, 0, 1⟩) one 4 0 &&
    wideRows.all (fun r => readyRoom (r.1 ⟨2, 4, 6, 0, 0, 0⟩) one 8 0)) = true ∧ (immState one 7).me.himm = some 7 := by
  decide +kernel

theorem witness_FloatLanes :
    (floatRows.all (fun r => readyRoom (r.instr ⟨2, 4, 6, 0, 0, 0⟩) one 4 0) &&
    float1Rows.all (fun r => readyRoom (r.instr ⟨2, 4, 0, 0, 0⟩) one 4 0)) = true := by decide +kernel

theorem witness_ApproximationBounds :
    (transcendentalRows.all (fun r => readyRoom (r.1 ⟨2, 4, 0, 0, 0⟩) one 4 0 && readyRoom (r.1 ⟨2, 4, 1, 1, 1⟩) one 0 0)) = true := by
  decide +kernel

/-- The largest finite value of FP32 plus half an ulp overflows in RNE; one code less does not. -/
theorem witness_RoundingIsCorrect :
    (fp32.round 0 false 0x1FFFFFF 103).2 &&& flagOF ≠ 0 ∧ (fp32.round 0 false 0x1FFFFFE 103).2 &&& flagOF = 0 ∧
    (fp32.round 1 false 1 128).2 &&& flagOF ≠ 0 ∧ (fp16.round 0 true 1 (-30)).2 &&& flagOF = 0 := by decide +kernel

theorem witness_ComparesAndMasks :
    (cmpRows.all (fun r => readyB (r.instr ⟨1, 2, 4, 0, 0, 0⟩) one) &&
    (cmpRows.take 6).all (fun r => readyB (r.instr ⟨7, 2, 4, 13, 0, 1⟩) one) &&
    maskRows.all (fun r => readyB (r.1 ⟨3, 1, 2⟩) one) && mask1Rows.all (fun r => readyB (r.1 ⟨3, 1⟩) one) &&
    readyB (.mlds ⟨3, 4⟩) one && readyRoom (.msts ⟨3, 4⟩) one 0 1 && readyRoom (.mpopc ⟨3, 4⟩) one 0 1 &&
    readyRoom (.mfirst ⟨3, 4⟩) one 0 1 && readyB (.vballot ⟨3, 4, 0⟩) one) = true := by decide +kernel

theorem witness_CrossLane :
    (shuffleRows.all (fun r => readyRoom (r.1 ⟨2, 4, 6, 0, 0, 0⟩) one 4 0) &&
    reduceRows.all (fun r => readyRoom (r.instr ⟨2, 4, 0, 0, 0⟩) one 4 0) &&
    scanRows.all (fun r => readyRoom (r.1 ⟨2, 4, 0, 0, 0⟩) one 4 0) && (fullMask 32).getLsbD 31) = true ∧ one.me.width = 2 ^ 5 := by
  decide +kernel

/-- Into one register and into a pair, from every other type. -/
theorem witness_Conversions :
    ((List.range 15).all (fun t => (t = 1 || readyRoom (.vcvt ⟨2, 4, BitVec.ofNat 4 t, 1, 1, 0, 0⟩) one 4 0) &&
      (t = 13 || readyRoom (.vcvtq ⟨2, 4, BitVec.ofNat 4 t, 13, 0, 0, 0⟩) one 8 0))) = true := by decide +kernel

theorem witness_TaggedBlocks :
    ([0, 1, 2, 3].all (fun (k : Nat) => readyRoom (.vbscale ⟨2, 4, BitVec.ofNat 2 k, 0, 0, 0⟩) one 4 0 &&
      readyRoom (.vquant ⟨2, 4, 6, BitVec.ofNat 2 k, 0, 0, 0⟩) one 4 0 && readyRoom (.vdeq ⟨4, 2, 3, BitVec.ofNat 2 k, 0, 0, 0⟩) one 16 0)) =
    true := by decide +kernel

/-- Two groups of 32 lanes of one workgroup, each changed. -/
def two (f h : Group → Group) : State :=
  let s := (one.setWg 0 { one.wg 0 with lanes := 64, lines := 8 }).setGroup 1 (h { one.group 0 with base := 32 })
  { s.modGroup 0 f with nextId := 2 }

theorem not_frozen_of {x : Group} (h : x.region = none) : ¬ frozen x := by
  rintro ⟨r, hr, _⟩; rw [h] at hr; cases hr

/-- VIF, VLOOP with 31 and 32 entries; VWHILE on its loop, with an empty stack and in a region that saved its entry; VELSE and VEND at
their entry, with an empty stack and in such a region. -/
theorem witness_MaskStack :
    let full := fun n => oneG (fun x => { x with mstk := List.replicate n ⟨0, 0xFF, 65600⟩ })
    let loop : MaskEntry := ⟨65521, 0xFF, 65600⟩
    let alt : MaskEntry := ⟨65536, 0xFF, 65536⟩
    (readyB (.vif ⟨2, 0, 3, 4⟩) (full 31) && readyB (.vif ⟨2, 0, 3, 4⟩) (full 32) && readyB (.vif ⟨2, 0, 0, 0⟩) (immState one 0x10002) &&
      readyB (.vloop ⟨5⟩) (full 31) && readyB (.vloop ⟨5⟩) (full 32) && readyB (.vwhile ⟨3, 1, 4⟩) one &&
      readyB (.vwhile ⟨3, 1, 4⟩) (oneG (fun x => { x with mstk := [loop] })) &&
      readyB (.vwhile ⟨3, 1, 4⟩) (oneG (fun x => { x with mstk := [loop], region := some (regionAt 1) })) &&
      readyB .velse one && readyB .vend one && readyB .velse (oneG (fun x => { x with mstk := [alt] })) &&
      readyB .vend (oneG (fun x => { x with mstk := [alt] })) &&
      readyB .velse (oneG (fun x => { x with mstk := [alt], region := some (regionAt 1) }))) = true ∧
    (loop.resume.getLsbD 0 = true ∧ loop.resume - 1 = one.me.pc - BitVec.ofNat 64 (4 * 4) ∧ one.me.pc.toNat < loop.recon.toNat) ∧
    (alt.resume ≠ 0 ∧ alt.resume = one.me.pc ∧ alt.recon = one.me.pc) ∧
    ¬ frozen (oneG (fun x => { x with mstk := [alt] })).me ∧ noReturn (oneG (fun x => { x with mstk := [alt] })).me ∧
    frozen (oneG (fun x => { x with mstk := [alt], region := some (regionAt 1) })).me := by
  refine ⟨by decide +kernel, by decide +kernel, by decide +kernel, not_frozen_of (by decide +kernel), ?_, ?_⟩
  · intro h hh; exact absurd hh (by rw [show (oneG _).me.holder = none by decide +kernel]; simp)
  · exact ⟨regionAt 1, by decide +kernel, by decide +kernel⟩

/-- EXIT of a holder, of the only group, and with a group that waits at a block barrier whose word names block 0. -/
theorem witness_Exit :
    let word := fun (s : State) => s.setBar (spadLoc 0 0) 1 0 0 32 0 1
    let s := word (two id (fun x => { x with wait := some ⟨.barrier (spadLoc 0 0) 32 true false, 0, 0, []⟩ }))
    (readyB .exit (oneG (fun x => { x with holder := some ⟨1, 1, []⟩ })) && readyB .exit one && readyB .exit s &&
      (oneG (fun x => { x with holder := some ⟨1, 1, []⟩ })).me.holder.isSome && s.namesLanes (spadLoc 0 0) s.me) = true ∧
    one.me.holder = none ∧ one.myWg.state ≠ .saved ∧ (∀ p ∈ one.groups, p.1 ≠ one.cur → p.2.wait = none) ∧
    (s.group 1).wait = some ⟨.barrier (spadLoc 0 0) 32 true false, 0, 0, []⟩ ∧ (s.group 1).status = .live ∧ (s.group 1).wg = s.me.wg ∧
    ∀ b ∈ s.barrierWaits, b.1 = spadLoc 0 0 ∨ b.1 + 32 ≤ spadLoc 0 0 ∨ spadLoc 0 0 + 32 ≤ b.1 := by
  decide +kernel

/-- The context of the group participates in phases, and the core is in superstep `n`. -/
def phased (n : Nat) : State :=
  (one.setCtx 0 { one.ctx 0 with phased := true }).setCore 0 { one.core 0 with ph := BitVec.ofNat 64 n }

theorem witness_SystemAndPhases :
    let owed : State := { one with stores := [(7, ⟨0, 0, 0, none⟩)] }
    (readyB .yield one && readyB .snap { one with root := { one.root with snapPerm := 1 } } && readyB (.fence ⟨0⟩) owed &&
      readyB (.fence ⟨1⟩) owed && readyB (.fence ⟨5⟩) one && readyB (.fence ⟨2⟩) owed && readyB (.trap ⟨255⟩) one && readyB .phend (phased 0) &&
      readyB .xend (phased 1) && readyB .gpwait one && readyB .gpwait (oneG (fun x => { x with rdDepth := 1 }))) = true ∧
    (∃ p ∈ owed.stores, p.2.g = owed.cur) ∧ (∀ p ∈ one.stores, p.2.g ≠ one.cur) ∧ one.me.rdDepth = 0 ∧
    Fmap.risingFrom 0 one.groups = true ∧ (Fmap.find one.groups one.cur).isSome = true := by
  refine ⟨by decide +kernel, ⟨_, List.mem_cons_self, rfl⟩, by decide +kernel, by decide +kernel⟩

/-- R114, R116: a group that fences at workgroup scope knows of what the other group of its workgroup read past the cache, and of what
it read itself; a fence at group scope tells it nothing. -/
theorem test_fence_learns :
    let s := two (fun x => { x with past := [(64, 3)] }) (fun x => { x with past := [(64, 2), (80, 9)] })
    let knows := fun (c : BitVec 3) => match execFence ⟨c⟩ s with
      | .next t => (Fmap.get 0 (t.group 0).past 64, Fmap.get 0 (t.group 0).past 80)
      | _ => (0, 0)
    knows 1 = (3, 9) ∧ knows 0 = (3, 0) := by decide +kernel

theorem witness_RegionsAndReaders :
    let listed := one.setWg 0 { one.wg 0 with kern := { Kernel.empty with regions := [(65536, 65600)] } }
    let depth := fun n => oneG (fun x => { x with rdDepth := n })
    let inside := oneG (fun x => { x with region := some { regionAt 0 with regionEnd := 65536 } })
    (readyB .idemb listed && readyB .idemb one && readyB .ideme inside && readyB .ideme one && readyB .rdenter (depth 0) &&
      readyB .rdenter (depth 254) && readyB .rdenter (depth 255) && readyB .rdexit (depth 1) && readyB .rdexit (depth 255) &&
      readyB .rdexit (depth 0)) = true ∧
    listed.myWg.kern.regions.find? (fun r => r.1 = listed.me.pc) = some (65536, 65600) ∧
    one.myWg.kern.regions.find? (fun r => r.1 = one.me.pc) = none ∧
    inside.me.region = some { regionAt 0 with regionEnd := 65536 } ∧ inside.me.pc = 65536 ∧ inside.me.mstk.length = 0 ∧
    inside.me.rstk.length = 0 ∧ one.me.region = none := by decide +kernel

/-! Barriers -/

/-- Two groups, the first line of the scratchpad a barrier line, the word's offset in s8 and a membership in s4 to s6. -/
def bar (off a b c : Word) : State :=
  let s := two (fun x => [(8, off), (4, a), (5, b), (6, c)].foldl (fun x p => x.writeS p.1 p.2 p.1 none) x) id
  { s with lines := [(spadLoc 0 0 / 128, { Line.reset with barrier := true })] }

/-- The conditions of `Arrives`, each decided. -/
def arrivesChecks (s : State) (m : Member) (off k : Nat) : List Bool :=
  let loc := spadLoc (s.wg k).core (128 * (s.wg k).line0 + off)
  let word : Bool := if s.barKind loc = 0 then s.validMember s.myWg m else m = s.storedMember loc
  let lanes := s.arrivalLanes s.me
  [decide (m.kind = 3 → s.hasExited k = false), decide (off < 1048576 ∧ off < 128 * (s.wg k).lines ∧ off % 32 = 0),
   (s.lineAt loc).barrier, word, decide (m.kind = 1 → ∀ r ∈ lanes, blocksNamed m r = true),
   decide (m.kind ≠ 1 → s.barArr loc + (lanes.map (·.2)).sum ≤ m.a), decide (m.kind = 3 → s.storesOut s.cur = false),
   decide (s.me.status = .live ∧ 0 < s.me.width)]

theorem arrives_of {s : State} {m : Member} {off k : Nat} (h : ∀ b ∈ arrivesChecks s m off k, b = true) : Arrives s m off k := by
  simp only [arrivesChecks, List.forall_mem_cons, decide_eq_true_eq] at h
  exact { alive := h.1, inside := ⟨h.2.1.1, h.2.1.2.1⟩, aligned := h.2.1.2.2, line := h.2.2.1, named := h.2.2.2.2.1
          total := h.2.2.2.2.2.1, acked := h.2.2.2.2.2.2.1, live := h.2.2.2.2.2.2.2.1
          member := by
            have w := h.2.2.2.1
            show if _ then _ else _
            split <;> rename_i c
            · rwa [if_pos c] at w
            · rw [if_neg c] at w; exact of_decide_eq_true w }

theorem witness_BarrierArrivals :
    (readyB (.barb ⟨4, 8⟩) (bar 0 3 0 0) && readyB (.barb ⟨4, 8⟩) (bar 96 1 0 0) && readyB (.barn ⟨4, 8⟩) (bar 0 64 7 0) &&
      readyB (.barn ⟨4, 8⟩) (bar 0 32 7 0) && readyB (.barc ⟨4, 8⟩) (bar 0 64 7 0) && readyB (.barc ⟨4, 8⟩) (bar 0 32 7 0)) = true ∧
    Arrives (bar 0 3 0 0) ⟨1, 3, 0⟩ 0 0 ∧ Arrives (bar 96 1 0 0) ⟨1, 1, 0⟩ 96 0 ∧ Arrives (bar 0 64 7 0) ⟨2, 64, 7⟩ 0 0 ∧
    Arrives (bar 0 32 7 0) ⟨2, 32, 7⟩ 0 0 ∧ Arrives (bar 0 64 7 0) ⟨3, 64, 7⟩ 0 0 ∧ Arrives (bar 0 32 7 0) ⟨3, 32, 7⟩ 0 0 ∧
    Listed (bar 0 3 0 0) ∧ (0 + 32 ≠ (⟨1, 3, 0⟩ : Member).need ∧ 0 + 32 = (⟨1, 1, 0⟩ : Member).need) ∧
    (∀ p ∈ (bar 0 3 0 0).groups, p.2.wg = (bar 0 3 0 0).me.wg → p.2.status ≠ .exited) ∧
    (∀ p ∈ (bar 0 3 0 0).myWg.members, (bar 0 3 0 0).hasExited p = false) := by
  refine ⟨by decide +kernel, ?_, ?_, ?_, ?_, ?_, ?_, ⟨by decide +kernel, by decide +kernel⟩, by decide +kernel⟩
  all_goals exact arrives_of (by decide +kernel)

/-- An exited rank-0 member; offsets 1,024 and 2^20 beyond the allocation; offset 16; an ordinary line; an empty mask, and another
membership than the stored one; lanes that the membership does not name, and more than it counts; BARC with a store out; and for
BLSET and BLCLR a line outside, a queue line, one already so, one not free and one free. -/
theorem witness_BarrierChecksAndLines :
    let gone := (bar 0 32 7 0).setWg 0 { (bar 0 32 7 0).wg 0 with members := [5] }
    let held := (bar 0 64 7 0).setBar (spadLoc 0 0) 0 9 64 32 0 2
    let line := fun (l : Line) => ({ bar 128 0 0 0 with lines := [(spadLoc 0 128 / 128, l)] } : State)
    let empty := line { Line.reset with full := false }
    let queue := line { Line.reset with queue := true }
    let owed : State := { bar 0 64 7 0 with stores := [(7, ⟨0, 0, 0, none⟩)] }
    let full := (bar 0 40 7 0).setBar (spadLoc 0 0) 0 7 40 32 0 2
    (readyB (.barc ⟨4, 8⟩) gone && gone.hasExited 5 && [1024, 1048576, 16, 128].all (fun o => readyB (.barn ⟨4, 8⟩) (bar o 32 7 0)) &&
      !((bar 128 32 7 0).lineAt (spadLoc 0 128)).barrier && readyB (.barb ⟨4, 8⟩) (bar 0 0 0 0) &&
      !(bar 0 0 0 0).validMember (bar 0 0 0 0).myWg ⟨1, 0, 0⟩ && readyB (.barn ⟨4, 8⟩) held && readyB (.blset ⟨8⟩) (bar 1024 0 0 0) &&
      readyB (.blset ⟨8⟩) (bar 0 0 0 0) && readyB (.blset ⟨8⟩) empty && readyB (.blset ⟨8⟩) (bar 128 0 0 0) &&
      readyB (.blclr ⟨8⟩) (bar 1023 0 0 0) && readyB (.blclr ⟨8⟩) held && readyB (.blclr ⟨8⟩) (bar 127 0 0 0) &&
      readyB (.blset ⟨8⟩) queue && readyB (.blclr ⟨8⟩) queue && (queue.lineAt (spadLoc 0 128)).queue) = true ∧
    (readyB (.barb ⟨4, 8⟩) (bar 0 2 0 0) = true ∧ ∃ r ∈ (bar 0 2 0 0).arrivalLanes (bar 0 2 0 0).me, blocksNamed ⟨1, 2, 0⟩ r = false) ∧
    (readyB (.barn ⟨4, 8⟩) full = true ∧ full.barArr (spadLoc 0 0) + ((full.arrivalLanes full.me).map (·.2)).sum = 64) ∧
    (readyB (.barc ⟨4, 8⟩) owed = true ∧ owed.storesOut owed.cur = true ∧ owed.validMember owed.myWg ⟨3, 64, 7⟩ = true) ∧
    held.barKind (spadLoc 0 0) ≠ 0 ∧ (⟨2, 64, 7⟩ : Member) ≠ held.storedMember (spadLoc 0 0) ∧
    ¬ ((empty.lineAt (spadLoc 0 128)).full = true ∧ (empty.lineAt (spadLoc 0 128)).count = 0) := by decide +kernel

/-- Each hint alone and after one that it may not follow. -/
theorem witness_HintWords :
    one.me.bundle = none ∧ (immState one 1).me.bundle ≠ none ∧ one.me.sig.toNat % 65536 = (0 : BitVec 16).toNat ∧
    one.me.sig.toNat % 65536 ≠ (1 : BitVec 16).toNat ∧
    ((5 : BitVec 3).toNat < 6 ∧ (2 : BitVec 2) ≠ 3) ∧ ¬ (6 : BitVec 3).toNat < 6 := by decide +kernel

/-! Width -/

theorem witness_Split :
    (readyRoom (.gsplit ⟨3, 2⟩) one 0 1 && readyRoom (.gsplit ⟨3, 0⟩) one 0 1 && !one.storesOut one.cur) = true ∧
    splitStatus one one.me 32 = 9 ∧ splitStatus one one.me 8 = 0 ∧ one.me.width ≤ 128 ∧ one.cur < one.nextId ∧
    ∀ p ∈ one.groups, p.2.rendezvous = none := by
  refine ⟨by decide +kernel, ?_, ?_, by decide +kernel, by decide +kernel, by decide +kernel⟩
  · rfl
  · rfl

/-- Waiting for a GFUSE into 64, or for a GCOMPACT. -/
def fusing (x : Group) : Group := { x with wait := some ⟨.fuse 64 3, 0, 0, []⟩ }
def compacting (m : Mask) (x : Group) : Group := { x with mstk := [⟨0, m, 65600⟩], wait := some ⟨.compact 3, 0, 0, []⟩ }

theorem listed_of {s : State} (h : (Fmap.risingFrom 0 s.groups && (Fmap.find s.groups s.cur).isSome) = true) : Listed s := by
  simpa [Listed] using h

/-- A group that the package does not list is a fresh one. -/
theorem group_unlisted {s : State} {g : Nat} (h : Fmap.find s.groups g = none) : s.group g = Group.fresh := by
  show Fmap.get _ s.groups g = _
  simp [Fmap.get, h]

/-- Groups 0 and 1 are all that `two` lists. -/
theorem two_unlisted (f h : Group → Group) (g : Nat) (hg : 2 ≤ g) : (two f h).group g = Group.fresh := by
  have e : (two f h).groups = [(0, (two f h).group 0), (1, (two f h).group 1)] := rfl
  refine group_unlisted ?_
  rw [e]
  simp [Fmap.find, show 0 ≠ g by omega, show 1 ≠ g by omega]

/-- Whether partners pass what GFUSE and GCOMPACT share of the table of R23. -/
def alikeB (s : State) (ps : List Group) : Bool :=
  ps.all (fun x => ps.all (fun y => x.pc == y.pc && x.rdDepth == y.rdDepth && x.rdPar == y.rdPar && x.rstk == y.rstk)) &&
    ps.all (fun p => p.region.isNone && !s.futurePending p && !p.batchOpen && p.batches.isEmpty)

theorem sharedStatus_of {s : State} {ps : List Group} {rest : Nat} (h : alikeB s ps = true) : sharedStatus s ps rest = rest := by
  simp only [alikeB, Bool.and_eq_true, List.all_eq_true, beq_iff_eq, Option.isNone_iff_eq_none, Bool.not_eq_true',
    List.isEmpty_iff] at h
  obtain ⟨same, free⟩ := h
  have pc : Alike (·.pc) ps := fun x hx y hy => by have := same x hx y hy; tauto
  have depth : Alike (·.rdDepth) ps := fun x hx y hy => by have := same x hx y hy; tauto
  have par : Alike (·.rdPar) ps := fun x hx y hy => by have := same x hx y hy; tauto
  have calls : Alike (·.rstk) ps := fun x hx y hy => by have := same x hx y hy; tauto
  unfold sharedStatus
  rw [if_neg (not_not.2 pc), if_neg (not_not.2 ⟨depth, par⟩), if_neg (not_not.2 calls), if_neg, if_neg]
  · rintro ⟨p, hp, hb⟩; have := free p hp; simp_all
  · rintro ⟨p, hp, hb⟩; have := free p hp; simp_all

/-- No partner, partners that have not arrived, one that waits under another target, and the last arrival, where all agree and where
the program counters differ. -/
theorem witness_Fuse :
    let clash := two id (fun x => { x with wait := some ⟨.fuse 128 3, 0, 0, []⟩ })
    let last := two id fusing
    let apart := two id (fun x => { fusing x with pc := 4 })
    ([one, two id id, clash, last, apart].all (fun s => readyRoom (.gfuse ⟨3, 3⟩) s 0 1) = true ∧
      earlyStatus one 0 0 64 false = 1 ∧ (∀ s ∈ [two id id, clash, last, apart], earlyStatus s 0 0 64 false = 0) ∧
      ∀ p ∈ last.groups, p.1 ∉ [0, 1] → p.2.rendezvous = none) ∧
    (∀ s ∈ [one, two id id, clash, last], Listed s) ∧ (∀ g, ¬ Clashes (two id id) 0 0 64 g) ∧
    (Clashes clash 0 0 64 1 ∧ ∀ g, Clashes clash 0 0 64 g → g ≠ clash.cur) ∧
    (∃ p ∈ (two id id).groups, p.1 = 1 ∧ p.2.wg = 0 ∧ p.2.status = .live ∧ p.2.base = 32 ∧ p.2.wait = none) ∧
    fuseStatus last ([0, 1].map last.group) 0 64 0 = 0 ∧ fuseStatus apart ([0, 1].map apart.group) 0 64 0 = 3 := by
  intro clash last apart
  have idle : ∀ g, (two id id).group g = Group.fresh ∨ ((two id id).group g).wait = none := fun g => by
    rcases g with _ | _ | g
    · exact .inr (by decide +kernel)
    · exact .inr (by decide +kernel)
    · exact .inl (two_unlisted _ _ _ (by omega))
  refine ⟨by decide +kernel, fun s hs => listed_of (by revert s; decide +kernel), fun g ⟨_, _, u, d, w, e, r, h, _⟩ => ?_,
    ⟨⟨by decide +kernel, by decide +kernel, 128, 3, 0, 0, [], by decide +kernel⟩, fun g ⟨_, _, u, d, w, e, r, h, _⟩ hg => ?_⟩,
    ⟨(1, (two id id).group 1), by decide +kernel⟩, ?_, ?_⟩
  · rcases idle g with i | i <;> rw [i] at h <;> cases h
  · rw [hg, show (clash.group clash.cur).wait = none by decide +kernel] at h; cases h
  · refine (sharedStatus_of (by decide +kernel)).trans ?_
    rw [if_neg, if_neg, if_neg]
    · unfold Alike; decide +kernel
    · rintro ⟨p, hp, h⟩; revert p; decide +kernel
    · rintro ⟨q, _, h, _⟩
      rw [show (last.core 0).fenced = 0 by decide +kernel] at h; simp at h
  · unfold fuseStatus sharedStatus
    rw [if_pos]
    unfold Alike; decide +kernel

/-- The groups of the last arrival. -/
theorem witness_Fuse_gathered : Gathered (two id fusing) ⟨3, 3⟩ [0, 1] := by
  have waits : ((two id fusing).group 1).wait = some ⟨.fuse 64 3, 0, 0, []⟩ := by decide +kernel
  constructor
  case bases =>
    rintro (_ | _ | j) g hg
    · cases hg; decide +kernel
    · cases hg; decide +kernel
    · simp at hg
  case waiting =>
    intro g hg hn
    have : g = 1 := by
      rcases List.mem_cons.1 hg with h | h
      · exact absurd (show g = (two id fusing).cur by rw [h]; decide +kernel) hn
      · simpa using h
    exact ⟨3, 0, 0, this ▸ waits⟩
  all_goals decide +kernel

theorem compactStatus_of {s : State} {a b : Group} (h : alikeB s [a, b] = true) (e e' : MaskEntry) (r r' : List MaskEntry)
    (ha : a.mstk = e :: r) (hb : b.mstk = e' :: r') (same : r.length = r'.length ∧ e.recon = e'.recon)
    (fit : countOf a.curMask + countOf b.curMask ≤ a.width) (st : a.stage = b.stage) : compactStatus s a b = 0 := by
  refine (sharedStatus_of h).trans ?_
  rw [if_neg (not_not.2 ⟨e, r, e', r', ha, hb, same.1, same.2⟩), if_neg (by omega), if_neg (not_not.2 st)]

/-- No sibling, a sibling that has not arrived, one that waits with an empty stack (a failing check), and one with lanes to merge. -/
theorem witness_CompactArrival :
    let ok := two (fun x => { x with mstk := [⟨0, 0xFF, 65600⟩] }) (compacting 0xF)
    let bad := two id (fun x => { x with wait := some ⟨.compact 3, 0, 0, []⟩ })
    (∀ s ∈ [one, two id id, ok, bad], readyRoom (.gcompact ⟨3⟩) s 0 1 = true ∧ Listed s) ∧
    (earlyStatus one 0 0 64 true = 1 ∧ ((two id id).group 1).inCompact = false ∧
      ∀ s ∈ [two id id, ok, bad], earlyStatus s 0 0 64 true = 0 ∧ s.sibling 0 = some 1) ∧
    (∀ s ∈ [ok, bad], (s.group 1).wait = some ⟨.compact 3, 0, 0, []⟩) ∧ compactStatus ok (ok.group 0) (ok.group 1) = 0 ∧
      compactStatus bad (bad.group 0) (bad.group 1) = 10 := by
  intro ok bad
  refine ⟨fun s hs => ⟨by revert s; decide +kernel, listed_of (by revert s; decide +kernel)⟩, by decide +kernel, by decide +kernel,
    compactStatus_of (by decide +kernel) ⟨0, 0xFF, 65600⟩ ⟨0, 0xF, 65600⟩ [] [] rfl rfl ⟨rfl, rfl⟩ (by decide +kernel) rfl, ?_⟩
  refine (sharedStatus_of (by decide +kernel)).trans (if_pos ?_)
  rintro ⟨e, r, _, _, h, _⟩
  cases h

/-- Both groups wait with 8 and 4 active lanes, with an entry held for each. -/
theorem witness_CompactedLanes :
    let s : State := { two (compacting 0xFF) (compacting 0xF) with
      pend := [(2, ⟨.status, 0, 0, 0, [], [40]⟩), (3, ⟨.status, 1, 0, 0, [], [41]⟩)] }
    let moves := (lanesOf (s.group 1).curMask).zip ((List.range (s.group 0).width).filter (fun l => !(s.group 0).curMask.getLsbD l))
    (s.sibling 0 = some 1 ∧ (∀ g ∈ [0, 1], (s.group g).status = .live ∧ (s.group g).wait = some ⟨.compact 3, 0, 0, []⟩ ∧
        s.vectorLoadsOut g = false ∧ s.matrixBusy g = false) ∧ (s.group 0).base < (s.group 1).base ∧ (s.wgOf 0).state = .resident ∧
      (s.group 0).width ≤ 128 ∧ Fmap.risingFrom 0 s.groups = true ∧ moves.length = 4 ∧
      s.room (s.group 0).wg (s.exchangeNeed 0 1 moves) 0 = true ∧ (s.group 2).rendezvous = none) ∧
    compactStatus s (s.group 0) (s.group 1) = 0 :=
  ⟨by decide +kernel, compactStatus_of (by decide +kernel) ⟨0, 0xFF, 65600⟩ ⟨0, 0xF, 65600⟩ [] [] rfl rfl ⟨rfl, rfl⟩ (by decide +kernel) rfl⟩

/-- A holder at the entry that ends its compaction, with two lanes to return. -/
theorem witness_CompactedLanes_return :
    let h : Compaction := ⟨1, 1, [(0, 8), (1, 9)]⟩
    let back := two (fun x => { x with mstk := [⟨65536, 0x3FF, 65536⟩], holder := some h }) (fun x => { x with parked := some 0 })
    ((readyB .velse back && readyB .vend back) = true ∧ back.me.mstk = [⟨65536, 0x3FF, 65536⟩] ∧ back.me.pc = 65536 ∧
      back.me.holder = some h ∧ h.level = back.me.mstk.length ∧ h.partner ≠ back.cur ∧ back.resultsOut back.cur = false ∧
      (h.moves.map (·.1)).Nodup ∧ (h.moves.map (·.2)).Nodup ∧ (∀ m ∈ h.moves, m.1 < 128 ∧ m.2 < 128) ∧
      back.room back.me.wg (back.exchangeNeed back.cur h.partner h.moves) 0 = true) ∧ ¬ frozen back.me :=
  ⟨by decide +kernel, not_frozen_of (by decide +kernel)⟩

/-- A member of a cluster that waits at a cluster barrier, and partners that wait in a GFUSE and in a GCOMPACT, for a group that exits. -/
theorem witness_Exit_waiters :
    let pair := fun (s : State) => s.setWg 0 { s.wg 0 with members := [0, 1] }
    let cluster := pair ((two id (fun x => { x with wg := 1, wait := some ⟨.barrier (spadLoc 0 0) 32 false true, 0, 0, []⟩ })).setWg 1
      { one.wg 0 with members := [0, 1] })
    let turned := [two id fusing, two id (compacting 0xF)]
    (∀ s ∈ cluster :: turned, readyB .exit s = true ∧ Listed s ∧ s.me.holder = none ∧ s.myWg.state ≠ .saved ∧ (s.group 1).status = .live) ∧
    ((cluster.group 1).wait = some ⟨.barrier (spadLoc 0 0) 32 false true, 0, 0, []⟩ ∧ (cluster.group 1).wg ∈ cluster.myWg.members ∧
      ∀ p ∈ cluster.groups, p.1 ≠ cluster.cur → p.2.wg = cluster.me.wg → p.2.status ≠ .live) ∧
    ∀ s ∈ turned, ((s.group 1).wait = some ⟨.fuse 64 3, 0, 0, []⟩ ∨ (s.group 1).wait = some ⟨.compact 3, 0, 0, []⟩) ∧
      (s.group 1).width = 32 ∧ (s.group 1).wg = s.me.wg ∧ (s.group 1).base / 64 * 64 < s.me.base + s.me.width ∧
      s.me.base < (s.group 1).base / 64 * 64 + 64 := by
  intro pair cluster turned
  have there : ∀ s ∈ cluster :: turned, (Fmap.risingFrom 0 s.groups && (Fmap.find s.groups s.cur).isSome) = true := by decide +kernel
  have ready : ∀ s ∈ cluster :: turned, readyB .exit s = true ∧ s.me.holder = none ∧ s.myWg.state ≠ .saved ∧
      (s.group 1).status = .live := by decide +kernel
  exact ⟨fun s hs => ⟨(ready s hs).1, listed_of (there s hs), (ready s hs).2⟩, by decide +kernel, by decide +kernel⟩

/-! Memory -/

/-- `Reaches` and `Accessible` as Bools. -/
def reachesB (s : State) (u : Use) (a : Access) : Bool :=
  match s.target s.me.wg a.va u.acc with
  | .memory pa _ mir _ =>
    ((s.core s.myCore).exchange || mir || paDie pa = s.myDie) && (!u.bank || decide (paKind pa = 1 ∧ paDie pa = s.myDie))
  | .spad loc _ => !u.bank && (u.acc != .store || (!(s.lineAt loc).barrier && !(s.lineAt loc).queue))
  | .slot _ => u.slotOk
  | _ => false

theorem reaches_of {s : State} {u : Use} {a : Access} (h : reachesB s u a = true) : Reaches s u a := by
  unfold reachesB at h
  unfold Reaches
  split at h <;> cases hb : u.bank <;> simp_all <;> tauto

def accessibleB (s : State) (u : Use) (l : List Access) : Bool :=
  l.all (fun a => decide (a.va.toNat % u.align = 0) && reachesB s u a) && (s.hits l u.acc).all (fun h => (s.conflicts u h).isEmpty)

theorem accessible_of {s : State} {u : Use} {l : List Access} (h : accessibleB s u l = true) : Accessible s u l := by
  simp only [accessibleB, Bool.and_eq_true, List.all_eq_true, decide_eq_true_eq] at h
  exact ⟨fun a ha => (h.1 a ha).1, fun a ha => reaches_of (h.1 a ha).2, fun _ x hx => List.isEmpty_iff.1 (h.2 x hx)⟩

def loadableB (s : State) (hs : List Hit) (bad : Option Hit) (nv ns : Nat) : Bool :=
  !s.emptyLine hs && s.room s.me.wg nv ns && bad.isNone

theorem loadable_of {s : State} {hs : List Hit} {bad : Option Hit} {nv ns : Nat} (h : loadableB s hs bad nv ns = true) :
    Loadable s hs bad nv ns := by
  simp only [loadableB, Bool.and_eq_true, Bool.not_eq_true', Option.isNone_iff_eq_none] at h
  exact ⟨h.1.1, h.1.2, h.2⟩

/-- Scalar registers set; a scratchpad of 64 lines; the page at 0x1_0000 in DRAM and that at 0x2_0000 in the die's own tier. -/
def mem (l : List (Nat × Word)) : State :=
  let s := oneS l
  let s := s.setWg 0 { s.wg 0 with lines := 64 }
  s.setCore 0 { s.core 0 with tlb := ⟨0, 2, 0, BitVec.ofNat 64 (physAddr 0 1 0 + 7)⟩ :: (s.core 0).tlb }

/-- The same with the vector pair v4:v5 as an address in every lane. -/
def memV (a : Word) : State :=
  (mem []).modGroup 0 (fun x => x.writeV 4 (fullMask 32) (fun _ => a) [60, 61, 62, 63])

/-- Loads of 1 to 8 bytes from DRAM, strided and by index, of a root slot's width, and the last word of the page, also where the L1
holds its line with other bytes than memory, with an address that depends on no load and on one after the line was filled (R113),
and with a byte of it read past the cache since (R112); and a poisoned word. -/
theorem witness_Loads :
    let s := mem [(2, 65536)]
    let last := mem [(2, 131068)]
    let held := last.setCore 0 { last.core 0 with l1 := [(1023, ⟨false, List.replicate 128 0x5A, 0, 0⟩)] }
    let later := held.modGroup 0 (fun x => ({ x with lastLoad := 5 } : Group).writeS 2 131068 2 none)
    let passed := held.modGroup 0 (fun x => { x with past := [(131069, 1)] })
    let bad : State := { last with poison := [(131068 / 8, true)] }
    (∀ z ∈ [0, 1, 2, 3], readyB (.vld ⟨8, 2, 6, BitVec.ofNat 2 z, 0, 1, 0, 0⟩) s = true ∧
      Accessible s { size := 2 ^ z, align := 2 ^ z, acc := .load, slotOk := 2 ^ z = 8, scope := 0 }
        (vectorAccesses s.me (fullMask 32) 2 6 false) ∧
      (let hs := s.hits (vectorAccesses s.me (fullMask 32) 2 6 false) .load
       Loadable s hs (s.poisonedLoad (fromLanes s.me 2 6 false) hs (2 ^ z)) 8 0)) ∧
    (readyB (.sld ⟨8, 2, 2, 0, 0, 0⟩) last = true ∧ Accessible last { size := 4, align := 4, acc := .load } [⟨none, 131068⟩] ∧
      (let hs := last.hits [⟨none, 131068⟩] .load
       Loadable last hs (last.poisonedLoad (fromPair last.me 2) hs 4) 0 1)) ∧
    (readyB (.sld ⟨8, 2, 2, 0, 0, 0⟩) held = true ∧ Accessible held { size := 4, align := 4, acc := .load } [⟨none, 131068⟩] ∧
      (let hs := held.hits [⟨none, 131068⟩] .load
       Loadable held hs (held.poisonedLoad (fromPair held.me 2) hs 4) 0 1) ∧
      supplied last 0 (last.target 0 131068 .load) 4 = 0 ∧ supplied held (fromPair held.me 2) (held.target 0 131068 .load) 4 = 0x5A5A5A5A ∧
      supplied later (fromPair later.me 2) (later.target 0 131068 .load) 4 = 0 ∧ supplied passed 0 (passed.target 0 131068 .load) 4 = 0 ∧
      supplied passed 0 (passed.target 0 131068 .load) 1 = 0x5A ∧ readyRoom (.sld ⟨8, 2, 2, 0, 0, 0⟩) bad 0 1 = true ∧
      (bad.poisonedLoad (fromPair bad.me 2) (bad.hits [⟨none, 131068⟩] .load) 4).isSome = true ∧
      bad.emptyLine (bad.hits [⟨none, 131068⟩] .load) = false) ∧
    (s.seen (.vld ⟨8, 2, 6, 2, 0, 1, 0, 0⟩) = s ∧ last.seen (.sld ⟨8, 2, 2, 0, 0, 0⟩) = last) := by
  refine ⟨?_, ⟨by decide +kernel, accessible_of (by decide +kernel), loadable_of (by decide +kernel)⟩,
    ⟨by decide +kernel, accessible_of (by decide +kernel), loadable_of (by decide +kernel), by decide +kernel⟩, by decide +kernel⟩
  intro z hz
  fin_cases hz
  all_goals exact ⟨by decide +kernel, accessible_of (by decide +kernel), loadable_of (by decide +kernel)⟩

/-- A load under policy BYPASS, whose bytes pass the cache, and one that is an acquire at workgroup scope. -/
theorem witness_Loads_past :
    let s := (mem [(2, 131068)]).modGroup 0 (fun x => { x with bundle := some ⟨65532, none, none, some ⟨0, 0, 0, 0, 1, 2⟩⟩ })
    let acquire := (mem [(2, 131068)]).modGroup 0 (fun x => { x with bundle := some ⟨65532, none, none, some ⟨0, 0, 1, 1, 0, 0⟩⟩ })
    (readyRoom (.sld ⟨8, 2, 2, 0, 0, 0⟩) s 0 1 = true ∧ readyRoom (.sld ⟨8, 2, 2, 0, 1, 0⟩) acquire 0 1 = true ∧ acquire.me.scope = 1 ∧
      (acquire.ctx acquire.myCtx).race ≠ 2) ∧ PastCache s [131068] 4 131071 ∧ ¬ PastCache s [131068] 4 131072 := by
  intro s acquire
  have at_ : s.target s.me.wg 131068 .load = .memory 131068 0 false false := by decide +kernel
  refine ⟨by decide +kernel, ⟨131068, by simp, 131068, 0, false, false, at_, by decide, by decide +kernel, by decide, by decide⟩, ?_⟩
  rintro ⟨va, hv, pa, cp, mir, res, h, _, _, _, lt⟩
  obtain rfl := List.mem_singleton.1 hv
  rw [at_] at h
  cases h
  omega

/-- Stores to DRAM and to the scratchpad, released and not, with an unacknowledged store and without. -/
theorem witness_Stores :
    let s := mem [(2, 65536)]
    let rel := (mem [(2, 65536)]).modGroup 0 (fun x => { x with bundle := some ⟨65532, none, none, some ⟨0, 0, 1, 4, 0, 0⟩⟩ })
    let owed : State := { rel with stores := [(7, ⟨0, 0, 0, none⟩)] }
    (readyB (.vst ⟨4, 2, 6, 2, 0, 0, 0⟩) s && readyB (.vst ⟨4, 2, 6, 2, 1, 0, 0⟩) rel && readyB (.vst ⟨4, 2, 6, 2, 1, 0, 0⟩) owed &&
      readyB (.sst ⟨6, 2, 3, 0, 8⟩) s) = true ∧
    Accessible s { size := 4, align := 4, acc := .store, scope := 0 } (vectorAccesses s.me (fullMask 32) 2 6 false) ∧
    (∀ t ∈ [rel, owed], Accessible t { size := 4, align := 4, acc := .store, scope := 4 } (vectorAccesses s.me (fullMask 32) 2 6 false)) ∧
    Accessible s { size := 8, align := 8, acc := .store, scope := 0 } [⟨none, 65544⟩] ∧
    (rel.me.scope = 4 ∧ rel.storesOut rel.cur = false ∧ owed.storesOut owed.cur = true) := by
  refine ⟨by decide +kernel, accessible_of (by decide +kernel), fun t ht => accessible_of ?_, accessible_of (by decide +kernel),
    by decide +kernel⟩
  revert t; decide +kernel

/-- A strided store of 32 words and a scalar one that answer a next state, where races are logged too. -/
theorem witness_StoredBytes :
    let s := mem [(2, 65536), (6, 4)]
    let f : FmtVst := ⟨4, 2, 6, 2, 0, 1, 0⟩
    readyB (.vst f) s = true ∧ (s.ctx s.myCtx).race ≠ 2 ∧
    Accessible s { size := 4, align := 4, acc := .store, scope := 0 } (vectorAccesses s.me (fullMask 32) 2 6 true) ∧
    (∃ t, exec (.vst f) s = .next t) ∧
    (∀ r ∈ [0, 2], let u := s.setCtx 0 { s.ctx 0 with race := r }
      readyB (.sst ⟨6, 2, 3, 0, 8⟩) u = true ∧ Accessible u { size := 8, align := 8, acc := .store, scope := 0 } [⟨none, 65544⟩] ∧
        ∃ t, exec (.sst ⟨6, 2, 3, 0, 8⟩) u = .next t) ∧ placeOf s .store (laneAddr s.me 2 6 true 31) = some 65660 := by
  refine ⟨by decide +kernel, by decide +kernel, accessible_of (by decide +kernel),
    by unfold exec execVst; exact issue_answers _ _ _, fun r hr => ⟨by revert r; decide +kernel, accessible_of (by revert r; decide +kernel),
      by unfold exec execSst; exact issue_answers _ _ _⟩, by decide +kernel⟩

/-- Atomics on DRAM and bank operations on the tier. -/
theorem witness_VectorAtomics :
    let s := memV 65536
    let b := memV 131072
    (atomicRows.all (fun r => readyB (r.1 ⟨8, 4, 6, 0, 0, 0⟩) (if r.2.2 then b else s)) &&
      atomic1Rows.all (fun r => readyB (r.1 ⟨8, 4, 6, 0, 0⟩) (if r.2.2.1 then b else s))) = true ∧
    (let l := (lanesOf (fullMask 32)).map (fun k => (⟨some k, s.me.readV2 4 k⟩ : Access))
     Accessible s { size := 4, align := 4, acc := .store, atomic := true, scope := 0 } l ∧
       Loadable s (s.hits l .store) (s.poisonedHit (s.hits l .store) 4) 4 0) ∧
    (let l := (lanesOf (fullMask 32)).map (fun k => (⟨some k, b.me.readV2 4 k⟩ : Access))
     Accessible b { size := 8, align := 8, acc := .store, bank := true, atomic := true, scope := 3 } l ∧
       Loadable b (b.hits l .store) (b.poisonedHit (b.hits l .store) 8) 8 0) := by
  refine ⟨by decide +kernel, ⟨accessible_of (by decide +kernel), loadable_of (by decide +kernel)⟩,
    accessible_of (by decide +kernel), loadable_of (by decide +kernel)⟩

theorem witness_ScalarAtomics :
    let s := mem [(2, 65536)]
    (scalarAtomicRows.all (fun r => readyB (r.1 ⟨8, 2, 6, 0, 0⟩) s) && readyB (.satomAddF32 ⟨8, 2, 6, 0⟩) s) = true ∧
    (s.ctx s.myCtx).race ≠ 2 ∧ Accessible s { size := 8, align := 8, acc := .store, atomic := true, scope := 0 } [⟨none, 65536⟩] ∧
    Loadable s (s.hits [⟨none, 65536⟩] .store) (s.poisonedHit (s.hits [⟨none, 65536⟩] .store) 8) 0 2 := by
  refine ⟨by decide +kernel, by decide +kernel, accessible_of (by decide +kernel), loadable_of (by decide +kernel)⟩

/-- The largest operands of 32 bits, and a place in memory; and a pair that is above another, and one that is not: +0 beside a NaN. -/
theorem witness_OneAtomic :
    ((4294967295 : Nat) < 2 ^ 32 ∧ (Target.memory 65536 0 false false).loc? = some 65536 ∧ (Target.spad 65536 0).loc? = some 65536) ∧
    (let nan := 0x7FC00000 * 4294967296
     nan < 2 ^ 64 ∧ PairAbove 0 nan ∧ ¬ PairAbove nan 0) := by
  have zero : (meaning fp32 (0 / 4294967296)).isNan = false := by decide +kernel
  have nan : (meaning fp32 (0x7FC00000 * 4294967296 / 4294967296)).isNan = true := by decide +kernel
  refine ⟨by decide, by decide, .inl ⟨zero, .inl nan⟩, ?_⟩
  rintro (⟨h, _⟩ | ⟨⟨h, _⟩ | h, _⟩)
  · rw [nan] at h; cases h
  · rw [zero] at h; cases h
  · exact Bool.noConfusion (zero.symm.trans ((congrArg Number.isNan h).trans nan))

theorem witness_TagsAndFullBits :
    let s := mem [(2, 65600)]
    let pad := mem [(2, 0), (3, 0x0F000000)]
    let marked := fun (l : Line) => ({ pad with lines := [(spadLoc 0 0 / 128, l)] } : State)
    (readyRoom (.tagld ⟨4, 2⟩) s 0 1 && readyB (.tagst ⟨2, 5⟩) s && readyB (.sete ⟨2⟩) pad && readyB (.setf ⟨2⟩) s &&
      readyB (.sete ⟨2⟩) (marked { Line.reset with barrier := true }) && readyB (.setf ⟨2⟩) (marked { Line.reset with queue := true })) = true ∧
    placeOf s .load 65600 = some 65600 ∧ Accessible s { size := 64, align := 64, acc := .load } [⟨none, 65600⟩] ∧
    Accessible s { size := 64, align := 64, acc := .store } [⟨none, 65600⟩] ∧ s.emptyLine (s.hits [⟨none, 65600⟩] .load) = false ∧
    Fmap.get false s.tagPoison (65600 / 64) = false ∧ (s.ctx s.myCtx).race ≠ 2 ∧
    pad.target pad.me.wg 0x0F00000000000000 .store = .spad (spadLoc 0 0) 0 ∧
    s.target s.me.wg 65600 .store = .memory 65600 0 false false ∧
    (paKind 65600 = 0 ∧ s.target s.me.wg 65600 .load = .memory 65600 0 false false) ∧
    (let far := (mem [(2, 0), (3, 0x0F000000)]).setWg 0 { (mem []).wg 0 with members := [5] }
     far.target 0 0x0F00000000400000 .store = .exited) := by
  refine ⟨by decide +kernel, by decide +kernel, ?_, ?_, by decide +kernel⟩
  all_goals exact accessible_of (by decide +kernel)

/-- R112, R229: TAGLD makes each byte of its block, and no other, one that its group has read past the cache. -/
theorem test_tagld_past :
    (match execTagld ⟨4, 2⟩ (mem [(2, 65600)]) with
     | .next t => [65599, 65600, 65663, 65664].map (fun a => decide (Fmap.get 0 (t.group 0).past a = (mem []).nextId + 1))
     | _ => []) = [false, true, true, false] := by decide +kernel

/-- A queue of `cap` entries at line 0 whose entries lie from line 1 on, with HEAD `h` and TAIL `t`. -/
def queue (h t cap : Nat) : State :=
  let s : State := { mem [(2, 0), (3, 0x0F000000)] with lines := [(spadLoc 0 0 / 128, { Line.reset with queue := true })] }
  s.storeCells (cellsOf (spadLoc 0 0) (leBytes 4 h ++ leBytes 4 t ++ leBytes 4 cap ++ leBytes 4 128))

/-- The conditions of `QueueAt` as one Bool. -/
def queueAtB (s : State) (va : Dword) (loc : Nat) : Bool :=
  let off := va.toNat - 0x0F00000000000000
  decide (0x0F00000000000000 ≤ va.toNat) && decide (va.toNat < 0x0F00000000100000) && decide (off < 128 * s.myWg.lines) &&
    decide (loc = spadLoc s.myCore (128 * s.myWg.line0 + off) / 128 * 128) && (s.lineAt loc).queue

theorem queueAt_of {s : State} {va : Dword} {loc : Nat} (h : queueAtB s va loc = true) : QueueAt s va loc := by
  simp only [queueAtB, Bool.and_eq_true, decide_eq_true_eq] at h
  exact { window := h.1.1.1, inside := h.1.1.2, line := h.1.2, queue := h.2 }

/-- Pushes and pops of 32 values: room for exactly 32 and for 31, 32 entries and 31, and 32 of which the last is poisoned. -/
theorem witness_StageQueues :
    let loc := spadLoc 0 0
    let bad : State := { queue 0 32 32 with poison := [((queue 0 32 32).qEntry 0 loc 31 / 8, true)] }
    (readyB (.qpush ⟨2, 5, 0⟩) (queue 0 0 32) && readyB (.qpush ⟨2, 5, 0⟩) (queue 0 1 32) && readyRoom (.qpop ⟨6, 2, 0⟩) (queue 0 32 32) 4 0 &&
      readyRoom (.qpop ⟨6, 2, 0⟩) (queue 1 32 32) 4 0 && readyRoom (.qpop ⟨6, 2, 0⟩) bad 4 0) = true ∧
    (∀ s ∈ [queue 0 0 32, queue 0 1 32, queue 0 32 32, queue 1 32 32, bad], QueueAt s 0x0F00000000000000 loc ∧ s.me.readS2 2 = 0x0F00000000000000 ∧
      s.pushWaiters loc = [] ∧ s.popWaiters loc = [] ∧ countOf (s.me.execMask 0) = s.qCap loc) ∧
    ((queue 0 0 32).qUsed loc = 0 ∧ (queue 0 1 32).qUsed loc = 1 ∧ (queue 0 32 32).qUsed loc = 32 ∧ (queue 1 32 32).qUsed loc = 31 ∧
      bad.qUsed loc = 32) ∧ bad.poisoned (bad.qEntry 0 loc (bad.qHead loc + 31)) 4 = true ∧
    (∀ j < 32, (queue 0 32 32).poisoned ((queue 0 32 32).qEntry 0 loc j) 4 = false) := by
  intro loc bad
  refine ⟨by decide +kernel, fun s hs => ⟨queueAt_of (by revert s; decide +kernel), ?_⟩, by decide +kernel⟩
  revert s; decide +kernel

/-- Traps of a push of 32 values: a capacity of 31, an ordinary line, memory, a root slot, an offset beyond the allocation, and a member
that has exited. -/
theorem witness_StageQueues_stops :
    let at_ := fun (lo hi : Word) => (queue 0 0 31).modGroup 0 (fun x => (x.writeS 2 lo 2 none).writeS 3 hi 3 none)
    let push : Instr := .qpush ⟨2, 5, 0⟩
    let plain := at_ 128 0x0F000000
    let far := (at_ 0x400000 0x0F000000).setWg 0 { one.wg 0 with members := [5] }
    let slot := (at_ 0 0x0E000000).setCtx 0 { one.ctx 0 with mirror := 1 }
    (∀ s ∈ [at_ 0 0x0F000000, plain, at_ 65536 0, slot, at_ 0xF0000 0x0F000000, far], readyB push s = true ∧ s.me.execMask 0 ≠ 0) ∧
    (QueueAt (at_ 0 0x0F000000) 0x0F00000000000000 (spadLoc 0 0) ∧ (at_ 0 0x0F000000).qCap (spadLoc 0 0) < 32) ∧
    ((∀ loc, ¬ QueueAt plain 0x0F00000000000080 loc) ∧ plain.target 0 0x0F00000000000080 .load = .spad (spadLoc 0 128) 0) ∧
    ((∀ loc, ¬ QueueAt (at_ 65536 0) 65536 loc) ∧ (at_ 65536 0).target 0 65536 .load = .memory 65536 0 false false ∧ paDie 65536 = (at_ 65536 0).myDie) ∧
    slot.target 0 0x0E00000000000000 .load = .slot 0 ∧ (at_ 0xF0000 0x0F000000).target 0 0x0F000000000F0000 .load = .range ∧
    far.target 0 0x0F00000000400000 .load = .exited := by
  intro at_ push plain far slot
  refine ⟨by decide +kernel, ⟨queueAt_of (by decide +kernel), by decide +kernel⟩, ⟨fun loc h => ?_, by decide +kernel⟩,
    ⟨fun loc h => absurd h.window (by decide), by decide +kernel⟩, by decide +kernel⟩
  have q := h.queue
  rw [h.line, show (plain.lineAt (spadLoc plain.myCore (128 * plain.myWg.line0 + ((0x0F00000000000080 : Dword).toNat - 0x0F00000000000000)) / 128 * 128)).queue
    = false by decide +kernel] at q
  cases q

/-- A push that meets a waiting QPOP of all it leaves and of one entry more, and a pop that meets a waiting QPUSH of as many entries. -/
theorem witness_StageQueues_waiting :
    let loc := spadLoc 0 0
    let meets := fun (s : State) (k : WaitKind) => ({ s with
      groups := [(0, s.group 0), (1, { s.group 0 with base := 32, wait := some ⟨k, 0, fullMask 32, []⟩ })] } : State)
    let pop := meets (queue 0 0 64) (.qpop loc 5 6 (fullMask 32))
    let push := meets (queue 0 64 64) (.qpush loc 5 (List.replicate 32 7))
    (readyB (.qpush ⟨2, 5, 0⟩) pop && readyB (.qpush ⟨2, 5, 0⟩) (meets (queue 0 0 64) (.qpop loc 5 6 (fullMask 64))) &&
      readyRoom (.qpop ⟨6, 2, 0⟩) push 4 0) = true ∧
    OnePop pop loc 1 6 (fullMask 32) ∧ OnePush push loc 1 (List.replicate 32 7) ∧ (∀ s ∈ [pop, push], Listed s ∧ QueueAt s 0x0F00000000000000 loc) ∧
    (pop.qUsed loc = 0 ∧ pop.qCap loc = 64 ∧ push.qUsed loc = 64 ∧ countOf (push.me.execMask 0) = 32) ∧
    QueueLaid pop 0 loc := by
  intro loc meets pop push
  have popper : (pop.pushWaiters loc = [] ∧ 1 ≠ pop.cur ∧ (pop.group 1).wg = pop.me.wg) ∧
      (pop.group 1).wait = some ⟨.qpop loc 5 6 (fullMask 32), 0, fullMask 32, []⟩ ∧ pop.popWaiters loc = [(5, 1)] := by decide +kernel
  have pusher : (push.popWaiters loc = [] ∧ 1 ≠ push.cur ∧ (push.group 1).wg = push.me.wg) ∧
      (push.group 1).wait = some ⟨.qpush loc 5 (List.replicate 32 7), 0, fullMask 32, []⟩ ∧ push.pushWaiters loc = [(5, 1)] := by
    decide +kernel
  refine ⟨by decide +kernel, ⟨⟨5, 0, _, [], popper.2.1, by simp, popper.2.2⟩, popper.1.1, popper.1.2⟩,
    ⟨⟨5, 0, _, [], pusher.2⟩, pusher.1.1, pusher.1.2⟩,
    fun s hs => ⟨⟨by revert s; decide +kernel, by revert s; decide +kernel⟩, queueAt_of (by revert s; decide +kernel)⟩, by decide +kernel,
    fun e => .inr ?_⟩
  have base : pop.qBase loc = 128 ∧ (pop.wg 0).core = 0 ∧ (pop.wg 0).line0 = 0 := by decide +kernel
  rw [State.qEntry, base.1, base.2.1, base.2.2]
  simp only [loc, spadLoc]
  omega

/-- PUB with and without an unacknowledged store; pools not configured, with a freed block, with a new one and with none; a block freed,
one never allocated; RETIRE of each kind, of a reserved one, and into a full queue. -/
theorem witness_PublishAndPools :
    let base := mem [(2, 65536), (4, 65536 + 64), (10, 3), (16, 7), (17, 3), (20, 0), (21, 0x10000000), (22, 0), (23, 0x30000000)]
    let pool := fun (st : List Nat) (nx : Nat) => base.setPool 0 0 3 { base := 65536, cfg := BitVec.ofNat 64 (2 * 2 ^ 32 + 64), stack := st, next := nx, freed := [] }
    let owed : State := { pool [] 2 with stores := [(7, ⟨0, 0, 0, none⟩)] }
    (readyB (.pub ⟨2, 6⟩) base && readyB (.pub ⟨2, 6⟩) owed && readyB (.poola ⟨8, 10⟩) base && readyRoom (.poola ⟨8, 10⟩) (pool [0] 2) 0 2 &&
      readyRoom (.poola ⟨8, 10⟩) (pool [] 1) 0 2 && readyRoom (.poola ⟨8, 10⟩) (pool [] 2) 0 2 && readyB (.poolf ⟨4, 10⟩) (pool [] 2) &&
      readyB (.poolf ⟨4, 10⟩) (pool [] 1) && readyB (.poolf ⟨4, 10⟩) owed && readyRoom (.retire ⟨8, 4, 16⟩) (pool [] 2) 0 1 &&
      readyRoom (.retire ⟨8, 4, 20⟩) base 0 1 && readyB (.retire ⟨8, 4, 22⟩) base) = true ∧
    Accessible base { size := 8, align := 8, acc := .store, slotOk := true, scope := 4 } [⟨none, 65536⟩] ∧
    Accessible owed { size := 8, align := 8, acc := .store, slotOk := true, scope := 4 } [⟨none, 65536⟩] ∧
    base.storesOut base.cur = false ∧ owed.storesOut owed.cur = true ∧ (base.ctx base.myCtx).race ≠ 2 ∧
    (base.pool 0 0 3).configured = false ∧ ((pool [] 2).pool 0 0 3).configured = true ∧
    ((pool [] 2).pool 0 0 3).allocatedAt 65600 = some 1 ∧ ((pool [] 1).pool 0 0 3).allocatedAt 65600 = none ∧
    (base.die 0).retireQ.length < 65536 ∧
    (let held := base.setCore 1 { base.core 1 with l1 := [(512, ⟨false, List.replicate 128 0x5A, 0, 0⟩)] }
     readyB (.pub ⟨2, 6⟩) held = true ∧ held.target 0 65536 .store = .memory 65536 0 false false ∧ 1 / 12 = held.myDie ∧
       (Fmap.find (held.core 1).l1 (65536 / 128)).map (·.data.length) = some 128) ∧
    (base.myDie = 0 ∧ ∀ n, 65536 ≤ n → 65536 ≤ ((base.setDie 0 { Die.reset with retireQ := List.replicate n ⟨0, 0, 0, 1, 0, 0, 0⟩ }).die 0).retireQ.length) := by
  refine ⟨by decide +kernel, accessible_of (by decide +kernel), accessible_of (by decide +kernel), ?_⟩
  and_intros <;> first | decide +kernel | (intro n hn; simpa [State.die, State.setDie] using hn)

/-! Engines, exchanges and matrices -/

theorem scalarOk_of {s : State} {n : Nat} {va : Dword}
    (h : (va.toNat % n = 0 && decide (s.target s.me.wg va .engineRead ≠ .range) && decide (s.target s.me.wg va .engineRead ≠ .exited)) = true) :
    scalarOk s n va := by
  simp only [Bool.and_eq_true, decide_eq_true_eq] at h
  exact ⟨h.1.1, h.1.2, h.2⟩

/-- The most operations of a group, of a core, a full line and the limits not reached; a zero execute mask; legal and illegal operands. -/
theorem witness_EngineIssue :
    let s := (memV 65536).modGroup 0 (fun x => x.writeV 6 (fullMask 32) (fun _ => 0x1000) [70, 71, 72, 73])
    let pad := (memV 0).modGroup 0 (fun x => (x.writeV 5 (fullMask 32) (fun _ => 0x0F000000) [70, 71, 72, 73]).writeV 10 (fullMask 32) (fun _ => 65536) [80, 81, 82, 83])
    let full := pad.setLine (spadLoc 0 0) { Line.reset with full := false, count := 15 }
    let tab := mem [(2, 65536), (4, 66560), (6, 4), (7, 8)]
    let bad := mem [(2, 65536), (4, 66560), (6, 65540), (7, 8)]
    let fetch := mem [(2, 65536), (4, 66560), (8, 0x100010)]
    let cpy : Instr := .cpy ⟨8, 4, 10, 2, 0⟩
    let none : Instr := .cpy ⟨8, 4, 10, 2, 1⟩
    (readyRoom cpy s 0 1 && readyRoom cpy full 0 1 && readyRoom none s 0 1 && readyRoom (.gath ⟨8, 2, 4, 0⟩) tab 0 1 &&
      readyRoom (.scat ⟨8, 2, 4, 0⟩) tab 0 1 && readyRoom (.gath ⟨8, 2, 4, 1⟩) tab 0 1 && readyRoom (.gath ⟨8, 2, 4, 0⟩) bad 0 1 &&
      readyRoom (.pfd ⟨8, 2, 4⟩) fetch 0 1 && readyRoom (.pfd ⟨9, 2, 4⟩) fetch 0 1) = true ∧
    (s.reader cpy).execMask 0 ≠ 0 ∧ (s.reader none).execMask 1 = 0 ∧ s.heldBy s.cur = 0 ∧ s.heldOn s.myCore = 0 ∧
    full.linesFit (full.linesOf 0 (newOp .cpy 0 0 [⟨0, 0, 1, 16, 0x0F00000000000000, 65536⟩])) = false ∧
    pad.linesFit (pad.linesOf 0 (newOp .cpy 0 0 [⟨0, 0, 1, 16, 0x0F00000000000000, 65536⟩])) = true := by
  decide +kernel

theorem witness_EngineIssue_operands :
    let tab := mem [(2, 65536), (4, 66560), (6, 4), (7, 8), (8, 0x100010)]
    scalarOk (tab.seen (.gath ⟨8, 2, 4, 0⟩)) 4 65536 ∧ scalarOk (tab.seen (.pfd ⟨8, 2, 4⟩)) 128 65536 ∧
      scalarOk (tab.seen (.pfd ⟨8, 2, 4⟩)) 128 66560 :=
  ⟨scalarOk_of (by decide +kernel), scalarOk_of (by decide +kernel), scalarOk_of (by decide +kernel)⟩

/-- A copy of 4 to 32 bytes in flight, and a line of a fill: the element performed; a copy whose destination may not be written on a
resumable page, and a line whose destination is DRAM; done, cancelled, and not done; and a saved workgroup. -/
theorem witness_EngineProgress :
    let eng := fun (o : EngOp) => ({ mem [] with engs := [(7, o)] } : State)
    let op := fun (n : Nat) (dst : Dword) => newOp .cpy 0 0 [⟨0, 0, 1, n, dst, 65536⟩]
    let fill := fun (dst : Dword) => ({ newOp .pfd 0 0 [⟨0, 0, 1, 128, dst, 65536⟩] with issued := [0] } : EngOp)
    let ready := fun (s : State) (o : EngOp) (e : Element) (dst : Nat) =>
      o.element 0 = some e ∧ s.elementEnd o e = none ∧ (s.target o.wg e.src .engineRead).loc? = some 65536 ∧
        (s.target o.wg e.dst .engineWrite).loc? = some dst ∧ s.emptyLine [⟨none, e.src, s.target o.wg e.src .engineRead⟩] = false ∧
        s.poisoned 65536 e.unit = false ∧ s.poisonedTag o 0 e 65536 dst = false ∧ (s.ctx (s.ctxOf o.g)).race = 0 ∧
        (s.wg o.wg).state ≠ .saved ∧ 0 ∉ o.performed ∧ o.parkSeq = none
    (∀ n ∈ [4, 8, 16, 32], ready (eng (op n 0x11000)) (op n 0x11000) ⟨0, 0x11000, 65536, n⟩ 0x11000 ∧ (op n 0x11000).cancelled = false) ∧
    (let s := eng (fill 0x20000)
     ready s (fill 0x20000) ⟨0, 0x20000, 65536, 128⟩ (physAddr 0 1 0) ∧ 0 ∈ (fill 0x20000).issued ∧ (fill 0x20000).left = [0] ∧ physAddr 0 1 0 % 128 = 0 ∧
      fillOk ((s.wg 0).core / 12) (s.target 0 65536 .engineRead) (s.target 0 0x20000 .engineWrite) = true) ∧
    (let s := (eng (op 4 0x30000)).setCore 0 { (mem []).core 0 with tlb := ⟨0, 3, 0, 65571⟩ :: ((mem []).core 0).tlb }
     s.elementEnd (op 4 0x30000) ⟨0, 0x30000, 65536, 4⟩ = some (.park .permission 0x30000)) ∧
    (let o := fill 0x0F00000000004000
     o.element 0 = some ⟨0, 0x0F00000000004000, 65536, 128⟩ ∧
       (eng o).elementEnd o ⟨0, 0x0F00000000004000, 65536, 128⟩ = some (.fault 5 0x0F00000000004000)) ∧
    (((eng (op 4 0)).setWg 0 { one.wg 0 with state := .saved }).wg 0).state = .saved ∧
    (op 4 0).left ≠ [] ∧ { op 4 0 with performed := [0] }.left = [] ∧ { op 4 0 with cancelled := true }.issued = [] ∧
    { op 4 0 with cancelled := true, issued := [0] }.issued ≠ [] := by
  decide +kernel

/-- A copy that parks, one whose destination may not be written on a page that is not resumable, and one whose source is poisoned, of a
group outside a region, and inside with 0 and with 15 rollbacks. -/
theorem witness_EngineProgress_faults :
    let o := newOp .cpy 0 0 [⟨0, 0, 1, 4, 0x30000, 65536⟩]
    let onto := fun (pte : Dword) (f : Group → Group) => (({ mem [] with engs := [(7, o)] } : State).setCore 0
      { (mem []).core 0 with tlb := ⟨0, 3, 0, pte⟩ :: ((mem []).core 0).tlb }).modGroup 0 f
    let bad := fun (f : Group → Group) => ({ onto 0x20007 f with poison := [(8192, true)] } : State)
    let inside := fun (n : Nat) (x : Group) => { x with region := some (regionAt 0), rollbacks := n }
    (o.kind = .cpy ∧ o.cancelled = false ∧ o.parkSeq = none ∧ 0 ∉ o.performed ∧ o.element 0 = some ⟨0, 0x30000, 65536, 4⟩) ∧
    (onto 0x10023 id).elementEnd o ⟨0, 0x30000, 65536, 4⟩ = some (.park .permission 0x30000) ∧
    (∀ f ∈ [id, inside 0], (onto 0x10003 f).elementEnd o ⟨0, 0x30000, 65536, 4⟩ = some (.fault 1 0x30000)) ∧
    (∀ f ∈ [id, inside 0, inside 15], (bad f).elementEnd o ⟨0, 0x30000, 65536, 4⟩ = none ∧
      ((bad f).target 0 65536 .engineRead).loc? = some 65536 ∧ ((bad f).target 0 0x30000 .engineWrite).loc? = some 0x20000 ∧
      (bad f).emptyLine [⟨none, 65536, (bad f).target 0 65536 .engineRead⟩] = false ∧ (bad f).poisoned 65536 4 = true) ∧
    (∀ f ∈ [id, inside 0, inside 15], ∀ s ∈ [onto 0x10003 f, bad f], Fmap.risingFrom 0 s.engs = true ∧ (s.wg 0).state = .resident ∧
      (s.group 0).status = .live ∧ (s.group 0).rollbackDue = false ∧ (s.group 0).pendTraps = [] ∧ s.matrixBusy 0 = false ∧ (s.group 0).wait = none) ∧
    (inside 0 one.me).region = some (regionAt 0) ∧ one.me.region = none ∧ 15 ≤ (inside 15 one.me).rollbacks := by
  decide +kernel

/-- Slots of every kind in a workgroup's table, in an exchange phase. -/
def exch (l : List (Nat × Word)) (kern : Kernel) : State :=
  let s := mem l
  let s := (s.setCtx 0 { s.ctx 0 with phased := true, coll := 0x01000004 }).setCore 0 { s.core 0 with ph := 1 }
  s.setWg 0 { s.wg 0 with kern := kern }

def slots : Kernel :=
  { Kernel.empty with slots := [⟨0, 0, 0, 64⟩, ⟨1, 0, 0, 64⟩, ⟨2, 0, 0, 64⟩, ⟨5, 14, 0, 64⟩, ⟨6, 11, 0, 0⟩] }

/-- Transfers of 0, of the most bytes, and of four more; collectives of the last rank, of one more, and with a count that does not fit. -/
theorem witness_ExchangeIssue :
    let s := fun (n : Word) => exch [(2, 65536), (4, 66560), (6, n)] slots
    let full := (exch [(2, 0), (3, 0x0F000000), (4, 66560), (6, 64)] slots).setLine (spadLoc 0 0) { Line.reset with full := false, count := 15 }
    ([0, 64, 68, 63].all (fun n => readyB (.xput ⟨2, 4, 6, 0⟩) (s n) && readyB (.xget ⟨2, 4, 6, 1⟩) (s n)) &&
      readyB (.xput ⟨2, 4, 6, 0⟩) full &&
      [0x03000040, 0x04000040, 0x03000041, 0].all (fun n => readyB (.coll ⟨2, 4, 6, 2⟩) (s n) && readyB (.coll ⟨2, 4, 6, 3⟩) (s n) &&
        readyB (.coll ⟨2, 4, 6, 4⟩) (s n)) && readyB (.cabort ⟨2⟩) (s 0) && readyB (.cabort ⟨4⟩) (s 0)) = true ∧
    (∀ k < 5, ∃ e ∈ (s 0).myWg.kern.slots, (s 0).myWg.kern.slots[k]? = some e) ∧ ((s 0).ctx 0).coll.toNat % 512 = 4 ∧
    (⟨2, 0, 0, 64⟩ : XSlot).countOk 64 4 = true ∧ (⟨5, 14, 0, 64⟩ : XSlot).countOk 64 4 = true ∧
    (⟨5, 14, 0, 64⟩ : XSlot).countOk 60 4 = false ∧ (⟨6, 11, 0, 0⟩ : XSlot).countOk 0 4 = true ∧
    full.linesFit (full.linesOf 0 (newOp .xput 0 0 [⟨0, 0, 16, 4, 0x0F00000000000000, 66560⟩])) = false := by
  decide +kernel

theorem witness_ExchangeIssue_operands :
    let s := exch [(2, 65536), (4, 66560), (6, 64)] slots
    scalarOk (s.seen (.xput ⟨2, 4, 6, 0⟩)) 4 65536 ∧ scalarOk (s.seen (.coll ⟨2, 4, 6, 2⟩)) 4 66560 :=
  ⟨scalarOk_of (by decide +kernel), scalarOk_of (by decide +kernel)⟩

/-- A collective of two ranks, of which rank 0 is a group of this package and rank 1 came in packets. -/
def mine : Contribution := ⟨1, 0, 1, 2, 0, 1, 0, 4, some [1, 0, 0, 0], some ⟨0, 0, 65536, 65540, 2, ⟨2, 12, 0, 64⟩⟩⟩
def theirs : Contribution := ⟨2, 0, 1, 2, 0, 1, 1, 4, some [1, 2, 3, 4], none⟩
def both : State := { exch [] slots with acl := [(0, 0x0007010000000005)], colls := [mine, theirs] }

/-- A transfer left and done; a packet of a member and of a stranger; an instance of two ranks, whole and one short, with equal counts and
not; and sums of one element and of three contributions. -/
theorem witness_ExchangeProgress :
    let o := newOp .xput 0 0 [⟨0, 0, 1, 4, 0x11000, 65536⟩]
    let p : CollPacket := ⟨7, 1, 2, 0, 1, 1, [1, 2, 3, 4]⟩
    (o.left ≠ [] ∧ { o with performed := [0] }.left = [] ∧ o.kind = .xput) ∧
    (∃ e ∈ both.acl, e.2.getLsbD 0 = true ∧ e.2.getLsbD 2 = true ∧ e.2.toNat / 281474976710656 = p.peer.toNat ∧
      e.2.toNat / 1099511627776 % 256 = p.fset.toNat) ∧
    ((∀ e ∈ one.acl, e.2.getLsbD 0 = false) ∧ Fmap.find both.ctxs 0 = some (both.ctx 0) ∧ (both.ctx 0).state ≠ .free ∧
      (both.ctx 0).coll.toNat / 16777216 = p.fset.toNat ∧ (both.ctx 0).attempt 2 = p.attempt) ∧
    (both.colls.find? (fun q => q.id = 1) = some mine ∧ mine.attempt = (both.ctx 0).attempt 2 ∧
      both.colls.filter (fun d => d.same mine && d.data.isSome) = [mine, theirs] ∧
      (∀ r < 2, ∃ q ∈ [mine, theirs], q.rank = r) ∧ (∀ q ∈ [mine], q.rank ≠ 1) ∧ { theirs with count := 8 }.count ≠ mine.count ∧
      theirs.count = mine.count) ∧
    (∀ q ∈ [[(1 : Byte), 0, 0, 0], [2, 0, 0, 0], [255, 255, 255, 255]], q.length = 4 * 1) := by decide +kernel

/-- Both contributions are whole, and the one destination is ready for its four bytes. -/
theorem witness_ExchangeProgress_receives : ∀ d ∈ [mine, theirs], Receives both 2 4 d := by
  have side : (both.tlbHit (both.wg 0).core (both.wg 0).ctx 65540).isSome = true ∧
      both.sidesEnd .xget (both.wg 0).core 4 [both.collSide ⟨0, 0, 65536, 65540, 2, ⟨2, 12, 0, 64⟩⟩ true 65540] = none := by decide +kernel
  intro d hd
  rcases List.mem_pair.1 hd with rfl | rfl
  · refine ⟨fun bs h => by cases h; rfl, by decide, fun l h => ?_⟩
    cases h
    refine fun _ => ⟨rfl, by decide +kernel, fun _ => by decide +kernel, fun i hi => ?_⟩
    obtain rfl : i = 0 := by simp [resultSize] at hi; omega
    exact ⟨.inr side.1, side.2⟩
  · exact ⟨fun bs h => by cases h; rfl, by decide, fun l h => by cases h⟩

/-- The four bytes of the result lie at four places. -/
theorem witness_ExchangeProgress_places : ∀ d ∈ [mine, theirs], ∀ d' ∈ [mine, theirs], ∀ j j' a,
    ResultAt both 4 d j a → ResultAt both 4 d' j' a → d = d' ∧ j = j' := by
  have place : ∀ j < 4, (both.target 0 (65540 + BitVec.ofNat 64 (j / 4 * 4)) .engineWrite).loc? = some 65540 := by decide +kernel
  have key : ∀ d ∈ [mine, theirs], ∀ j a, ResultAt both 4 d j a → d = mine ∧ a = 65540 + j ∧ j < 4 := by
    rintro d hd j a ⟨l, loc, h, _, hj, ht, rfl⟩
    rcases List.mem_pair.1 hd with rfl | rfl
    · cases h
      have hj : j < 4 := hj
      have := place j hj
      exact ⟨rfl, by rw [Option.some.inj (ht.symm.trans this)]; omega, hj⟩
    · cases h
  intro d hd d' hd' j j' a h h'
  obtain ⟨rfl, e, _⟩ := key d hd j a h
  obtain ⟨rfl, e', _⟩ := key d' hd' j' a h'
  exact ⟨rfl, by omega⟩

/-- An instance one of whose participants has been terminated since it sent. -/
theorem witness_ExchangeProgress_terminated :
    let s := both.setWg 0 { both.wg 0 with state := .terminated }
    s.colls.find? (fun q => q.id = 1) = some mine ∧ (∀ j a, ¬ ResultAt s 4 mine j a) ∧ ∀ d ∈ [mine, theirs], Receives s 2 4 d := by
  intro s
  have gone : (s.wg 0).state = .terminated := by decide +kernel
  refine ⟨by decide +kernel, ?_, fun d hd => ?_⟩
  · rintro j a ⟨l, loc, h, hn, _⟩
    cases h
    exact hn gone
  · rcases List.mem_pair.1 hd with rfl | rfl
    · refine ⟨fun bs h => by cases h; rfl, by decide, fun l h hn => ?_⟩
      cases h
      exact absurd gone hn
    · exact ⟨fun bs h => by cases h; rfl, by decide, fun l h => by cases h⟩

/-- Two products whose sum with the accumulator is not 0, and one that is. -/
theorem witness_MatrixSum :
    let val := fun (v : FVal) => match v with | .fin n m e => some ((if n then -1 else 1) * (m : ℚ) * (2 : ℚ) ^ e) | _ => none
    [FVal.fin false 3 0, .fin true 1 1].map val = [3, -2].map some ∧ [FVal.fin false 1 0, .fin false 1 (-1)].map val = [1, 1 / 2].map some ∧
    val (fp32.decode 0) = some 0 ∧ (0 : ℚ) + (([3, -2].zip [(1 : ℚ), 1 / 2]).map (fun p => p.1 * p.2)).sum ≠ 0 ∧
    (0 : ℚ) + (([3, -3].zip [(1 : ℚ), 1]).map (fun p => p.1 * p.2)).sum = 0 ∧ (0xFFFFFFFF : Nat) < 4294967296 := by
  refine ⟨by norm_num, by norm_num, ?_, by norm_num, by norm_num, by norm_num⟩
  rw [show fp32.decode 0 = .fin false 0 (-149) by decide +kernel]
  norm_num

/-- Layout of rows of 64 bytes, one after another. -/
def rows : Word := BitVec.ofNat 32 (64 * 65536 + 8 * 16)

/-- Operands of a matrix instruction: descriptors at s4, s6 and s8, a bound, a column, and an address of a tile. -/
def mat (bound col : Word) : State :=
  mem [(4, 0), (5, rows), (6, 2048), (7, rows), (8, 4096), (9, rows), (10, bound), (12, 0), (13, 0x0F000000), (14, col)]

/-- The same with every quadrant fenced. -/
def fencedMat : State := (mat 16 0).setCore 0 { (mat 16 0).core 0 with fenced := 15 }

/-- `ReadyBeside` and `HasRoom` as one Bool. -/
noncomputable def besideRoom (i : Instr) (s : State) (nv ns : Nat) : Bool :=
  (match s.gate s.cur (Instr.info i) with | .go => true | _ => false) &&
    !(s.reader i).badReads { Instr.info i with srcs := (Instr.info i).srcs.filter (fun o => o.file != .tile) } &&
    (s.seen i).room (s.reader i).wg nv ns

theorem ready_beside_of {i : Instr} {s : State} {nv ns : Nat} (h : besideRoom i s nv ns = true) : ReadyBeside i s ∧ HasRoom i s nv ns := by
  simp only [besideRoom, Bool.and_eq_true, Bool.not_eq_true'] at h
  refine ⟨⟨?_, h.1.2⟩, h.2⟩
  cases e : s.gate s.cur (Instr.info i) <;> simp_all

/-- Every matrix instruction with lanes and without, with a quadrant and without; bounds 0, 16 and 32; columns 31 and 32. -/
theorem witness_MatrixIssue :
    let f : FmtMma := ⟨0, 4, 6, 0, 0, 0, 0⟩
    let z : FmtMma := ⟨0, 4, 6, 0, 0, 0, 1⟩
    let s := mat 16 31
    ([s, fencedMat].all (fun s => [f, z].all (fun f => readyRoom (.mma { f with a := 0, b := 16 }) s 128 0 && readyRoom (.mmas f) s 128 0 && readyRoom (.mmax f) s 128 0)
        && readyRoom (.mmat ⟨0, 4, 6, 0, 0⟩) s 128 0 && readyRoom (.mmat ⟨0, 4, 6, 0, 1⟩) s 128 0) &&
      readyRoom (.mmax f) (mat 0 0) 128 0 && readyRoom (.mmax f) (mat 32 0) 128 0 &&
      [0, 1].all (fun p => readyRoom (.mzero ⟨3, p⟩) s 128 0 && readyRoom (.mld ⟨3, 12, p⟩) s 128 0 && besideRoom (.mst ⟨3, 12, p⟩) s 0 0 &&
        readyRoom (.mwr ⟨3, 20, 14, p⟩) s 128 0 && readyRoom (.mwr ⟨3, 20, 14, p⟩) (mat 0 32) 128 0 && besideRoom (.mrd ⟨3, 20, 14, p⟩) s 4 0 &&
        besideRoom (.mrd ⟨3, 20, 14, p⟩) (mat 0 32) 4 0)) = true ∧
    (∀ i ∈ [Instr.mma { f with a := 0, b := 16 }, .mmas f, .mmat ⟨0, 4, 6, 0, 0⟩, .mmax f, .mzero ⟨3, 0⟩, .mld ⟨3, 12, 0⟩, .mst ⟨3, 12, 0⟩, .mwr ⟨3, 20, 14, 0⟩,
      .mrd ⟨3, 20, 14, 0⟩], (s.seen i).mopLimit = false ∧ (s.reader i).freesTile = false ∧ lanesOf ((s.reader i).execMask 0) ≠ [] ∧
        (s.reader i).execMask 1 = 0 ∧ lanesOf ((s.reader i).execMask 1) = [] ∧ (∀ l < 32, (s.reader i).badV (64 + 32 * 3 + 31) l = false) ∧
        (s.reader i).rollbackDue = false ∧ (s.reader i).status = .live ∧ (s.reader i).batches = []) ∧
    (s.core s.myCore).fenced ≠ 15 ∧ (fencedMat.core fencedMat.myCore).fenced = 15 ∧ s.mops = [] ∧ 0 < 16 ∧ 16 ≤ 31 := by decide +kernel

/-- MRD with a closed batch that MWAIT has not told, and behind an operation on its tile. -/
theorem witness_MatrixIssue_reads :
    let told := (mat 0 0).modGroup 0 (fun x => { x with batches := [⟨8, 2, true⟩], nb := 9 })
    let behind : State := { mat 0 0 with mops := [(7, (mat 0 0).newMop .mzero 3 1)], nextId := 9 }
    (besideRoom (.mrd ⟨3, 20, 14, 0⟩) told 4 0 && besideRoom (.mrd ⟨3, 20, 14, 0⟩) behind 4 0) = true ∧
    (told.me.batches ≠ [] ∧ told.mops = [] ∧ (behind.seen (.mrd ⟨3, 20, 14, 0⟩)).mopLimit = false ∧
      ∃ p ∈ behind.mops, p.1 < behind.nextId ∧ p.2.g = behind.cur ∧ p.2.acc = (3 : BitVec 2).toNat) := by decide +kernel

/-- MRD of a column with an error. -/
theorem witness_MatrixIssue_column :
    let s := (mat 0 31).modGroup 0 (fun x => { x with v := [(vkey (tileName 3 31) 0, ⟨900, List.replicate 8 0, 1, 0⟩)] })
    besideRoom (.mrd ⟨3, 20, 14, 0⟩) s 4 0 = true ∧ (s.seen (.mrd ⟨3, 20, 14, 0⟩)).mopLimit = false ∧ s.mops = [] ∧
      (s.me.execMask 0).getLsbD 0 = true ∧ s.me.badV (64 + 32 * 3 + 31) 0 = true := by decide +kernel

/-- MST and MRD without lanes and with the last-read bit on their tile, behind no operation and behind two. -/
theorem witness_MatrixIssue_lastRead :
    let free := (mat 0 0).modGroup 0 (fun x => { x with hlr := [4] })
    let op := (mat 0 0).newMop .mzero 3 1
    let queued : State := { free with mops := [(7, op), (8, op)], nextId := 9 }
    (∀ s ∈ [free, queued], ∀ i ∈ [Instr.mst ⟨3, 12, 1⟩, .mrd ⟨3, 20, 14, 1⟩],
      besideRoom i s 0 0 = true ∧ (s.reader i).freesTile = true ∧ (s.reader i).execMask 1 = 0) ∧ free.mops = [] ∧
    Fmap.risingFrom 0 queued.mops = true ∧ Fmap.find queued.mops 8 = some op ∧ op.g = queued.cur ∧ op.acc = (3 : BitVec 2).toNat ∧
      ∀ p ∈ queued.mops, p.1 ≤ 8 := by decide +kernel

/-- The scratchpad operands of each form are accepted, and the tile of MLD and MST. -/
theorem witness_MatrixIssue_operands :
    let s := mat 16 0
    let ok := fun (n : Nat) (e : Except Body (List MDesc)) => (match e with | .ok l => l.length == n | _ => false) = true
    let x := s.me
    let A := (x.rawDesc 4, List.range 32)
    let B := (x.rawDesc 6, List.range 32)
    let C := (x.rawDesc 8, List.range 32)
    ok 2 (s.descs false [A, B]) ∧ ok 2 (s.descs true [A, B]) ∧ ok 3 (s.descs false [A, B, C]) ∧ ok 2 (s.descs false [A, C]) ∧
    (∀ b ∈ [true, false], (match s.tileRows 0x0F00000000000000 (fullMask 32) b with | .ok _ => true | _ => false) = true) := by
  decide +kernel

/-- Descriptors with a ROWP and a ROT that may not be, one that is not aligned, and bases that name nothing, a member that has exited
and rows beyond the allocation. -/
theorem witness_MatrixIssue_descriptors :
    let with_ := fun (b l : Word) => (mat 16 0).modGroup 0 (fun x => (x.writeS 4 b 4 none).writeS 5 l 5 none)
    let desc := fun (s : State) => s.me.rawDesc 4
    let gone := (with_ 0x400000 rows).setWg 0 { (mat 16 0).wg 0 with members := [5] }
    let beyond := with_ 8128 rows
    ([with_ 0 (rows + 65536), with_ 0 (rows + 1), with_ 32 rows, with_ 0x200000 rows, gone, beyond].all
        (fun s => readyRoom (.mmas ⟨0, 4, 6, 0, 0, 0, 0⟩) s 128 0 && readyRoom (.mmat ⟨0, 4, 6, 0, 0⟩) s 128 0) = true ∧
      (desc (with_ 0 (rows + 65536))).layout / 2 ^ 16 % 64 ≠ 0 ∧ (desc (with_ 0 (rows + 1))).layout % 16 ≠ 0 ∧
      (desc (with_ 32 rows)).base % 64 ≠ 0 ∧ (desc gone).base % 64 = 0 ∧ (desc beyond).layout / 2 ^ 16 % 64 = 0) ∧
    WindowTrap (with_ 0x200000 rows) (desc (with_ 0x200000 rows)) (List.range 32) .scratchRange ∧
    WindowTrap gone (desc gone) (List.range 32) .peerExited ∧ WindowTrap beyond (desc beyond) (List.range 32) .scratchRange := by
  intro with_ desc gone beyond
  have member : Named gone (desc gone).base 5 0 ∧ 2 ^ 22 ≤ (desc gone).base ∧ gone.hasExited 5 = true := by
    unfold Named; decide +kernel
  have own : Named beyond (desc beyond).base 0 8128 ∧ ¬ 2 ^ 22 ≤ (desc beyond).base := by unfold Named; decide +kernel
  have row : 128 * (beyond.wg 0).lines < 8128 + 31 % 8 * ((desc beyond).layout / 2 ^ 16) +
      31 / 8 * 64 * ((desc beyond).layout / 2 ^ 4 % 2 ^ 12) + 64 := by decide +kernel
  refine ⟨by decide +kernel, .inl ⟨fun k off h => ?_, rfl⟩, .inr ⟨5, 0, member.1, .inl ⟨member.2, rfl⟩⟩,
    .inr ⟨0, 8128, own.1, .inr ⟨fun e => own.2 e.1, rfl, 31, by decide, row⟩⟩⟩
  rcases h with ⟨h, _⟩ | ⟨h, _⟩ <;> exact absurd h (by decide +kernel)

/-- A tile's address that is not aligned, outside the window, of a member that has exited, with a row beyond the allocation, and with
barrier and queue lines. -/
theorem witness_MatrixIssue_tiles :
    let with_ := fun (a b : Word) => (mat 16 0).modGroup 0 (fun x => (x.writeS 12 a 12 none).writeS 13 b 13 none)
    let gone := (with_ 0x400000 0x0F000000).setWg 0 { (mat 16 0).wg 0 with members := [5] }
    let marked := fun (l : Line) => ({ mat 16 0 with lines := [(spadLoc 0 0 / 128 + 3, l)] } : State)
    let bar := marked { Line.reset with barrier := true }
    let que := marked { Line.reset with queue := true }
    ([with_ 64 0x0F000000, with_ 0 0, gone, with_ 7680 0x0F000000, bar, que].all
        (fun s => readyRoom (.mld ⟨3, 12, 0⟩) s 128 0 && besideRoom (.mst ⟨3, 12, 0⟩) s 0 0) = true ∧
      ((with_ 64 0x0F000000).me.readS2 12).toNat % 128 ≠ 0 ∧ ((with_ 0 0).me.readS2 12).toNat < 0x0F00000000000000 ∧
      gone.hasExited 5 = true ∧ 128 * (bar.wg 0).lines < 7680 + 128 * 4 + 128 ∧ ∀ h < 4, ¬ 128 * (bar.wg 0).lines < 7680 + 128 * h + 128) ∧
    (Named gone 0x400000 5 0 ∧ Named (with_ 7680 0x0F000000) 7680 0 7680 ∧ Named bar 0 0 0 ∧ Named que 0 0 0) ∧
    ∀ h < 32, (h = 3 ↔ (bar.lineAt (spadLoc 0 0 + 128 * h)).barrier = true) ∧ (h = 3 ↔ (que.lineAt (spadLoc 0 0 + 128 * h)).queue = true) := by
  refine ⟨by decide +kernel, ?_, by decide +kernel⟩
  unfold Named
  decide +kernel

/-- A group of 64 lanes whose tile 0 is written in 32 of them, with a matrix operation in flight; `fence` are the fenced quadrants. -/
def working (fence : BitVec 4) (o : MOp) : State :=
  let s := (mat 0 0).modGroup 0 (fun x => (List.range 32).foldl (fun x c => x.writeV (tileName 0 c) (fullMask 32) (fun _ => 1)
      ((List.range 4).map (fun q => 1000 + 4 * c + q))) { x with width := 64 })
  let s : State := { s with mops := [(7, o)] }
  s.setCore 0 { s.core 0 with firstTest := 0, fenced := fence }

/-- Whether the slice of lane `l` of column `c` of a tile is allocated, with its eight lanes. -/
def rowThere (x : Group) (acc l c : Nat) : Bool :=
  match Fmap.find x.v (vkey (tileName acc c) (l / 8)) with
  | some sl => sl.val.length = 8
  | none => false

/-- The conditions of `CompletesNext` on operation 7. -/
def aloneChecks (s : State) (o : MOp) : List Bool :=
  let x := s.group o.g
  [decide (Fmap.find s.mops 7 = some o), decide (∀ p ∈ s.mops, p.2.g = o.g → p.1 = 7), decide (Fmap.find s.groups o.g ≠ none),
   decide (x.status = .live), !x.rollbackDue, x.region.isNone, !o.frees, !s.mopEmpty o, !s.mopPoisoned o, !x.badTile o,
   decide (o.acc < 4 ∧ x.width ≤ 128),
   (List.range 128).all (fun l => !o.exec.getLsbD l || decide (l / 8 < x.width / 8) && (List.range 32).all (rowThere x o.acc l))]

theorem completes_of {s : State} {o : MOp} (h : ∀ b ∈ aloneChecks s o, b = true) : CompletesNext s 7 o := by
  simp only [aloneChecks, List.forall_mem_cons, decide_eq_true_eq, Bool.not_eq_true', Option.isNone_iff_eq_none] at h
  have lanes : ∀ l, l < 128 → o.exec.getLsbD l = true → l / 8 < (s.group o.g).width / 8 ∧ ∀ c, c < 32 → rowThere (s.group o.g) o.acc l c = true := by
    simpa [or_iff_not_imp_left] using h.2.2.2.2.2.2.2.2.2.2.2.1
  have small : ∀ l, o.exec.getLsbD l = true → l < 128 := fun l hl => by
    by_contra hn; rw [BitVec.getLsbD_of_ge _ _ (by omega)] at hl; cases hl
  exact { found := h.1, alone := h.2.1, listed := h.2.2.1, live := h.2.2.2.1, noRollback := h.2.2.2.2.1, noRegion := h.2.2.2.2.2.1
          keeps := h.2.2.2.2.2.2.1, full := h.2.2.2.2.2.2.2.1, sound := h.2.2.2.2.2.2.2.2.1, tileSound := h.2.2.2.2.2.2.2.2.2.1
          tile := h.2.2.2.2.2.2.2.2.2.2.1.1, width := h.2.2.2.2.2.2.2.2.2.2.1.2
          lanes := fun l hl => ⟨small l hl, (lanes l (small l hl) hl).1⟩
          rows := fun l hl hx c hc => by
            have f := (lanes l hl.1 hx).2 c hc
            unfold rowThere at f
            split at f
            · next sl e => exact ⟨sl, e, by simpa using f⟩
            · cases f }

/-- An operation of a kind on lanes 0 and 31 of 64, with its rows in the scratchpad, and those of MMA read. -/
def opOf (k : MOpKind) : MOp :=
  { (mat 0 0).newMop k 0 0x80000001 with
      descA := ⟨0, spadLoc 0 0, 0, 64, 8, 0⟩, descB := ⟨0, spadLoc 0 2048, 0, 64, 8, 0⟩, descC := ⟨0, spadLoc 0 4096, 0, 64, 8, 0⟩, bound := 16
      rowsA := if k = .mma then List.replicate 64 (List.replicate 64 0) else [], rowsB := if k = .mma then List.replicate 32 (List.replicate 64 0) else [] }

theorem witness_MatrixCompletion : ∀ k ∈ [MOpKind.mma, .mmas, .mmat, .mmax, .mzero, .mld, .mst, .mwr],
    CompletesNext (working 0 (opOf k)) 7 (opOf k) := by
  intro k hk
  apply completes_of
  fin_cases hk <;> decide +kernel

/-- An MRD that waited, behind which a slice of its destination is left to fill. -/
theorem witness_MatrixCompletion_read :
    let o := { opOf .mrd with batch := none, col := 31, fills := [(0, 2000), (3, 2001)] }
    let s := (working 0 o).modGroup 0 (fun x => x.writeV 5 (fullMask 8) (fun _ => 3) [2000])
    CompletesNext s 7 o ∧ o.batch = none ∧ (o.fills.map (·.2)).Nodup ∧
      (match Fmap.find (s.group 0).v (vkey 5 0) with | some sl => sl.id == 2000 | none => false) = true := by
  refine ⟨completes_of (by decide +kernel), by decide +kernel⟩

/-- Each kind of product with the quadrants of its gang usable, with none usable, and issued before its last one was fenced; and lines
that a tile may be stored to. -/
theorem witness_MatrixCompletion_quadrants :
    (∀ k ∈ [MOpKind.mma, .mmas, .mmat, .mmax], (opOf k).exec ≠ 0 ∧ (opOf k).noEngine = false ∧
      (working 0 (opOf k)).quadsFor (opOf k) = some [0, 1] ∧ (working 15 (opOf k)).quadsFor (opOf k) = some []) ∧
    { opOf .mma with noEngine := true }.noEngine = true ∧ (working 0 (opOf .mst)).lines = [] ∧
    (∀ r ∈ (opOf .mma).rowsA ++ (opOf .mma).rowsB, r.length = 64) ∧
    (opOf .mma).rowsA.length = ((working 0 (opOf .mma)).group 0).width ∧ (opOf .mma).rowsB.length = 32 := by decide +kernel

/-! The machine around the instructions -/

/-- The package alive, with one more change. -/
def alive (f : Die → Die) (s : State) : State := s.setDie 0 (f { s.die 0 with alive := true })

/-- What a group that is let go on has in the state where it does, if it is. -/
noncomputable def goesOn (s : State) (p : State → Bool) : Bool :=
  match { s with agenda := [], cur := 0 }.admitted 0 with
  | some q => p q
  | none => false

/-- A group that issues, one that may not, one with a trap due, one on an illegal word, one on a page that is not there and on one
that faults; an event; a clk with a group that must issue in it and without; a group that an issue leaves with a stall and without. -/
theorem witness_StepRunsTheDecodedInstruction :
    let ok := State.reset.withFetchWord 32 0b00000101111100001111100000000110
    let with_ := fun (f : Group → Group) => (State.reset.withFetchWord 32 0).modGroup 0 f
    let at_ := fun (q : State) => q.target (q.group 0).wg (q.group 0).pc .fetch
    let first := alive id (ok.setCore 0 { ok.core 0 with guard := [0] })
    (goesOn ok (fun q => !(q.group 0).asyncDue && (match at_ q with | .memory pa _ _ _ => pa == 65536 | _ => false) &&
        decide (decodeWord (BitVec.ofNat 32 (q.natAt 65536 4)) = .ok (.sadd ⟨31, 3, 56, 1, 1⟩)) &&
        (match exec (.sadd ⟨31, 3, 56, 1, 1⟩) q with | .next _ => true | _ => false)) &&
      goesOn (with_ id) (fun q => match decodeWord (BitVec.ofNat 32 (q.natAt 65536 4)) with | .error _ => true | _ => false) &&
      goesOn (with_ (fun x => { x with pendTraps := [.straggler] })) (fun q => (q.group 0).asyncDue) &&
      goesOn (with_ (fun x => { x with pc := 0x90000 })) (fun q => decide (at_ q = .miss)) &&
      goesOn (with_ (fun x => { x with pc := 0x0F00000000000000 })) (fun q => match at_ q with | .fault _ _ => true | _ => false) &&
      !goesOn (with_ (fun x => { x with status := .exited })) (fun _ => true)) = true ∧
    ((Instr.gracePeriodStart).hasWord = false ∧ wf .gracePeriodStart = true ∧ { ok with agenda := [] }.lets .gracePeriodStart = true) ∧
    (one.mustIssue = none ∧ first.mustIssue = some 0 ∧ Fmap.find ok.groups 0 = some (ok.group 0) ∧ (ok.group 0).stall = none ∧
      ((ok.modGroup 0 (fun x => { x with stall := some .result })).group 0).stall ≠ none) := by
  decide +kernel

/-- The state before the step and the state after it. -/
theorem witness_StepsKeepTheForms : Kept State.reset ∧ Kept one ∧ ∃ t, step one = .next t := by
  refine ⟨⟨by decide +kernel, by decide +kernel⟩, ⟨by decide +kernel, by decide +kernel⟩, one.clk, ?_⟩
  show (match one.mustIssue with | some g => issueStep g one | none => .next one.clk) = .next one.clk
  rw [show one.mustIssue = none by decide +kernel]

theorem witness_DecodeAndEncodeAgree : (Instr.sadd ⟨31, 3, 56, 1, 1⟩).hasWord = true ∧
    decodeWord (BitVec.ofNat 32 0b00000101111100001111100000000110) = .ok (.sadd ⟨31, 3, 56, 1, 1⟩) := by decide +kernel

/-- What the checks at issue ask, in their order: a legal encoding, the class, operands that are there, latches, and no open region. -/
def issueOrder (i : Instr) (s : State) : List Bool :=
  let n := Instr.info i
  [encodingOk n s.me, classOk n.cls (s.core s.myCore).exchange (s.ctx s.myCtx).phased,
   (!n.idleReads && s.me.execMask n.pred = 0 || n.srcs.all (fun o => !s.srcBusy s.cur o)) &&
     n.dsts.all (fun o => !s.dstBusy s.cur o (s.me.execMask n.pred)),
   n.srcs.all (fun o => !o.isLatch || (o.latch s.me).valid), !(n.idemTrap && s.me.region.isSome)]

/-- An illegal operand, a wrong class, a source in flight, a stale latch and an open region, each after checks that are passed; XEND in a
compute superstep; and a product under a zero execute mask whose operand is in flight. -/
theorem witness_IssueChecks :
    let busy : State := { (oneG (fun x => { x.writeS 4 1 77 none with pc := 65536 })) with pend := [(3, ⟨.load, 0, 0, 0, [], [77]⟩)] }
    let inside := oneG (fun x => { x with region := some (regionAt 0) })
    issueOrder (.sadd ⟨1, 4, 6, 1, 0⟩) one = [false, true, true, true, true] ∧
    issueOrder (.vld ⟨8, 2, 6, 2, 0, 1, 0, 0⟩) (phased 1) = [true, false, true, true, true] ∧
    issueOrder .xend (phased 0) = [true, false, true, true, true] ∧
    issueOrder (.sadd ⟨2, 4, 6, 0, 0⟩) busy = [true, true, false, true, true] ∧
    issueOrder (.mmas ⟨0, 4, 6, 0, 0, 0, 1⟩) busy = [true, true, true, true, true] ∧
    issueOrder (.sadd ⟨2, 60, 6, 0, 0⟩) one = [true, true, true, false, true] ∧
    issueOrder .idemb inside = [true, true, true, true, false] ∧ Instr.hasWord .idemb = true := by decide +kernel

/-- Slots that are there and fit each instruction, in an exchange superstep; a slot of another kind and none; a compute superstep. -/
theorem witness_IssueChecks_slots :
    let s := exch [(2, 65536), (4, 66560), (6, 0)] slots
    (∀ i, NeedsSlot (.xput ⟨2, 4, 6, i⟩) (i, fun e => e.kind = 0)) ∧
    NeedsSlot (.xget ⟨2, 4, 6, 1⟩) (1, fun e => e.kind = 1) ∧ NeedsSlot (.cabort ⟨2⟩) (2, fun e => 2 ≤ e.kind ∧ e.kind ≤ 6) ∧
    NeedsSlot (.coll ⟨2, 4, 6, 2⟩) (2, fun e => 2 ≤ e.kind ∧ e.kind ≤ 6 ∧ (e.type ≤ 2 ∨ 11 ≤ e.type ∧ e.type ≤ 14)) ∧
    s.myWg.kern.slots[0]?.map (·.kind) = some 0 ∧ s.myWg.kern.slots[1]?.map (·.kind) = some 1 ∧ s.myWg.kern.slots[63]? = none ∧
    s.myWg.kern.slots[2]?.map (fun e => (e.kind, e.type)) = some (2, 0) ∧
    (∀ i ∈ [Instr.xput ⟨2, 4, 6, 0⟩, .xget ⟨2, 4, 6, 1⟩, .coll ⟨2, 4, 6, 2⟩, .cabort ⟨2⟩],
      issueOrder i s = [true, true, true, true, true] ∧ issueOrder i (phased 0) = [true, false, true, true, true]) := by
  refine ⟨fun i => .xput _, .xget _, .cabort _, .coll _, by decide +kernel⟩

/-- A handler given and not, active and not, with room and without; a workgroup with a live group beside another. -/
theorem witness_TrapDelivery :
    let h := fun (v : Dword) (s : State) => s.setCtx 0 { s.ctx 0 with trap := v }
    let tight := (h 1 one).setWg 0 { one.wg 0 with peakS := 5 }
    let s := one.setWg 1 { one.wg 0 with lanes := 32 }
    let s := s.setGroup 1 { s.group 0 with wg := 1 }
    ((h 0x20001 one).ctx 0).trap.getLsbD 0 = true ∧ ((h 0 one).ctx 0).trap.getLsbD 0 = false ∧ one.me.handler = false ∧
    (h 1 one).room 0 0 6 = true ∧ tight.room 0 0 6 = false ∧ (tight.ctx 0).trap.getLsbD 0 = true ∧ one.me.wait = none ∧ one.me.region = none ∧
    Fmap.find one.groups 0 = some one.me ∧ (oneG (fun x => { x with handler := true })).me.handler = true ∧
    Fmap.risingFrom 0 s.groups = true ∧ (s.wg 0).state ≠ .ended ∧ (s.wg 0).state ≠ .terminated ∧ (s.group 1).wg ≠ 0 ∧
    Fmap.find s.groups 0 = some (s.group 0) ∧ (s.group 0).status = .live := by
  decide +kernel

/-- A workgroup with a group that has exited with a tile and a closed batch, and with contributions sent and not. -/
theorem witness_TrapDelivery_emptied :
    let s := both.setGroup 1 { both.group 0 with base := 32, status := .exited, batches := [⟨8, 0, false⟩]
                                                 v := [(vkey (tileName 0 0) 0, ⟨900, List.replicate 8 0, 0, 0⟩)] }
    let s : State := { s with colls := [mine, { mine with id := 3, data := none }, theirs] }
    Fmap.risingFrom 0 s.groups = true ∧ (s.wg 0).state = .resident ∧ Fmap.find s.groups 1 = some (s.group 1) ∧ (s.group 1).wg = 0 ∧
      (s.group 1).status = .exited ∧ (s.group 1).batches ≠ [] ∧ ∀ c ∈ [mine, { mine with id := 3, data := none }], c.here.map (·.wg) = some 0 := by
  decide +kernel

/-- A live group on a die whose clock ticks and on one that does not, which issued and did not, in a run or not; a core whose guard the clk
leaves empty and one where it does not, at a clk that is no multiple of 64; results of each kind; a register without a future. -/
theorem witness_ClockAndResults :
    let s := alive id one
    let ran := s.modGroup 0 (fun x => { x with issued := true, hrun := 3 })
    let late := s.setDie 0 { s.die 0 with ck := 600 }
    (s.ticks (s.dieOf 0) = true ∧ one.ticks 0 = false ∧ (s.group 0).status = .live ∧ Fmap.find s.groups 0 = some (s.group 0) ∧
      Fmap.risingFrom 0 s.groups = true) ∧
    ((s.group 0).issued = false ∧ (ran.group 0).issued = true ∧ (ran.clk.core (ran.coreOf 0)).guard = [] ∧
      (late.clk.core (late.coreOf 0)).guard ≠ [] ∧ (late.wgOf 0).state.onCore = true ∧ ¬ 64 ∣ (late.clk.die 0).ck.toNat) ∧
    (∀ k ∈ [PendKind.load, .atomic, .slow, .dlaunch],
      Fmap.find (({ one with pend := [(3, ⟨k, 0, 0, 0, [], []⟩)] } : State)).pend 3 = some ⟨k, 0, 0, 0, [], []⟩) ∧
    ((oneS [(4, 1)]).group 0).s ≠ [] ∧ ((oneS [(4, 1)]).group 0).futOf 4 = none ∧ one.root.power = .d0 := by
  decide +kernel

/-- A record with children left and with none. -/
theorem witness_DeviceLaunch :
    let rec0 : LRec :=
      { desc := 0, gx := 1, gy := 1, gz := 1, next := [0, 0, 0, 0], ended := 0, state := .dispatching, node := none, childLeft := 1, queue := 0
        sig := false, siga := 0, args := 0, cpb := 1, place := 0, rmen := false, rankmap := 0, kern := Kernel.empty, order := 0 }
    let s := fun (n : Nat) => (mem [(2, 65600)]).setCtx 0 { one.ctx 0 with recs := [(0, { rec0 with childLeft := n })] }
    (∀ n ∈ [0, 1], readyRoom (.dlaunch ⟨2, 8⟩) (s n) 0 1 = true ∧
      accessibleB ((s n).seen (.dlaunch ⟨2, 8⟩)) { size := 64, align := 64, acc := .load } [⟨none, 65600⟩] = true ∧
      (let S := (s n).seen (.dlaunch ⟨2, 8⟩)
       let hs := S.hits [⟨none, 65600⟩] .load
       loadableB S hs (S.poisonedLoad (fromPair ((s n).reader (.dlaunch ⟨2, 8⟩)) 2) hs 64) 0 1 = true)) := by
  decide +kernel

/-- Die 0 alive and a wave open. -/
def waving (w : Wave) (f : Root → Root) (s : State) : State :=
  let s := alive id s
  { s with root := f { s.root with wave := some w, ph := if w = .computeEnd then 2 else 3 } }

/-- The core of the group, changed. -/
def coreWith (f : Core → Core) (s : State) : State := s.setCore 0 (f (s.core 0))

/-- Every core of die 0 has arrived. -/
def allArrived (s : State) : State :=
  (List.range 12).foldl (fun s c => s.setCore c { s.core c with arrived := true, token := true, ph := s.root.ph }) s

theorem coreUp_lt {s : State} (h : ∀ d, d ≠ 0 → (s.die d).alive = false) {c : Nat} (hc : CoreUp s c) : c < 12 := by
  by_contra hn
  have : c / 12 ≠ 0 := by omega
  exact absurd hc.2.1 (by rw [h _ this]; decide)

/-- A core that gets its token. -/
theorem witness_WaveProgress_token :
    let s := waving .computeEnd id (coreWith (fun c => { c with ph := 2 }) one)
    (s.root.wave.isSome && !(s.die 0).lost && (s.die 0).alive && !(s.core 0).relPending && !(s.core 0).token && (s.core 0).ph == s.root.ph &&
      Fmap.risingFrom 0 s.groups && (s.wg 0).core == 0 && !(s.ctx 0).phased) = true := by
  decide +kernel

/-- A core whose group waits in PHEND, and one whose group is late when its timer has run for its limit. -/
def heldCore : State :=
  waving .computeEnd id ((coreWith (fun c => { c with ph := 2, token := true }) (phased 2)).modGroup 0 (fun x =>
    { x with wait := some ⟨.phend, 0, 0, []⟩ }))

def lateCore : State :=
  let s := waving .computeEnd id (coreWith (fun c => { c with ph := 2, token := true, timer := some 0, limit := 5 }) (phased 2))
  s.setDie 0 { s.die 0 with ck := 5 }

theorem witness_WaveProgress_arrival :
    (heldCore.mayArrive .computeEnd 0 && (heldCore.core 0).token && !(heldCore.core 0).arrived && (heldCore.ctx 0).phased &&
      (heldCore.die 0).alive && !lateCore.mayArrive .computeEnd 0 && (lateCore.core 0).token && !(lateCore.core 0).arrived) = true := by
  decide +kernel

/-- R253, R308: a contribution that a terminated workgroup has sent counts as delivered, so that its group has arrived; that of an exited
group of a resident one does not. -/
theorem test_contribution_of_terminated :
    let s := fun (w : WgState) (g : GStatus) => (({ oneG (fun x => { x with status := g }) with colls := [mine] } : State)).setWg 0
      { one.wg 0 with state := w }
    ((s .terminated .terminated).groupArrived .computeEnd 0, (s .resident .exited).groupArrived .computeEnd 0) = (true, false) := by
  decide +kernel

theorem witness_WaveProgress_stragglers :
    (lateCore.lateGroups .computeEnd 0 == [0] && (lateCore.core 0).timer == some 0 && (lateCore.core 0).expiries == 0 &&
      (lateCore.core 0).limit == 5 && (lateCore.die 0).ck == 5 && lateCore.root.wave.isSome) = true := by decide +kernel

/-- A release into superstep `p` of a group in a wait of kind `k`, and a request before and after the tokens. -/
def released (p : Dword) (k : WaitKind) : State :=
  { coreWith (fun c => { c with relPending := true }) (alive id (one.modGroup 0 (fun x => { x with wait := some ⟨k, 0, 0, []⟩ })))
      with root := { one.root with ph := p } }

/-- The late group waits at a barrier, in handler mode and not. -/
theorem witness_WaveProgress_waiting (handler : Bool) :
    let s := lateCore.modGroup 0 (fun x => { x with handler := handler, wait := some ⟨.barrier (spadLoc 0 0) 32 true false, 0, 0, []⟩ })
    (s.lateGroups .computeEnd 0 = [0] ∧ (s.group 0).status = .live ∧ (s.group 0).handler = handler ∧ (s.group 0).wait ≠ none) ∧
      ∀ h k, (s.group h).wait = some k → ¬ AtQueue k.kind := by
  intro s
  have here : s.groups = [(0, s.group 0)] := by cases handler <;> decide +kernel
  have wait : (s.group 0).wait = some ⟨.barrier (spadLoc 0 0) 32 true false, 0, 0, []⟩ := by cases handler <;> decide +kernel
  refine ⟨by cases handler <;> decide +kernel, fun h k hk => ?_⟩
  by_cases e : h = 0
  · subst e
    rw [wait] at hk
    cases hk
    rintro (⟨_, _, _, h⟩ | ⟨_, _, _, _, h⟩) <;> cases h
  · rw [group_unlisted (by rw [here]; simp [Fmap.find, Ne.symm e])] at hk; cases hk

theorem witness_WaveProgress_release :
    ([((1 : Dword), WaitKind.phend), (2, .xend)].all (fun p => ((released p.1 p.2).core 0).relPending && ((released p.1 p.2).die 0).alive &&
      (released p.1 p.2).root.stage != .joining && ((released p.1 p.2).group 0).wait == some ⟨p.2, 0, 0, []⟩)) = true := by
  decide +kernel

theorem witness_WaveProgress_request (sent : Bool) :
    let s : State := { one with root := { one.root with incoming := [.boundary], tokenSent := sent } }
    s.root.incoming[0]? = some .boundary ∧ s.root.tokenSent = sent ∧ s.root.ph.getLsbD 0 = false := ⟨rfl, rfl, show one.root.ph.getLsbD 0 = false by decide +kernel⟩

/-- Both boundaries, with every core in service arrived; and one with a core that has not. -/
theorem cores_up (w : Wave) {c : Nat} (hc : CoreUp (allArrived (waving w id one)) c) : c < 12 :=
  coreUp_lt (fun d hd => by
    have : (allArrived (waving w id one)).dies = [(0, { Die.reset with alive := true })] := by cases w <;> decide +kernel
    simp [State.die, this, Fmap.get, Fmap.find, Ne.symm hd, Die.reset]) hc

theorem witness_WaveProgress_boundary (w : Wave) (c : Nat) (h : CoreUp (allArrived (waving w id one)) c) :
    ((allArrived (waving w id one)).core c).arrived = true ∧ ((allArrived (waving w id one)).core c).relPending = false := by
  have hc := cores_up w h
  have all : ((List.range 12).all (fun c => ((allArrived (waving w id one)).core c).arrived &&
    !((allArrived (waving w id one)).core c).relPending)) = true := by cases w <;> decide +kernel
  simpa using List.all_eq_true.1 all c (List.mem_range.2 hc)

theorem witness_WaveProgress_short :
    (allArrived (waving .computeEnd id one)).root.now = [] ∧ (allArrived (waving .computeEnd id one)).root.doomed = [] ∧
    (allArrived (waving .exchangeEnd id one)).root.ph.getLsbD 0 = true ∧ CoreUp (waving .computeEnd id one) 0 ∧
    ((waving .computeEnd id one).core 0).arrived = false :=
  ⟨by decide +kernel, by decide +kernel, by decide +kernel, ⟨by decide, by decide +kernel, by decide +kernel⟩, by decide +kernel⟩

/-- A detector that may start (a retired entry, a waiting group), one with no demand, a flip that is the last and one that is not, and an end
with one entry of each kind. -/
def graced (phase : Nat) (l : List Retire) : State :=
  let s := alive (fun d => { d with retireQ := l }) one
  { s with root := { s.root with ph := 4, g := 2, gpPhase := phase, gpBegan := 4 } }

theorem witness_GracePeriods_start :
    let s := graced 0 [⟨0, 65600, 1, 0, 3, 3, 0⟩]
    let w := (graced 0 []).modGroup 0 (fun x => { x with wait := some ⟨.gpwait 3, 0, 0, []⟩ })
    (s.root.gpPhase == 0 && !(s.die 0).lost && s.dies.all (fun p => !p.2.lost) && s.dies.any (fun p => p.2.retireQ.any (fun e => e.p < 4)) &&
      w.groups.any (fun p => p.2.status = .live && p.2.wait == some ⟨.gpwait 3, 0, 0, []⟩) && (graced 0 []).groups.all (fun p => p.2.wait.isNone) &&
      (graced 0 [⟨0, 65600, 1, 0, 3, 4, 0⟩]).dies.all (fun p => p.2.retireQ.all (fun e => 4 ≤ e.p))) = true := by
  decide +kernel

theorem witness_GracePeriods_flip :
    let s := coreWith (fun c => { c with flipPending := true }) (graced 1 [])
    let two := s.setCore 1 { s.core 1 with flipPending := true }
    (s.core 0).flipPending = true ∧ s.root.gpPhase = 1 ∧ (s.cores.all (fun p => p.1 == 0 || !p.2.flipPending)) = true ∧ CoreUp two 1 ∧
      (two.core 1).flipPending = true :=
  ⟨by decide +kernel, by decide +kernel, by decide +kernel, ⟨by decide, by decide +kernel, by decide +kernel⟩, by decide +kernel⟩

/-- A freed block, a note into a ring with room (its slot can be written) and into a full one; a count that is not 0. -/
theorem witness_GracePeriods_end :
    let pool := (graced 2 [⟨0, 65600, 1, 0, 3, 3, 0⟩]).setPool 0 0 3 { base := 65536, cfg := BitVec.ofNat 64 (2 * 2 ^ 32 + 64), stack := [], next := 2, freed := [] }
    let ring := fun (t : Nat) => (graced 2 [⟨0, 65600, 1, 1, 3, 3, 0⟩]).setCtx 0 { one.ctx 0 with note := 65536, noteTail := t }
    (pool.root.gpPhase == 2 && Fmap.risingFrom 0 pool.groups && (pool.cores.all (fun p => p.2.cnt0 == 0 && p.2.cnt1 == 0)) &&
      (pool.dies.all (fun p => p.2.sav0 == 0 && p.2.sav1 == 0)) && ((pool.pool 0 0 3).allocatedAt 65600).isSome &&
      Fmap.get 0 (pool.pool 0 0 3).freed 1 == 0 && (pool.die 0).retireQ.length == 1 && (pool.dies.all (fun p => p.1 == 0 || p.2.retireQ.isEmpty)) &&
      !ringFull (((ring 0).ctx 0).note.toNat % 16) 0 ((ring 0).ctx 0).noteTail && ringFull (((ring 1).ctx 0).note.toNat % 16) 0 ((ring 1).ctx 0).noteTail) = true ∧
    (coreWith (fun c => { c with cnt1 := 1 }) (graced 2 [])).cores.any (fun p => p.2.cnt1 != 0) = true ∧ (graced 2 []).root.g.getLsbD 0 = false := by
  decide +kernel

/-- A retired node that is not valid, one of another context, one whose count is 0, one that is done, one that waits for two, and a NOP
that waits for one; and two entries that are due on one die. -/
theorem witness_GracePeriods_node :
    let node := fun (n : Node) => (graced 2 [⟨0, 0, 0, 2, 7, 3, 0⟩]).setNode 7 n
    let two := { Node.reset with valid := true, state := .waiting, pred := 2 }
    (∀ n ∈ [Node.reset, { two with ctx := 1 }, { two with pred := 0 }, { two with state := .done }, two],
      (node n).root.gpPhase = 2 ∧ (node n).die 0 = (graced 2 [⟨0, 0, 0, 2, 7, 3, 0⟩]).die 0 ∧ (node n).node 7 = n) ∧
    (graced 2 [⟨0, 0, 0, 2, 7, 3, 0⟩]).cores.all (fun p => p.2.cnt0 == 0 && p.2.cnt1 == 0) = true ∧
    ((graced 2 [⟨0, 0, 0, 2, 7, 3, 0⟩]).die 0).retireQ.length = 1 ∧
    ((let one_ := { two with pred := 1 }
      one_.nsucc = 0 ∧ pktType one_.pkt = 0 ∧ (node one_).graphs = []) ∧
      (graced 2 [⟨0, 0, 0, 2, 7, 3, 0⟩, ⟨0, 0, 0, 2, 8, 3, 0⟩, ⟨0, 0, 0, 2, 9, 4, 0⟩]).dies.map (fun p => p.2.retireQ.filter (fun e => e.p < 4)) =
        [[⟨0, 0, 0, 2, 7, 3, 0⟩, ⟨0, 0, 0, 2, 8, 3, 0⟩]]) ∧
    (Node.reset.valid = false ∧ two.valid = true ∧ two.ctx = 0 ∧ ({ two with ctx := 1 } : Node).ctx ≠ 0 ∧ 2 ≤ two.pred) := by
  decide +kernel

/-- An exchange superstep in which die 0 wrote byte 2 and the tag of line 5, and slot 3, which are poisoned. -/
def written : State :=
  { waving .exchangeEnd id one with
      dirty := [(5, ⟨4, true, 0, 0⟩)], dirtySlots := [(3, (0, 0))], poison := [(40, true), (slotLoc 0 3 / 8, true)] }

theorem written_lines (m : Nat) : written.lineColliders m = [] := by
  by_cases h : m = 5
  · subst h; decide +kernel
  · have hd : written.dirty = [(5, ⟨4, true, 0, 0⟩)] := rfl
    have none : ∀ d, d < 4 → written.dirtyAt m d = none := fun d _ => by
      have hn' : ¬ 5 = d * 17592186044416 + m := by omega
      simp [State.dirtyAt, hd, lineOnDie, Fmap.find, hn']
    have e : ∀ b, written.writersOf m b = [] := fun b => by
      unfold State.writersOf
      rw [List.filter_eq_nil_iff]
      intro d hd; rw [none d (List.mem_range.1 hd)]; simp
    have t : written.tagWriters m = [] := by
      unfold State.tagWriters
      rw [List.filter_eq_nil_iff]
      intro d hd; rw [none d (List.mem_range.1 hd)]; simp
    simp [State.lineColliders, e, t]

theorem written_slots (j : Nat) : (written.slotWriters j).length ≤ 1 := by
  have hd : written.dirtySlots = [(3, (0, 0))] := rfl
  by_cases h : j = 3
  · subst h; decide +kernel
  · have : written.slotWriters j = [] := by
      unfold State.slotWriters
      rw [List.filter_eq_nil_iff]
      intro d _
      have hn' : ¬ 3 = d * 4096 + j := by omega
      simp [hd, Fmap.find, hn']
    simp [this]

theorem witness_MirrorPasses :
    (written.root.wave = some .exchangeEnd ∧ written.root.linesDone = false ∧ written.root.slotsDone = false ∧
      (written.die 0).alive = true ∧ (written.die 0).lost = false ∧ (Fmap.find written.dirtySlots (0 * 4096 + 3)).isSome = true ∧
      one.root.wave ≠ some .exchangeEnd ∧ Fmap.get false written.poison (mirrorByte 0 5 2 / 8) = true ∧
      written.poisoned (slotLoc 0 3) 8 = true) ∧
    ∃ x, Fmap.find written.dirty (0 * 17592186044416 + 5) = some x ∧ x.mask.getLsbD 2 = true ∧ x.mask.getLsbD 63 = false ∧ x.tag = true :=
  ⟨by decide +kernel, _, rfl, by decide, by decide, rfl⟩

/-- The same with die 1, which wrote byte 2 and the tag of line 5, and slot 3, too, and line 6 and slot 4 by itself. -/
def collided : State :=
  { written with
      dirty := [(5, ⟨4, true, 0, 0⟩), (17592186044421, ⟨4, true, 0, 0⟩), (17592186044422, ⟨4, true, 0, 0⟩)]
      dirtySlots := [(3, (0, 0)), (4099, (0, 0)), (4100, (0, 0))] }

theorem witness_MirrorPasses_collisions :
    (LowestDie (WroteByte collided 5 2) 0 ∧ WroteByte collided 5 2 1 ∧ LowestDie (WroteTag collided 5) 0 ∧ WroteTag collided 5 1) ∧
    LowestDie (fun d => (Fmap.find collided.dirtySlots (d * 4096 + 3)).isSome = true) 0 ∧
    (collided.dirty.map (fun p => p.1 % 17592186044416) = [5, 5, 6] ∧ collided.dirtySlots.map (fun p => p.1 % 4096) = [3, 3, 4] ∧
      (Fmap.find collided.dirtySlots (1 * 4096 + 3)).isSome = true) ∧
    collided.root.wave = some .exchangeEnd ∧ collided.root.linesDone = false ∧ collided.root.slotsDone = false ∧
      (collided.die 0).lost = false ∧ (collided.die 0).alive = true := by
  have b0 : WroteByte collided 5 2 0 := ⟨⟨4, true, 0, 0⟩, rfl, by decide⟩
  have t0 : WroteTag collided 5 0 := ⟨⟨4, true, 0, 0⟩, rfl, rfl⟩
  exact ⟨⟨⟨by decide, b0, fun v hv => absurd hv (by omega)⟩, ⟨⟨4, true, 0, 0⟩, rfl, by decide⟩,
      ⟨by decide, t0, fun v hv => absurd hv (by omega)⟩, ⟨⟨4, true, 0, 0⟩, rfl, rfl⟩⟩,
    ⟨by decide, rfl, fun v hv => absurd hv (by omega)⟩, by decide +kernel⟩

/-- Page tables of context 0 that map the first gigabyte to itself. -/
def tables : State :=
  let s := (mem []).storeCells (cellsOf 0x800000 (leBytes 8 0x808001) ++ cellsOf 0x808000 (leBytes 8 0x810001) ++ cellsOf 0x810000 (leBytes 8 7))
  s.setCtx 0 { s.ctx 0 with root := 0x800001 }

/-- Requests whose walk ends in a leaf and in a fault; invalidations of one page and of all. -/
theorem witness_TranslationUpdates :
    let q := fun (r : Dword) => (tables.setCtx 0 { one.ctx 0 with root := r, inval := [0x1_0000, 15] }).setDie 0 { one.die 0 with walkQ := [⟨0, 65536, 0, 0⟩] }
    ((q 0x800001).die 0).walkQ[0]? = some ⟨0, 65536, 0, 0⟩ ∧
    (match (q 0x800001).walk 0 65536 with | .leaf p low => p == 7 && low == 30 | _ => false) = true ∧
    (match (q 0).walk 0 65536 with | .fault _ _ => true | _ => false) = true ∧ ((q 0).group 0).status = .live ∧
    ((q 0).wgOf 0).state = .resident ∧ ((q 0).core 0).tlb ≠ [] := by
  decide +kernel

/-- A root that is valid and one that is not; an address that a TLB holds, on a page that may be written and on one that may not; and
the last byte of the own allocation, the byte after it, the last byte of the window, and a peer of rank 3 that there is not. -/
theorem witness_TranslationUpdates_walks :
    let s := mem []
    let only := s.setCore 0 { s.core 0 with tlb := [⟨0, 3, 0, 65571⟩] }
    (tables.ctx 0).root.getLsbD 0 = true ∧ (one.ctx 0).root.getLsbD 0 = false ∧
    (match s.tlbHit 0 0 65536 with | some e => e.pte.getLsbD 2 && e.pte.getLsbD 3 | none => false) = true ∧
    (match only.tlbHit 0 0 0x30000 with | some e => !e.pte.getLsbD 2 && !e.pte.getLsbD 3 | none => false) = true ∧
    ([0x0F00000000001FFF, 0x0F00000000002000, 0x0F000000000FFFFF, 0x0F00000000700000, 0x0F00000000400000].map (fun a => s.target 0 a .load)) =
      [.spad (spadLoc 0 8191) 0, .range, .range, .range, .spad (spadLoc 0 0) 0] ∧ (s.wg 0).members[0]? = some 0 := by
  decide +kernel

/-- A fault ring with room whose next slot lies on a page that may be written, one that is full, and one on no page. -/
theorem witness_TrapDelivery_record :
    let ring := fun (base : Dword) (tail : Nat) => tables.setCtx 0 { tables.ctx 0 with fq := base + 2052, fqTail := tail }
    let place := fun (s : State) (va : Nat) => (s.ctxTarget 0 0 (BitVec.ofNat 64 va) .store).loc?
    let s := ring 65536 3
    ((s.ctx 0).fq.toNat % 16 = 4 ∧ (s.ctx 0).fq.getLsbD 11 = true ∧
      (s.ctx 0).fq.toNat / 4096 % 2 ^ 48 * 4096 + 32 * ((s.ctx 0).fqTail % 2 ^ 4) = 65632 ∧ (3 + 2 ^ 24 - (s.ctx 0).fqHead) % 2 ^ 24 ≠ 2 ^ 4) ∧
    (∀ i < 32, place s (65632 + i) = some (65632 + i) ∧ (s.die ((65632 + i) / 2 ^ 50 % 4)).lost = false) ∧
    (((ring 65536 16).ctx 0).fqTail + 2 ^ 24 - ((ring 65536 16).ctx 0).fqHead) % 2 ^ 24 = 2 ^ 4 ∧
    place (ring 0x40000000 0) 0x40000000 = none := by
  decide +kernel

/-- The slot of a ring, a signal and a packet can be read and written through the tables. -/
theorem witness_HostQueues_access : (tables.ctxRead 0 0 65536 8).isSome = true ∧ (tables.ctxWrite 0 0 65536 [1, 2]).isSome = true ∧
    tables.ctxRead 0 0 0x40000000 8 = none := by
  decide +kernel

/-- A workgroup whose peak holds its one group back, in a region or not; and two such workgroups. -/
def tight (r : Option Region) : State :=
  let s := (oneV [(4, 1)]).modGroup 0 (fun x => { x with region := r, stall := some (.pool 0 6) })
  s.setWg 0 { s.wg 0 with peakS := 5 }

def tightTwo (area : Dword) : State :=
  let s := tight none
  let s := s.setWg 1 { s.wg 0 with order := 1, members := [1] }
  let s := s.setGroup 1 { s.group 0 with wg := 1, v := [] }
  s.setCtx 0 { s.ctx 0 with spill := [(0, area)] }

theorem witness_StarvationAndArbitration_starved :
    ((tight (some (regionAt 0))).starved 0 && (tight (some (regionAt 0))).rollbackHelps 0 && (tight (some (regionAt 0))).newestFirst 0 == [0] &&
      (tight (some (regionAt 0))).residents 0 == [0] && (tight none).starved 0 && !(tight none).rollbackHelps 0 &&
      (tight none).newestFirst 0 == [0] && (tightTwo 65535).starved 0 && (tightTwo 65535).newestFirst 0 == [1, 0] &&
      Fmap.risingFrom 0 (tightTwo 65535).wgs && !one.starved 0 && !(tightTwo 65535).rollbackHelps 0 && !(tightTwo 65535).rollbackHelps 1 &&
      !(tightTwo 65535).workOut (fun j => j = 1)) = true := by
  decide +kernel

/-- Two workgroups whose groups are in regions that a rollback would help, dispatched one after the other. -/
theorem witness_StarvationAndArbitration_newest :
    let s := tight (some (regionAt 0))
    let s := s.setWg 1 { s.wg 0 with order := 1, members := [1] }
    let s := s.setGroup 1 { s.group 0 with wg := 1, v := Fmap.mapVals (fun _ sl => { sl with id := sl.id + 100 }) (s.group 0).v }
    (s.starved 0 && s.newestFirst 0 == [1, 0] && s.residents 0 == [0, 1] && s.rollbackHelps 0 && s.rollbackHelps 1) = true ∧
      (s.group 1).wg = 1 ∧ (s.group 0).wg = 0 ∧ (s.wg 0).order < (s.wg 1).order ∧ (s.group 1).region = some (regionAt 0) := by
  decide +kernel

/-- The size of a spilled workgroup is free (log 10): a size up to the area's fits, and any size but 0 exceeds an area of none. -/
theorem witness_StarvationAndArbitration_spill (h : Config.spillUnits 32 0 0 ≤ 65535) : (tightTwo 65535).spillFits 1 = true := by
  have e : (tightTwo 65535).spillFits 1 = decide ((tightTwo 65535).spillUsed 0 0 + (tightTwo 65535).spillNeed 1 ≤ 65535) := rfl
  have u : (tightTwo 65535).spillUsed 0 0 = 0 := by decide +kernel
  have n : (tightTwo 65535).spillNeed 1 = Config.spillUnits 32 0 0 := by
    unfold State.spillNeed
    rw [show ((tightTwo 65535).wg 1).lanes = 32 by decide +kernel, show ((tightTwo 65535).slicesOf 1).length = 0 by decide +kernel,
      show ((tightTwo 65535).entriesOf 1).length = 0 by decide +kernel]
  rw [e, u, n]; simpa using h

/-- A member that is evicted, a workgroup that resumes and one whose cluster is not whole; weights; groups ready for 512 clk and none. -/
theorem witness_StarvationAndArbitration_rest :
    let st := fun (w : WgState) => one.setWg 0 { one.wg 0 with state := w }
    let both := (st .evicted).setWg 1 { one.wg 0 with state := .resident, members := [0, 1] }
    let both := both.setWg 0 { both.wg 0 with members := [0, 1] }
    let old := (alive id one).setDie 0 { (alive id one).die 0 with ck := 512 }
    ((st .evicting).wg 0).state = .evicting ∧ (st .evicting).workOut (fun j => j = 0) = false ∧
    (((st .evicted).wg 0).resV + ((st .evicted).wg 0).excessV ≤ (st .evicted).vfree 0 ∧ ((st .evicted).wg 0).resS ≤ (st .evicted).sfree 0) ∧
    ((Fmap.find (st .evicted).groups 0).isSome = true ∧ ((st .evicted).group 0).wg ∈ ((st .evicted).wg 0).members ∧
      Fmap.risingFrom 0 (st .evicted).groups = true) ∧
    (both.wg 1).state ≠ .evicted ∧ (both.wg 0).members = [0, 1] ∧ (both.wg 1).state.holdsSlots = true ∧
    ((old.die 0).ck.toNat % 64 = 0 ∧ Fmap.risingFrom 0 old.wgs = true ∧ (∀ p ∈ old.wgs, p.2.kern.stages.length ≤ 8) ∧
      (old.wg 0).state = .resident ∧ (old.wg 0).kern.stages = []) ∧ old.overdue 0 = [0] ∧ one.overdue 0 = [] := by
  decide +kernel

/-- Two groups of one workgroup on a NOP, on a die whose clock ticks. -/
def ready2 (f g : Group → Group) : State := alive id ((two f g).storeCells (cellsOf 65536 (wordBytes 0x1C000000)))

/-- What group 0 has in the state where it goes on beside group 1, if it does. -/
noncomputable def turnOf (s : State) (p : State → Bool) : Bool :=
  match s.admitted 0 with
  | some t => p t
  | none => false

/-- A group that is blocked, has issued, or has no slot left; the guard's first group and not its second; a group in a run before one
beside it, also where the runs need every slot that is left; two of one candidate, of which the one ready longer, and else the one of the lower base, goes first; and candidates behind
their share. -/
theorem witness_ArbiterOrder_turns :
    let s := ready2 id id
    let core := fun (f : Core → Core) (s : State) => s.setCore 0 (f (s.core 0))
    (s.ready 0 && s.ready 1 && s.keyOf 0 == s.keyOf 1 && decide (∀ p ∈ (s.core 0).weights, 0 < p.2)) = true ∧
    ((oneG (fun x => { x with parked := some 9 })).unblocked 0 = false ∧ ((oneG (fun x => { x with issued := true })).group 0).issued = true ∧
      16 ≤ ((core (fun k => { k with slots := 16 }) s).core 0).slots) ∧
    (turnOf s (fun t => (t.core 0).issues == [(s.keyOf 0, ⟨1, 0, 0⟩)] && (t.core 0).cands == [s.keyOf 0]) && (s.admitted 1).isNone &&
      turnOf (ready2 id (fun x => { x with readySince := 9 })) (fun _ => true) &&
      !turnOf (ready2 (fun x => { x with readySince := 9 }) id) (fun _ => true) &&
      !turnOf (core (fun k => { k with guard := [1] }) s) (fun _ => true) &&
      turnOf (core (fun k => { k with guard := [0, 1] }) s) (fun _ => true) &&
      !turnOf (ready2 id (fun x => { x with hrun := 2 })) (fun _ => true) &&
      turnOf (ready2 (fun x => { x with hrun := 2 }) id) (fun t => (t.group 0).hrun == 1) &&
      turnOf (core (fun k => { k with slots := 15 }) (ready2 (fun x => { x with hrun := 2, readySince := 9 }) id)) (fun _ => true)) = true := by decide +kernel

/-- Two stages with weights 1 and 3: the second has the first two slots, the first the third, and the second the fourth. Three of
equal weights, of which each has two slots of the first six; after five of them, one that has had one is due, and no other. -/
theorem witness_ArbiterOrder_shares :
    let k := { Core.reset with weights := [(0, 1), (1, 3)], cands := [0, 1] }
    let has := fun (cs l : List Nat) (k : Core) => l.foldl (fun k j => { k with issues := k.taking cs j }) k
    let turns := fun (cs : List Nat) (k : Core) => cs.filter (k.shareTurn cs)
    let three := { Core.reset with cands := [0, 1, 2] }
    ((List.range 4).map (fun n => turns [0, 1] (has [0, 1] (([1, 1, 0, 1] : List Nat).take n) k)) = [[1], [1], [0], [1]]) ∧
      turns [0, 1, 2] (has [0, 1, 2] [0, 1, 2, 0, 1] three) = [2] ∧ (has [0, 1] [1] k).issues = [(0, ⟨0, 0, -1⟩), (1, ⟨1, 1, 0⟩)] := by
  decide +kernel

/-- A ready group with a free slot beside one of its candidate that has issued, and one which must issue for the guard and for a run;
and a waiting group at a clk. -/
theorem witness_ArbiterOrder_due :
    let s := alive id one
    let first := s.setCore 0 { s.core 0 with guard := [0] }
    let run := s.modGroup 0 (fun x => { x with hrun := 2 })
    let idle := s.modGroup 0 (fun x => { x with wait := some ⟨.phend, 0, 0, []⟩ })
    (let two := ready2 id (fun x => { x with issued := true })
     two.ready 1 = true ∧ (two.group 1).issued = true ∧ two.keyOf 1 = two.keyOf 0 ∧ two.ready 0 = true ∧ (two.group 0).issued = false ∧
       two.residents 0 = [0, 1]) ∧
    (∀ t ∈ [s, first, run], Fmap.risingFrom 0 t.groups = true ∧ (t.core 0).slots < 16 ∧ 0 ∈ t.residents 0 ∧ t.ready 0 = true ∧
      t.ticks (t.dieOf 0) = true) ∧ (first.core (first.coreOf 0)).guard = [0] ∧ (run.core (run.coreOf 0)).guard = [] ∧
    0 < (run.group 0).hrun ∧ idle.ticks (idle.dieOf 0) = true ∧ Fmap.find idle.groups 0 = some (idle.group 0) ∧
    (idle.group 0).status = .live ∧ (idle.group 0).wait ≠ none := by decide +kernel

/-- A launch record of a grid of 4 workgroups of 64 lanes, in clusters of 2, on die 0; and one whose grid has ended. -/
def record : LRec :=
  { desc := 0, gx := 2, gy := 2, gz := 1, next := [0, 2, 2, 2], ended := 0, state := .dispatching, node := none, childLeft := 1, queue := 0
    sig := false, siga := 65536, args := 0x12340, cpb := 1, place := 0, rmen := false, rankmap := 0
    kern := { Kernel.empty with lanes := 64, cluster := 2, vpeak := 64, speak := 64 }, order := 0 }

def recorded (r : LRec) : State :=
  let s := alive id tables
  s.setCtx 0 { s.ctx 0 with recs := [(3, r)] }

def ended : LRec := { record with next := [2, 2, 2, 2], ended := 4 }

theorem witness_DispatchAndCompletion_dispatch :
    let s := recorded record
    s.openRecords = [(0, 3, record)] ∧ Fmap.find (s.ctx 0).recs 3 = some record ∧ record.next.length = 4 ∧ record.next.getD 0 0 < record.clusters ∧
    pickCores (fun c => s.dispatchOpen c && s.coreTakes c record.kern.need) 0 (List.range 2) false 0 = some [0, 1] ∧ one.openRecords = [] ∧
    (let staged := { record with kern := { record.kern with stages := [(1, 16), (1, 16)] } }
     let t := recorded staged
     t.openRecords = [(0, 3, staged)] ∧ pickCores (fun c => t.dispatchOpen c && t.coreTakes c staged.kern.need) 0 (List.range 2) false 0 = some [0, 1]) := by
  decide +kernel

/-- A workgroup whose one group has exited, alone and with an XGET in flight, and one that is evicted, and one whose group lives or that has a CPY; a complete grid
with and without a signal, and one of a node. -/
theorem witness_DispatchAndCompletion_completion :
    let gone := fun (l : Fmap EngOp) => ({ oneG (fun x => { x with status := .exited }) with engs := l } : State)
    let node := recorded { ended with node := some 7 }
    ((∀ l ∈ [[], [(7, newOp .xget 0 0 [])]], ((gone l).wg 0).state = .resident ∧ (∀ p ∈ (gone l).groups, p.2.status ≠ .live) ∧
        ∀ p ∈ (gone l).engs, p.2.wg = 0 → p.2.kind = .xput ∨ p.2.kind = .xget) ∧ one.me.status = .live ∧
      (newOp .cpy 0 0 []).kind ≠ .xput ∧ (newOp .cpy 0 0 []).kind ≠ .xget) ∧
    (ended.allOut = true ∧ ended.ended = ended.gx * ended.gy * ended.gz ∧ ((recorded ended).die 0).lost = false ∧ record.allOut = false) ∧
    ((recorded ended).heldNodes 0 = [] ∧ ended.node = none ∧ ended.sig = false) ∧
    (((recorded { ended with sig := true }).ctxRead 0 0 65536 8).isSome = true ∧
      ((recorded { ended with sig := true }).ctxWrite 0 0 65536 (leBytes 8 0)).isSome = true) ∧
    (let out := (gone []).setWg 0 { one.wg 0 with state := .evicted }
     (out.wg 0).state = .evicted ∧ ∀ p ∈ out.groups, p.2.status ≠ .live) ∧
    (node.graphs = [] ∧ (node.node 7).nsucc = 0) := by
  decide +kernel

/-- A record, whose clusters go to die 0; and its facets: the one core in use leaves room for a pair in facet 0, and the cores that
RANKMAP names lie in facet 1 where the second core is in use. -/
theorem witness_DispatchAndCompletion_places :
    (0 < record.cpb ∧ record.clusters = 2 ∧ record.nextOn 0 1 = 1 ∧ record.nextOn 1 1 = 2 ∧
      pickCores (fun c => c != 0) 0 [0, 1] false 0 = some [1, 2] ∧ pickCores (fun c => c != 1) 0 [0, 1] true 4 = some [4, 5]) ∧
    PlacedOn (fun c => c != 0) 0 0 2 false 0 [1, 2] := by
  refine ⟨by decide, rfl, by decide, fun c hc => ?_, by decide⟩
  rcases List.mem_pair.1 hc with rfl | rfl
  · exact ⟨rfl, 1, by decide, rfl⟩
  · exact ⟨rfl, 2, by decide, rfl⟩

/-- A packet, from a first word, and pairs of an offset and a doubleword. -/
def packet (w : Nat) (l : List (Nat × Nat)) : List Byte :=
  l.foldl (fun p x => p.take x.1 ++ leBytes 8 x.2 ++ p.drop (x.1 + 8)) (leBytes 8 w ++ List.replicate 56 0)

/-- Queue 5 over the page at 0x1_0000, active, with 16 slots, one packet, and a descriptor of 128 bytes at 0x1_0400. -/
def queued (st : CtxState) (q : QState) (p : List Byte) : State :=
  let s := (alive id tables).storeCells (cellsOf 65536 p)
  let s := s.storeCells (cellsOf 66560 (leBytes 8 1 ++ leBytes 8 0 ++ leBytes 8 (32 + 2 ^ 32) ++ leBytes 8 (2 ^ 16 + 2 ^ 49)))
  let s := s.setHq 5 { HQueue.reset with base := 65536, en := true, log2n := 4, widx := 1, state := q }
  s.setCtx 0 { s.ctx 0 with state := st, dies := 15 }

/-- The tables of `tables` stand in memory, context 0 uses them, and die 0 is in service. -/
def mapped (s : State) : Bool :=
  (s.ctx 0).root == 0x800001 && s.natAt 0x800000 8 == 0x808001 && s.natAt 0x808000 8 == 0x810001 && s.natAt 0x810000 8 == 7 &&
    !(s.die 0).lost

/-- The two upper entries lead on, and the third is the leaf of the first gigabyte. -/
theorem mapped_walk {s : State} {va : Dword} (h : mapped s = true) (hv : va.toNat < 2 ^ 30) : s.walk 0 va = .leaf 7 30 := by
  have entries : (s.ctx 0).root = 0x800001 ∧ s.natAt 0x800000 8 = 0x808001 ∧ s.natAt 0x808000 8 = 0x810001 ∧ s.natAt 0x810000 8 = 7 := by
    simpa [mapped, and_assoc] using (Bool.and_eq_true_iff.1 h).1
  have hr : regionOf va = .translated := by
    unfold regionOf
    rw [if_neg (by omega), if_pos (by omega)]
  have e0 : va.toNat / 2 ^ 48 % 2 ^ 12 = 0 := by omega
  have e1 : va.toNat / 2 ^ 39 % 2 ^ 9 = 0 := by omega
  have e2 : va.toNat / 2 ^ 30 % 2 ^ 9 = 0 := by omega
  have l0 : pteAddr 0x808001 = 0x808000 := by decide
  have l1 : pteAddr 0x810001 = 0x810000 := by decide
  unfold State.walk
  rw [entries.1, if_neg (by decide), hr, show (0x800001 : Dword).toNat / 32768 % 137438953472 * 32768 = 0x800000 by decide]
  unfold walkLevels
  rw [State.walkFrom, e0, entries.2.1]
  simp only [show BitVec.ofNat 64 0x808001 = (0x808001 : Dword) from rfl]
  rw [if_neg (by decide), if_neg (by decide), if_neg (by decide), l0, State.walkFrom, e1, entries.2.2.1]
  simp only [show BitVec.ofNat 64 0x810001 = (0x810001 : Dword) from rfl]
  rw [if_neg (by decide), if_neg (by decide), if_neg (by decide), l1, State.walkFrom, e2, entries.2.2.2]
  rfl

/-- A byte of the first gigabyte leads to its own location. -/
theorem mapped_target {s : State} {va : Dword} (h : mapped s = true) (hv : va.toNat < 2 ^ 30) :
    s.ctxTarget 0 0 va .load = .memory va.toNat 0 false false := by
  have hr : regionOf va = .translated := by
    unfold regionOf
    rw [if_neg (by omega), if_pos (by omega)]
  have e : leafAddr 7 14 va 0 = va.toNat := by
    unfold leafAddr
    rw [show pteMir 7 = false by decide, show pteAddr 7 = 0 by decide, Nat.mod_eq_of_lt (by omega)]
    simp
  unfold State.ctxTarget
  rw [hr, mapped_walk h hv]
  show leafTarget 7 14 va 0 .load = _
  unfold leafTarget
  rw [if_pos (by decide), e]
  rfl

/-- So that a read through the tables is a read of memory. -/
theorem mapped_ctxRead {s : State} {va : Dword} {n : Nat} (h : mapped s = true) (hv : va.toNat + n ≤ 2 ^ 30) :
    s.ctxRead 0 0 va n = some (s.bytesAt va.toNat n) := by
  have hl : (s.die 0).lost = false := by
    simp only [mapped, Bool.and_eq_true] at h
    simpa using h.2
  have go : ∀ l : List Nat, (∀ i ∈ l, i < n) → (l.mapM (fun i =>
      match s.ctxTarget 0 0 (va + BitVec.ofNat 64 i) .load with
      | .memory pa _ _ _ => if (s.die (paDie pa)).lost then none else some (s.byteAt pa)
      | _ => none) : Option (List Byte)) = some (l.map (fun i => s.byteAt (va.toNat + i))) := by
    intro l
    induction l with
    | nil => intro _; rfl
    | cons i t ih =>
      intro hi
      have hin := hi i List.mem_cons_self
      have ev : (va + BitVec.ofNat 64 i).toNat = va.toNat + i := by
        rw [BitVec.toNat_add, BitVec.toNat_ofNat, Nat.mod_eq_of_lt (a := i) (by omega), Nat.mod_eq_of_lt (by omega)]
      rw [List.mapM_cons, ih (fun j hj => hi j (List.mem_cons_of_mem _ hj)), mapped_target h (by omega), ev]
      have hd : paDie (va.toNat + i) = 0 := by unfold paDie; omega
      simp [hd, hl]
  exact go _ (fun i hi => List.mem_range.1 hi)

/-- Queue 5 of context 0 is in a state in which it is served, and its next slot holds the packet `p`, which nothing holds back. -/
structure Yields (s : State) (p : List Byte) : Prop where
  tables : mapped s = true
  served : (s.hq 5).state = .active ∨ (s.hq 5).state = .held ∧ heldTakes (some p) = true
  context : (s.hq 5).ctx = 0
  some_ : (s.hq 5).widx ≠ (s.hq 5).ridx
  slot : (s.hq 5).slotVa (s.hq 5).ridx.toNat = 65536
  bytes : s.bytesAt 65536 64 = p
  free : s.blocked 5 0 p = false

/-- Such a queue has that packet as its head. -/
theorem headOf_mapped {s : State} {p : List Byte} (h : Yields s p) : s.headOf 5 = some ⟨5, 0, some p⟩ := by
  have r : s.ctxRead 0 0 65536#64 64 = some p := by rw [mapped_ctxRead h.tables (by decide), ← h.bytes]; rfl
  unfold State.headOf
  rcases h.served with a | ⟨a, k⟩
  · simp [a, h.context, h.some_, h.slot, r, h.free]
  · simp [a, h.context, h.some_, h.slot, r, h.free, k]

/-- `Yields` as a check. -/
def yields (s : State) (p : List Byte) : Bool :=
  mapped s && (((s.hq 5).state == .active || (s.hq 5).state == .held && heldTakes (some p)) && ((s.hq 5).ctx == 0 &&
    ((s.hq 5).widx != (s.hq 5).ridx && ((s.hq 5).slotVa (s.hq 5).ridx.toNat == 65536 && (s.bytesAt 65536 64 == p && !s.blocked 5 0 p)))))

theorem yields_of {s : State} {p : List Byte} (h : yields s p = true) : Yields s p := by
  simp only [yields, Bool.and_eq_true, Bool.or_eq_true, beq_iff_eq, bne_iff_ne, ne_eq, Bool.not_eq_true'] at h
  exact { tables := h.1, served := h.2.1, context := h.2.2.1, some_ := h.2.2.2.1, slot := h.2.2.2.2.1, bytes := h.2.2.2.2.2.1
          free := h.2.2.2.2.2.2 }

theorem headOf_of {s : State} {p : List Byte} (h : yields s p = true) : s.headOf 5 = some ⟨5, 0, some p⟩ := headOf_mapped (yields_of h)

/-- The descriptor that `queued` puts in memory. -/
def descriptor : List Byte :=
  leBytes 8 1 ++ leBytes 8 0 ++ leBytes 8 (32 + 2 ^ 32) ++ leBytes 8 (2 ^ 16 + 2 ^ 49) ++ List.replicate 96 0

/-- What step 2 of a LAUNCH reads through the tables, where the descriptor has no table of its own. -/
theorem launchRead_mapped {s : State} {p : List Byte} (h : mapped s = true) (hd : pktDesc p + 128 ≤ 2 ^ 30)
    (hb : s.bytesAt (pktDesc p) 128 = descriptor) (hi : pktInd p = true → pktInda p + 4 ≤ 2 ^ 30) :
    s.launchRead 0 p = some ⟨descriptor, [], [], if pktInd p then s.natAt (pktInda p) 4 else fieldAt p 4 4⟩ := by
  have at_ : ∀ a n : Nat, a + n ≤ 2 ^ 30 → s.ctxRead 0 0 (BitVec.ofNat 64 a) n = some (s.bytesAt a n) := fun a n l => by
    have e : (BitVec.ofNat 64 a).toNat = a := by rw [BitVec.toNat_ofNat]; omega
    rw [mapped_ctxRead h (by omega), e]
  have gx : (if pktInd p then (s.ctxRead 0 0 (BitVec.ofNat 64 (pktInda p)) 4).map leNat else some (fieldAt p 4 4)) =
      some (if pktInd p then s.natAt (pktInda p) 4 else fieldAt p 4 4) := by
    by_cases c : pktInd p = true
    · rw [if_pos c, if_pos c, at_ _ _ (hi c)]; rfl
    · rw [if_neg c, if_neg c]
  unfold State.launchRead
  rw [at_ _ _ hd, hb, gx]
  simp only [show fieldAt descriptor 80 4 = 0 by decide +kernel, show fieldAt descriptor 84 4 = 0 by decide +kernel]
  rfl

/-- What `launchRead_mapped` asks, as a check. -/
def launches (s : State) (p : List Byte) : Bool :=
  mapped s && (decide (pktDesc p + 128 ≤ 2 ^ 30) && (s.bytesAt (pktDesc p) 128 == descriptor &&
    (!pktInd p || decide (pktInda p + 4 ≤ 2 ^ 30))))

theorem launchRead_of {s : State} {p : List Byte} (h : launches s p = true) :
    s.launchRead 0 p = some ⟨descriptor, [], [], if pktInd p then s.natAt (pktInda p) 4 else fieldAt p 4 4⟩ := by
  simp only [launches, Bool.and_eq_true, Bool.or_eq_true, Bool.not_eq_true', decide_eq_true_eq, beq_iff_eq] at h
  exact launchRead_mapped h.1 h.2.1 h.2.2.1 (fun c => h.2.2.2.resolve_left (by simp [c]))

/-- A complete grid whose node has one successor: with no count left, waiting for two, a NOP, one of another type, and a LAUNCH. -/
theorem witness_DispatchAndCompletion_graph :
    let next : Node := { Node.reset with valid := true, state := .waiting, pred := 1 }
    let done := (queued .active .active []).setCtx 0 { (queued .active .active []).ctx 0 with recs := [(3, { ended with node := some 7 })] }
    let s := fun (n : Node) => (done.setNode 7 { Node.reset with valid := true, state := .launched, nsucc := 1, succ := 8 }).setNode 8 n
    let l := packet (1 + 2 ^ 16 + 2 ^ 32) [(8, 1 + 2 ^ 16), (16, 66560)]
    (∀ n ∈ [{ next with pred := 0 }, { next with pred := 2 }, next, { next with pkt := packet 3 [] }, { next with pkt := l }],
      (s n).heldNodes 0 = [] ∧ (s n).graphs = [] ∧ ((s n).node 7).nsucc = 1 ∧ ((s n).node 7).succ.toNat % 65536 = 8 ∧ (s n).node 8 = n ∧
        ((s n).die 0).lost = false ∧ ((s n).ctx 0).recs.length < 256) ∧
    (ended.allOut = true ∧ ended.ended = ended.gx * ended.gy * ended.gz ∧ ended.sig = false) ∧
    (pktType next.pkt = 0 ∧ pktType (packet 3 []) = 3 ∧ pktType l = 1 ∧ reservedZero l = true ∧ pktDesc l % 128 = 0 ∧
      pktInd l = false ∧ pktSig l = false) ∧
    (match (s { next with pkt := l }).launchRead 0 l with
      | some r => (s { next with pkt := l }).launchCode 0 r (launchRecord l r 0 (some 8) 0) == 0
      | none => false) = true := by
  intro next done s l
  have r := launchRead_of (s := s { next with pkt := l }) (p := l) (by decide +kernel)
  rw [r]
  decide +kernel

/-- Doorbells that leave 16 packets and 17; disabled and faulty queues; legal and illegal enables. -/
theorem witness_HostQueues_registers :
    let s := queued .active .active []
    let d : State := s.setHq 5 { s.hq 5 with state := .disabled, base := 0x10000 }
    ((s.hq 5).state = .active ∧ ((16 : Word) - (s.hq 5).widx).toNat + ((s.hq 5).widx - (s.hq 5).ridx).toNat ≤ 2 ^ (s.hq 5).log2n ∧
      2 ^ (s.hq 5).log2n < ((17 : Word) - (s.hq 5).widx).toNat + ((s.hq 5).widx - (s.hq 5).ridx).toNat) ∧
    ((d.hq 5).state = .disabled ∧ (0x80000004 : Word).getLsbD 31 = true ∧ (0x80000004 : Word).toNat % 16 = 4 ∧
      (d.hq 5).base.toNat % (64 * 2 ^ 4) = 0 ∧ (d.ctx 0).state = .active ∧ (0x80000003 : Word).toNat % 16 = 3) ∧
    ((queued .active .fault []).hq 5).state = .fault ∧ ((queued .killed .active []).ctx 0).state = .killed := by
  decide +kernel

/-- A peer that may write the queue, and one that may not. -/
theorem witness_HostQueues_peers :
    let s : State := { (queued .active .active []) with acl := [(0, BitVec.ofNat 64 (3 + 7 * 2 ^ 48 + 5 * 2 ^ 30 + 2 ^ 19))] }
    let s := s.setHq 5 { s.hq 5 with peer := true }
    (s.hq 5).peer = true ∧ (∃ e ∈ s.acl, e.2.getLsbD 0 = true ∧ e.2.getLsbD 1 = true ∧ e.2.toNat / 2 ^ 48 = 7 ∧
      e.2.toNat / 2 ^ 30 % 1024 ≤ 5 ∧ 5 < e.2.toNat / 2 ^ 30 % 1024 + e.2.toNat / 2 ^ 19 % 2048) ∧ (one.hq 5).peer = false := by
  decide +kernel

/-- With one queue in use and no device-launch queue, a round sees the head of that queue. -/
theorem candidates_of {s : State} {x : HQueue} (hq : s.queues = [(5, x)]) (hd : ∀ k, (s.ctx k).dlq = []) (hl : s.root.lastQueue = 1087) :
    s.candidates = (s.headOf 5).toList := by
  have none : ∀ q, q ≠ 5 → s.headOf q = none := fun q h => by
    have e : s.hq q = HQueue.reset := by simp [State.hq, Fmap.get, Fmap.find, hq, Ne.symm h]
    unfold State.headOf
    by_cases c : q < 1024
    · simp [c, e, HQueue.reset]
    · simp [c, hd]
  have round : ∀ h : Option Head, ((List.range allQueues).filterMap (fun i => if (1087 + 1 + i) % allQueues = 5 then h else Option.none)).take 64 =
      h.toList := fun h => by
    have places : (List.range allQueues).filter (fun i => (1087 + 1 + i) % allQueues = 5) = [5] := by decide +kernel
    cases h with
    | none => simp
    | some h => 
      have : (List.range allQueues).filterMap (fun i => if (1087 + 1 + i) % allQueues = 5 then some h else Option.none) =
          ((List.range allQueues).filter (fun i => (1087 + 1 + i) % allQueues = 5)).map (fun _ => h) := by
        induction List.range allQueues with
        | nil => rfl
        | cons a l ih => by_cases c : (1087 + 1 + a) % allQueues = 5 <;> simp [c, ih]
      rw [this, places]; rfl
  rw [← round]
  unfold State.candidates
  congr 2
  funext i
  rw [hl]
  split
  · next h => rw [h]
  · next h => exact none _ h

theorem queued_candidates (st : CtxState) (q : QState) (p : List Byte) :
    (queued st q p).candidates = ((queued st q p).headOf 5).toList := by
  have c : ∃ c0, (queued st q p).ctxs = [(0, c0)] ∧ c0.dlq = [] := ⟨_, rfl, rfl⟩
  obtain ⟨c0, h, hd⟩ := c
  refine candidates_of (x := (queued st q p).hq 5) rfl (fun k => ?_) rfl
  cases k with
  | zero => simpa [State.ctx, Fmap.get, Fmap.find, h] using hd
  | succ k => simp [State.ctx, Fmap.get, Fmap.find, h, Ctx.reset]

/-- LAUNCH packets that fail step 1 in each way, one that cannot be read, one whose GX reads 0, and one that fails code 3. -/
def rejects : List (List Byte) :=
  [packet (1 + 2 ^ 16 + 2 ^ 32) [(8, 1 + 2 ^ 16), (16, 66561)], packet (257 + 2 ^ 16 + 2 ^ 32) [(8, 1 + 2 ^ 16), (16, 66560), (48, 2)],
   packet (513 + 2 ^ 16 + 2 ^ 32) [(8, 1 + 2 ^ 16), (16, 66560), (40, 4)], packet (1 + 2 ^ 16 + 2 ^ 32) [(8, 1 + 2 ^ 16), (16, 0x40000000)],
   packet (257 + 2 ^ 16) [(8, 1 + 2 ^ 16), (16, 66560), (48, 65792)], packet (1 + 2 ^ 16) [(8, 1 + 2 ^ 16), (16, 66560)]]

/-- The one candidate of a round: its packet read, or not readable. -/
theorem witness_HostQueues_round (p : List Byte)
    (hp : p ∈ [packet 3 [], packet 0x104 [(8, 65600), (16, 1)], packet 9 []] ++ rejects ++ [packet 2 []]) :
    (queued .active .active p).candidates = [⟨5, 0, some p⟩] ∧ ((queued .active .active p).die 0).lost = false ∧
      (queued .active .active p).blocked 5 0 p = false := by
  have y : yields (queued .active .active p) p = true := by revert p hp; decide +kernel
  refine ⟨by rw [queued_candidates, headOf_of y]; rfl, ?_, (yields_of y).free⟩
  have m := (yields_of y).tables
  simp only [mapped, Bool.and_eq_true] at m
  simpa using m.2

theorem witness_HostQueues_packets :
    pktOk (packet 0 []) = true ∧ pktType (packet 0 []) = 0 ∧ pktOk (packet 3 []) = true ∧ fieldAt (packet 3 []) 1 1 = 0 ∧
    pktOk (packet 4 [(8, 65600)]) = true ∧ fieldAt (packet 0x104 [(8, 65600), (16, 1)]) 1 1 = 1 ∧ pktOk (packet 9 []) = false ∧
    ((queued .active .active []).ctxRead 0 0 65600 8).isSome = true ∧ ((queued .active .active []).ctxRead 0 0 0x40000000 8) = none ∧
    ((queued .active .active []).ctxWrite 0 0 65600 (leBytes 8 1)).isSome = true := by
  decide +kernel

/-- An unreadable slot; PREEMPT-ACK of a saved context; a launch that is accepted, one that is rejected, and no round at all. -/
theorem witness_HostQueues_rounds :
    let launch := fun (gx : Nat) => packet (1 + 2 ^ 16 + gx * 2 ^ 32) [(8, 1 + 2 ^ 16), (16, 66560)]
    let far := (queued .active .active []).setHq 5 { (queued .active .active []).hq 5 with base := 0x40000000 }
    let s := fun (gx : Nat) => queued .active .active (launch gx)
    let code := fun (gx : Nat) => match (s gx).launchRead 0 (launch gx) with
      | some r => some ((s gx).launchCode 0 r (launchRecord (launch gx) r 5 none (s gx).nextId))
      | none => none
    (far.headOf 5 = some ⟨5, 0, none⟩ ∧ one.candidates = [] ∧ pktOk (launch 1) = true ∧ pktType (launch 1) = 1 ∧
      pktDesc (launch 1) % 128 = 0 ∧ pktInd (launch 1) = false ∧ pktSig (launch 1) = false) ∧
    (queued .saved .held (packet 5 [])).headOf 5 = some ⟨5, 0, some (packet 5 [])⟩ ∧ (s 1).headOf 5 = some ⟨5, 0, some (launch 1)⟩ ∧
    code 1 = some 0 ∧ code 0 = some 3 := by
  intro launch far s code
  have c : ∀ gx ∈ [0, 1], code gx =
      some ((s gx).launchCode 0 ⟨descriptor, [], [], gx⟩ (launchRecord (launch gx) ⟨descriptor, [], [], gx⟩ 5 none (s gx).nextId)) := by
    intro gx hg
    have e : (if pktInd (launch gx) then (s gx).natAt (pktInda (launch gx)) 4 else fieldAt (launch gx) 4 4) = gx := by
      revert gx hg; decide +kernel
    have r := launchRead_of (s := s gx) (p := launch gx) (by revert gx hg; decide +kernel)
    rw [e] at r
    simp only [code, r]
  refine ⟨by decide +kernel, headOf_of (by decide +kernel), headOf_of (by decide +kernel), ?_, ?_⟩
  · rw [c 1 (by decide)]; decide +kernel
  · rw [c 0 (by decide)]; decide +kernel

/-- What the rejected packets are, and what is read for them; a descriptor of 128 bytes. -/
theorem witness_HostQueues_rejects :
    let s := queued .active .active []
    rejects.all (fun p => pktOk p && pktType p == 1) = true ∧
    rejects.map (fun p => (pktDesc p % 128, pktInd p, pktInda p % 4, pktSig p, pktSiga p % 8)) =
      [(1, false, 0, false, 0), (0, true, 2, false, 0), (0, false, 0, true, 4), (0, false, 0, false, 0), (0, true, 0, false, 0),
       (0, false, 0, false, 0)] ∧
    (rejects.drop 3).map (fun p => (s.launchRead 0 p).map (fun r =>
      (r.desc.length, r.gx, s.launchCode 0 r (launchRecord p r 5 none s.nextId)))) = [none, some (128, 0, 3), some (128, 0, 3)] := by
  intro s
  have far : s.launchRead 0 (packet (1 + 2 ^ 16 + 2 ^ 32) [(8, 1 + 2 ^ 16), (16, 0x40000000)]) = none := by
    unfold State.launchRead
    rw [show s.ctxRead 0 0 _ 128 = none by decide +kernel]
  have near : ∀ p ∈ rejects.drop 4, s.launchRead 0 p = some ⟨descriptor, [], [], 0⟩ := by
    intro p hp
    rw [launchRead_of (s := s) (by revert p hp; decide +kernel)]
    rw [show (if pktInd p then s.natAt (pktInda p) 4 else fieldAt p 4 4) = 0 by revert p hp; decide +kernel]
  refine ⟨by decide +kernel, by decide +kernel, ?_⟩
  simp only [rejects, List.drop_succ_cons, List.drop_zero, List.map_cons, List.map_nil, far,
    near _ (show packet (257 + 2 ^ 16) [(8, 1 + 2 ^ 16), (16, 66560), (48, 65792)] ∈ rejects.drop 4 from List.mem_cons_self),
    near _ (show packet (1 + 2 ^ 16) [(8, 1 + 2 ^ 16), (16, 66560)] ∈ rejects.drop 4 from List.mem_cons_of_mem _ List.mem_cons_self)]
  decide +kernel

/-- A GRAPH of no node, of one node that waits for another, and of one NOP. -/
theorem witness_HostQueues_graph :
    let s := queued .active .active []
    let node := fun (n : Nat) => s.setNode 7 { Node.reset with valid := true, init := n, pred := n }
    let g := packet (2 + 7 * 2 ^ 32 + 2 ^ 48) []
    (pktOk (packet 2 []) = true ∧ pktType (packet 2 []) = 2 ∧ fieldAt (packet 2 []) 6 2 = 0) ∧
    (pktOk g = true ∧ pktType g = 2 ∧ fieldAt g 4 2 = 7 ∧ fieldAt g 6 2 = 1 ∧ fieldAt g 1 1 ≠ 1) ∧
    (∀ n ∈ [0, 1], ((node n).node 7).valid = true ∧ ((node n).node 7).ctx = 0 ∧ ((node n).node 7).state = .idle ∧
      ((node n).node 7).nsucc = 0 ∧ ((node n).node 7).init = n ∧ pktType ((node n).node 7).pkt = 0 ∧ (node n).graphs = [] ∧
      (node n).blocked 5 0 g = false) := by
  decide +kernel

theorem witness_HostQueues_graph_round (n : Nat) (hn : n ∈ [0, 1]) :
    let g := packet (2 + 7 * 2 ^ 32 + 2 ^ 48) []
    let s := (queued .active .active g).setNode 7 { Node.reset with valid := true, init := n, pred := n }
    s.candidates = [⟨5, 0, some g⟩] ∧ (s.die 0).lost = false := by
  intro g s
  have c : ∃ c0, s.ctxs = [(0, c0)] ∧ c0.dlq = [] := ⟨_, rfl, rfl⟩
  obtain ⟨c0, h, hd⟩ := c
  have y : yields s g = true := by clear h hd; revert n hn; decide +kernel
  refine ⟨?_, rfl⟩
  rw [candidates_of (x := s.hq 5) rfl (fun k => ?_) rfl, headOf_of y]
  · rfl
  · cases k with
    | zero => simpa [State.ctx, Fmap.get, Fmap.find, h] using hd
    | succ k => simp [State.ctx, Fmap.get, Fmap.find, h, Ctx.reset]

/-- The context with changes. -/
def ctxWith (f : Ctx → Ctx) (s : State) : State := s.setCtx 0 (f (s.ctx 0))

/-- A free context, a saved one, one without work; pre-emption requested and not; a drain whose period has run and one whose has not. -/
theorem witness_Contexts :
    let st := fun (c : CtxState) => ctxWith (fun x => { x with state := c }) one
    let idle := (ctxWith id one).setWg 0 { one.wg 0 with state := .ended }
    let due := fun (n : Dword) => (ctxWith (fun x => { x with state := .draining, period := 5 }) one).setDie 0 { one.die 0 with ck := n }
    (State.reset.ctx 0).state = .free ∧ (BitVec.toNat (0x19 : Word)) % 8 = 1 ∧ ((st .saved).ctx 0).state = .saved ∧
    ((idle.ctx 0).state = .active ∧ (idle.ctx 0).recs = [] ∧ idle.liveWgs 0 = [] ∧ one.liveWgs 0 = [0]) ∧
    ((1 : Dword).getLsbD 0 = true ∧ (one.ctx 0).state = .active) ∧
    (((due 5).ctx 0).drainTimer + ((due 5).ctx 0).period.toNat ≤ ((due 5).die 0).ck.toNat ∧
      ¬ ((due 4).ctx 0).drainTimer + ((due 4).ctx 0).period.toNat ≤ ((due 4).die 0).ck.toNat) := by
  decide +kernel

/-- A die with a resident workgroup, one with none and one whose queue holds a block of the pool. -/
theorem witness_Contexts_pools :
    let s := one.setWg 0 { one.wg 0 with state := .ended }
    let q := s.setDie 0 { s.die 0 with retireQ := [⟨0, 0, 0, 0, 3, 0, 0⟩] }
    (∃ w ∈ one.wgs, w.2.ctx = 0 ∧ w.2.core / 12 = 0 ∧ w.2.state.onCore = true) ∧ (∀ w ∈ s.wgs, w.2.state.onCore = false) ∧
    (s.die 0).retireQ = [] ∧ ∃ e ∈ (q.die 0).retireQ, e.ctx = 0 ∧ e.kind = 0 ∧ e.arg = 3 := by
  decide +kernel

/-- A boundary with one pre-emption, of a context without workgroups and of one with a group outside any region; no core has a token
out. -/
def switching (f : State → State) : State :=
  let s := allArrived (waving .computeEnd id (f (ctxWith (fun c => { c with state := .requested, bound := 2 }) one)))
  { s with root := { s.root with now := [.preempt 0] } }

theorem witness_Contexts_switch :
    ((switching id).root.wave == some .computeEnd && (switching id).root.now == [.preempt 0] && (switching id).root.doomed.isEmpty &&
      ((switching id).ctx 0).state == .requested && ((switching id).ctx 0).bound != 0 && (switching id).ctxs.all (fun p => p.2.state != .draining) &&
      Fmap.risingFrom 0 (switching id).ctxs && (switching id).groups.any (fun p => p.2.status == .live && p.2.region.isNone) &&
      ((switching id).wg 0).state.holdsSlots && !((switching id).die 0).lost &&
      (switching (fun s => s.setWg 0 { s.wg 0 with state := .ended })).wgs.all (fun p => !p.2.state.holdsSlots)) = true ∧
    (switching id).cores = (allArrived (waving .computeEnd id one)).cores ∧ (switching id).dies = (waving .computeEnd id one).dies := by
  decide +kernel

/-- A boundary of a draining context with one workgroup: its group outside a region with a boundary to go and with none, and inside;
and with a matrix operation in flight. -/
def draining (n : Nat) (f : Group → Group) : State :=
  let s := switching (fun s => (ctxWith (fun c => { c with state := .draining, drain := n }) s).modGroup 0 f)
  { s with root := { s.root with now := [] } }

theorem witness_Contexts_drain :
    let inside := fun (x : Group) => { x with region := some (regionAt 0) }
    let busy : State := { draining 1 inside with mops := [(7, (mat 0 0).newMop .mzero 3 1)] }
    (∀ s ∈ [draining 1 id, draining 2 id, draining 1 inside, busy],
      (s.die 0).lost = false ∧ s.root.wave = some .computeEnd ∧ s.root.now = [] ∧ s.root.doomed = [] ∧ (s.ctx 0).state = .draining ∧
        (∀ p ∈ s.ctxs, p.1 = 0) ∧ Fmap.risingFrom 0 s.ctxs = true ∧ Fmap.risingFrom 0 s.wgs = true ∧ Fmap.risingFrom 0 s.groups = true ∧
        Fmap.find s.wgs 0 = some (s.wg 0) ∧ (s.wg 0).ctx = 0 ∧ (s.wg 0).state.holdsSlots = true ∧ (∀ p ∈ s.wgs, p.1 = 0) ∧
        Fmap.find s.groups 0 = some (s.group 0) ∧ (s.group 0).status = .live ∧ (s.group 0).pendTraps = [] ∧ s.engs = []) ∧
    (∀ s ∈ [draining 1 id, draining 2 id, draining 1 inside], s.mops = [] ∧ (∀ p ∈ s.groups, p.2.wait = none)) ∧
    (((draining 1 id).group 0).region = none ∧ ((draining 1 id).ctx 0).drain ≠ ((draining 1 id).ctx 0).bound.toNat ∧
      ((draining 2 id).ctx 0).drain = ((draining 2 id).ctx 0).bound.toNat ∧ ((draining 1 inside).group 0).region = some (regionAt 0) ∧
      ∃ p ∈ busy.mops, p.2.wg = 0) ∧
    (draining 1 id).cores = (allArrived (waving .computeEnd id one)).cores := by
  decide +kernel

/-- A workgroup with a scratchpad that is saved and restored; what it takes in the save area is free (log 10). -/
theorem witness_Contexts_save (h : Config.saveUnits 32 0 4 64 ≤ 65535) :
    let s := ctxWith (fun c => { c with save := [(0, 65535)] }) (mem [(2, 7), (3, 8), (4, 9), (5, 1)])
    memWf s.mem = true ∧ areaSize (Fmap.get 0 (s.ctx 0).save 0) ≥ s.saveUsed 0 0 + s.saveNeed 0 ∧ (s.wg 0).lines ≤ 8192 ∧ (s.wg 0).core < 48 ∧
    (s.wg 0).line0 + (s.wg 0).lines ≤ 8192 ∧ s.spadFit 1 (s.wg 0).kern.scratch = some 0 ∧
    s.spadFit (s.wg 0).core (s.wg 0).kern.scratch = some 0 ∧ (Fmap.find s.groups 0).isSome = true ∧ (s.group 0).wg = 0 := by
  intro s
  refine ⟨by decide +kernel, ?_, by decide +kernel, by decide +kernel, by decide +kernel, by decide +kernel, by decide +kernel⟩
  have u : s.saveUsed 0 0 = 0 := by decide +kernel
  have n : s.saveNeed 0 = Config.saveUnits 32 0 4 64 := by
    show Config.saveUnits (s.wg 0).lanes (s.slicesOf 0).length (s.entriesOf 0).length (s.wg 0).lines = _
    rw [show (s.wg 0).lanes = 32 by decide +kernel, show (s.slicesOf 0).length = 0 by decide +kernel,
      show (s.entriesOf 0).length = 4 by decide +kernel, show (s.wg 0).lines = 64 by decide +kernel]
  have a : areaSize (Fmap.get 0 (s.ctx 0).save 0) = 65535 := by decide +kernel
  rw [u, n, a]; simpa using h

/-- Batches: seven open and eight; MWAIT on batch 0, on a batch in flight, on one that is done, and on one that failed in a region. -/
theorem witness_MatrixBatches :
    let b := fun (n : Nat) (st : Word) (d : Bool) => (⟨BitVec.ofNat 32 n, st, d⟩ : Batch)
    let s := fun (l : List Batch) (n : Word) => (oneS [(4, n)]).modGroup 0 (fun x => { x with batches := l, nb := 9 })
    let r := (s [b 8 1 true] 8).modGroup 0 (fun x => { x with region := some (regionAt 0) })
    (readyRoom (.mfence ⟨4⟩) (s ((List.range 7).map (fun n => b (n + 1) 0 false)) 8) 0 1 &&
      readyB (.mfence ⟨4⟩) (s ((List.range 8).map (fun n => b (n + 1) 0 false)) 8) && readyRoom (.mwait ⟨4⟩) (s [b 8 0 false] 8) 0 1 &&
      readyRoom (.mwait ⟨4⟩) (s [b 8 0 true] 8) 0 1 && readyRoom (.mwait ⟨4⟩) (s [b 8 1 true] 8) 0 1 && readyRoom (.mwait ⟨4⟩) (s [] 0) 0 1 &&
      readyRoom (.mwait ⟨4⟩) r 0 1 && r.me.rollbacks < 15 && !r.matrixBusy r.cur && readyRoom (.mstat ⟨4⟩) one 0 1 &&
      (one.testDue 0 3 == true) && !(one.setCore 0 { one.core 0 with firstTest := 0 }).testDue 0 3) = true := by
  decide +kernel

/-- A failed test of a quadrant that an open batch used. -/
theorem witness_MatrixBatches_tests :
    let s := (coreWith (fun c => { c with quadUse := [(3, [⟨0, 8, false⟩])] }) one).modGroup 0 (fun x => { x with batches := [⟨8, 0, false⟩] })
    s.testDue 0 3 = true ∧ ⟨0, 8, false⟩ ∈ Fmap.get [] (s.core 0).quadUse 3 ∧ (⟨8, 0, false⟩ : Batch) ∈ (s.group 0).batches ∧
      (s.group 0).batchOpen = false := by
  decide +kernel

/-- A failed test of the last quadrant that is healthy, with an operation of the core in flight. -/
theorem witness_MatrixBatches_stranded :
    let s := working 7 (opOf .mma)
    let s := s.setCore 0 { s.core 0 with testPending := 8 }
    s.testDue 0 3 = true ∧ (s.core 0).fenced.getLsbD 3 = false ∧ (s.core 0).fenced ||| BitVec.ofNat 4 (2 ^ 3) = 15 ∧
      Fmap.find s.mops 7 = some (opOf .mma) ∧ (s.wg (opOf .mma).wg).core = 0 := by decide +kernel

/-- s4 bound to operation 7, which is in flight, parked, performed or complete; and bound to nothing. -/
def bound (eng : Option EngOp) (done : Option Word) : State :=
  { oneG (fun x => x.writeS 4 0x80000001 90 (some 7)) with
      engs := (eng.map (fun o => (7, o))).toList, done := (done.map (fun w => (7, w))).toList }

theorem witness_FuturesAndFills_futures :
    let o := newOp .cpy 0 0 [⟨0, 0, 1, 4, 0x11000, 65536⟩]
    (readyRoom (.fwait ⟨8, 4⟩) (bound none (some 0)) 0 1 && readyRoom (.fwait ⟨8, 4⟩) one 0 1 && readyRoom (.ftest ⟨8, 4⟩) one 0 1 &&
      readyRoom (.ftest ⟨8, 4⟩) (bound (some o) none) 0 1 && readyRoom (.ftest ⟨8, 4⟩) (bound none (some 1)) 0 1 && readyB (.fcancel ⟨4⟩) one &&
      readyB (.fcancel ⟨4⟩) (bound none (some 1)) && readyB (.fcancel ⟨4⟩) (bound (some o) none) &&
      readyB (.fcancel ⟨4⟩) (bound (some { o with parkSeq := some 0 }) none) && readyB (.fcancel ⟨4⟩) (bound (some { o with performed := [0] }) none) &&
      readyRoom (.fpass ⟨8, 4⟩) one 0 1 && readyRoom (.fpass ⟨8, 4⟩) (bound (some o) none) 0 1 &&
      (bound (some o) none).me.futOf 4 == some 7 && one.me.futOf 4 == none && !o.left.isEmpty &&
      ({ o with performed := [0] } : EngOp).left.isEmpty) = true := by
  decide +kernel

/-- One PFD with two lines left, in time with budget and without, and late; windows that have ended and not; a parked operation. -/
theorem witness_FuturesAndFills_fills :
    let o : EngOp := { newOp .pfd 0 0 [⟨0, 0, 2, 128, 0x11000, 65536⟩] with deadline := 8 }
    let s := fun (ck : Dword) (budget : Word) (o : EngOp) =>
      ({ (ctxWith (fun c => { c with pfd := budget }) one).setDie 0 { one.die 0 with ck := ck, pfdUsed := [(0, 1)] } with engs := [(7, o)] } : State)
    ((s 0 2 o).engs.filter (fun p => p.2.kind = .pfd && ((s 0 2 o).wg p.2.wg).core / 12 = 0)) = [(7, o)] ∧ o.unissued = [0, 1] ∧
    (((s 0 2 o).die 0).ck.toNat + 4 * o.unissued.length ≤ o.deadline ∧ o.deadline < ((s 1 2 o).die 0).ck.toNat + 4 * o.unissued.length) ∧
    (((s 2000 1 o).die 0).pfdWindow + 1024 ≤ ((s 2000 1 o).die 0).ck.toNat ∧ 2000 + 4 * ({ o with deadline := 4000 } : EngOp).unissued.length ≤ 4000) ∧
    Fmap.get 0 ((s 0 2 o).die 0).pfdUsed 0 < 2 ∧ 1 ≤ Fmap.get 0 ((s 0 1 o).die 0).pfdUsed 0 ∧
    (((s 1024 0 o).die 0).pfdWindow + 1024 ≤ ((s 1024 0 o).die 0).ck.toNat ∧ ((s 1023 0 o).die 0).ck.toNat < ((s 1023 0 o).die 0).pfdWindow + 1024) ∧
    ({ o with parkSeq := some 5 } : EngOp).parkSeq = some (5 : Word).toNat ∧ (one.wg o.wg).state ≠ .saved := by
  decide +kernel

/-- A die that may be authenticated and one that joins at a release. -/
theorem witness_Platform_joining :
    let s : State := { alive id one with root := { one.root with stage := .die0 } }
    let j := (coreWith (fun c => { c with relPending := true }) s).setDie 3 { s.die 3 with joinPending := true }
    (s.root.stage = .die0 ∧ (s.die 1).authDone = false ∧ (s.die 1).leftOut = false ∧ (s.die 1).lost = false) ∧
    ((j.core 0).relPending = true ∧ (j.die 0).alive = true ∧ (j.die 0).lost = false ∧ j.root.ph.getLsbD 0 = false ∧
      (j.die 3).joinPending = true ∧ (j.die 3).lost = false) ∧ s.root.stage ≠ .rom ∧ s.root.stage ≠ .verify := by
  decide +kernel

/-- Power states, snapshots that are pending and not, stages that failed and not, an event that a failed package does not answer, and
bytes of memory beside its end. -/
theorem witness_Platform :
    let pow := fun (p : Power) => ({ one with root := { one.root with power := p } } : State)
    let snap := fun (l : List Nat) => ({ one with root := { one.root with snapPend := l } } : State)
    let failed : State := { one with root := { one.root with stage := .failed }, agenda := [.event .trig] }
    (Instr.trig ∉ [Instr.d3hot, .d3cold, .spdmRequest] ∧ failed.agenda = [.event .trig]) ∧
    (one.root.ticks = 0 ∧ (one.core 0).rbSet = false) ∧ one.root.power = .d0 ∧ (pow .d3hot).root.power = .d3hot ∧ (pow .d3cold).root.power = .d3cold ∧ one.root.snapPend = [] ∧
    116 ∈ (snap [116]).root.snapPend ∧ one.root.stage ≠ .failed ∧ failed.root.stage = .failed ∧
    (∀ i < 2, isMemory (65536 + i) = true) ∧ (∃ i < 2, isMemory (kindSize 0 - 1 + i) = false) ∧ isMemory (kindSize 0 - 1) = true := by
  decide +kernel

/-- A group with one pending trap and a handler; and one that owes none. -/
theorem witness_ErrorsAndDieLoss_trap :
    let s := ctxWith (fun c => { c with trap := 0x20001 }) ((alive id one).modGroup 0 (fun x => { x with pendTraps := [.straggler] }))
    (Fmap.find s.groups 0 == some (s.group 0) && s.onDuty 0 && (s.wg 0).state == .resident && (s.group 0).asyncDue &&
      (s.group 0).pendTraps == [.straggler] && (s.group 0).wait.isNone && (s.ctx 0).trap.getLsbD 0 && s.room 0 0 6 && !one.me.asyncDue) = true := by
  decide +kernel

/-- Groups on duty outside a region and inside, with matrix work in flight, with DIE_LOST pending, and in handler mode; a written slice
and entry; and an instruction that reads an uncorrectable value. -/
theorem witness_ErrorsAndDieLoss_errors :
    let within := fun (f : Group → Group) => (alive id one).modGroup 0 (fun x => f { x with region := some (regionAt 0) })
    let busy : State := { within id with mops := [(7, (mat 0 0).newMop .mzero 3 1)] }
    let lost := fun (h : Bool) => within (fun x => { x with pendTraps := [.dieLost], handler := h })
    let bad := (oneS [(4, 1), (5, 2)]).modGroup 0 (fun x => { x with s := Fmap.adjust x.s 4 (fun e => { e with bad := true }) })
    let i : Instr := .sadd ⟨8, 4, 6, 0, 0⟩
    ((alive id one).onDuty 0 = true ∧ one.me.region = none ∧
      ∀ s ∈ [within id, busy, lost true, lost false], s.onDuty 0 = true ∧ (s.group 0).region = some (regionAt 0) ∧ (s.group 0).rollbacks = 0 ∧
        (s.group 0).wait = none) ∧
    (let owed := within (fun x => { x with rollbackDue := true })
     let last := within (fun x => { x with rollbacks := 15 })
     owed.onDuty 0 = true ∧ (owed.group 0).rollbackDue = true ∧ last.onDuty 0 = true ∧ 15 ≤ (last.group 0).rollbacks) ∧
    ((within id).matrixBusy 0 = false ∧ busy.matrixBusy 0 = true ∧ (within id).me.pendTraps = [] ∧ (lost true).me.handler = true ∧
      (lost false).me.handler = false ∧ Trap.dieLost ∈ (lost false).me.pendTraps) ∧
    ((Fmap.find ((oneV [(4, 1)]).group 0).v (vkey 4 3)).isSome && ((oneV [(4, 1)]).wgOf 0).state.onCore && (Fmap.find (bad.group 0).s 4).isSome &&
      (bad.reader i).badReads (Instr.info i) && (match bad.gate bad.cur (Instr.info i) with | .go => true | _ => false) &&
      (bad.seen i).room (bad.reader i).wg 0 2) = true := by decide +kernel

/-- A group of the core outside a region and inside, for an error in its issue state; and a region with 15 rollbacks. -/
theorem witness_ErrorsAndDieLoss_issueState :
    let within := fun (n : Nat) => (alive id one).modGroup 0 (fun x => { x with region := some (regionAt 0), rollbacks := n })
    (∀ s ∈ [alive id one, within 0, within 15], Fmap.risingFrom 0 s.groups = true ∧ (∀ p ∈ s.groups, p.2.wait = none) ∧
      Fmap.find s.groups 0 = some (s.group 0) ∧ s.onDuty 0 = true ∧ (s.wg (s.group 0).wg).core = 0 ∧ (s.group 0).pendTraps = [] ∧
      s.matrixBusy 0 = false ∧ ∀ p ∈ s.groups, p.1 = 0) ∧
    ((alive id one).group 0).region = none ∧ ((within 0).group 0).region = some (regionAt 0) ∧ ((within 0).group 0).rollbacks < 15 ∧
    15 ≤ ((within 15).group 0).rollbacks := by
  decide +kernel

/-- Whether an instruction passes its checks, reads a marked register and has room. -/
noncomputable def readsError (i : Instr) (s : State) (nv ns : Nat) : Bool :=
  (match s.gate s.cur (Instr.info i) with | .go => true | _ => false) && (s.reader i).badReads (Instr.info i) &&
    (s.seen i).room (s.reader i).wg nv ns

theorem witness_ErrorsAndDieLoss_reads :
    let s := (oneS [(4, 1), (5, 2), (6, 3), (7, 4)]).modGroup 0 (fun x => { x with s := Fmap.mapVals (fun _ e => { e with bad := true }) x.s })
    let v := (oneV [(4, 1), (5, 2), (6, 3), (7, 4)]).modGroup 0 (fun x => { x with v := Fmap.mapVals (fun _ e => { e with bad := 1 }) x.v })
    (saluRows.all (fun r => readsError (r.instr ⟨8, 4, 6, 0, 0⟩) s 0 1) && salu1Rows.all (fun r => readsError (r.1 ⟨8, 4, 0, 0⟩) s 0 1) &&
      saluiRows.all (fun r => readsError (r.1 ⟨8, 4, 1⟩) s 0 1) && branchRows.all (fun r => readsError (r.1 ⟨4, 1⟩) s 0 0) &&
      laneRows.all (fun r => readsError (r.instr ⟨8, 4, 6, 0, 0, 0⟩) v 4 0) && lane1Rows.all (fun r => readsError (r.1 ⟨8, 4, 0, 0, 0⟩) v 4 0) &&
      wideRows.all (fun r => readsError (r.1 ⟨8, 4, 6, 0, 0, 0⟩) v 8 0)) = true := by
  decide +kernel

/-- An instruction that is no hint and names no slot. -/
theorem witness_ErrorsAndDieLoss_any : (Instr.sadd ⟨8, 4, 6, 0, 0⟩).hasWord = true ∧ ¬ IsHint (.sadd ⟨8, 4, 6, 0, 0⟩) ∧
    ∀ k p, ¬ NeedsSlot (.sadd ⟨8, 4, 6, 0, 0⟩) (k, p) := by
  refine ⟨by decide, ?_, fun k p h => nomatch h⟩
  rintro (⟨_, h⟩ | ⟨_, h⟩ | ⟨_, h⟩ | ⟨_, h⟩ | ⟨_, h⟩) <;> exact Instr.noConfusion h

/-- A workgroup on the die that is lost, and a group elsewhere of a context that touches it. -/
theorem witness_ErrorsAndDieLoss_loss :
    let s : State := { ctxWith (fun c => { c with touch := 2 }) (one.setWg 1 { one.wg 0 with core := 12 }) with engs := [(7, newOp .xget 0 1 [])] }
    (s.die 1).lost = false ∧ Fmap.risingFrom 0 s.wgs = true ∧ (s.ctx 0).state ≠ .free ∧ (s.ctx 0).touch.getLsbD 1 = true ∧
    (s.ctx 0).touch.getLsbD 2 = false ∧ Fmap.find s.wgs 1 = some (s.wg 1) ∧ (s.wg 1).core / 12 = 1 ∧ (∃ p ∈ s.engs, p.2.wg = 1) ∧ (s.group 0).status = .live ∧
    (s.wg (s.group 0).wg).core / 12 ≠ 1 ∧ (s.die 0).lost = false ∧ ((s.setDie 1 { s.die 1 with lost := true }).die 1).lost = true := by
  decide +kernel

end Sys2Proof.Tests
end

section
/-! PROOFS. Which bytes the stores of an instruction change, and to what (R3, R88, R219, R221, R222). -/

namespace Sys2Proof.Machine

/-! ### What leaves every byte alone -/

/-- A byte is a matter of memory alone. -/
theorem State.byteAt_congr {s t : State} (h : t.mem = s.mem) (a : Nat) : t.byteAt a = s.byteAt a :=
  congrArg (fun m => Fmap.get unlisted m a) h

@[simp] theorem State.seen_mem (s : State) (i : Instr) : (s.seen i).mem = s.mem := rfl

@[simp] theorem State.released_mem (s : State) : s.released.mem = s.mem := rfl

@[simp] theorem State.addStores_mem (s : State) (hs : List Hit) : (s.addStores hs).mem = s.mem := by
  rw [State.addStores_eq]

/-- Reading futures leaves the group in its context. -/
@[simp] theorem State.seen_myCtx (s : State) (i : Instr) : (s.seen i).myCtx = s.myCtx :=
  congrArg (fun k => (s.wg k).ctx) (s.reader_wg i)

/-- Races are recorded in mode 2 alone (R128). -/
theorem State.logRaces_eq_self {s : State} (h : (s.ctx s.myCtx).race ≠ 2) (u : Use) (hs : List Hit) : s.logRaces u hs = s :=
  if_pos (bne_iff_ne.2 h)

theorem State.logRaces_nil (s : State) (u : Use) : s.logRaces u [] = s := ite_self s

/-- Where no race is recorded, the records that precede a store leave memory as it was before the instruction. -/
theorem State.byteAt_logRaces_seen {s : State} (h : (s.ctx s.myCtx).race ≠ 2) (i : Instr) (u : Use) (hs : List Hit) (a : Nat) :
    ((s.seen i).logRaces u hs).byteAt a = s.byteAt a := by
  have hr : ((s.seen i).ctx (s.seen i).myCtx).race ≠ 2 := by rw [State.seen_myCtx]; exact h
  rw [State.logRaces_eq_self hr, State.byteAt_congr (s.seen_mem i)]

/-! ### One store after another -/

/-- A write to a target without bytes does nothing. -/
theorem State.writeTarget_of_loc_none (s : State) (c k : Nat) (va : Dword) {t : Target} (bs : List Byte) (h : t.loc? = none) :
    s.writeTarget c k va t bs = s := by
  cases t with
  | memory => cases h
  | spad => cases h
  | _ => rfl

/-- A store leaves the bytes outside its place. -/
theorem State.byteAt_storeHit_outside (s : State) (u : Use) (h : Hit) (bs : List Byte) (a : Nat)
    (ho : ∀ loc, h.tgt.loc? = some loc → a < loc ∨ loc + bs.length ≤ a) : (s.storeHit u h bs).byteAt a = s.byteAt a := by
  cases hl : h.tgt.loc? with
  | none => exact State.byteAt_congr (by simp [State.storeHit, State.writeTarget_of_loc_none _ _ _ _ _ hl]) a
  | some loc =>
    have := ho loc hl
    rw [State.byteAt_storeHit _ _ _ _ _ _ hl, if_neg (by omega)]

theorem State.storeAll_append (s : State) (u : Use) (l l' : List (Hit × List Byte)) :
    s.storeAll u (l ++ l') = (s.storeAll u l).storeAll u l' := List.foldl_append

/-- Stores leave the bytes outside all their places. -/
theorem State.byteAt_storeAll_outside (s : State) (u : Use) (l : List (Hit × List Byte)) (a : Nat)
    (ho : ∀ p ∈ l, ∀ loc, p.1.tgt.loc? = some loc → a < loc ∨ loc + p.2.length ≤ a) : (s.storeAll u l).byteAt a = s.byteAt a := by
  induction l generalizing s with
  | nil => rfl
  | cons p l ih =>
    have hp := s.byteAt_storeHit_outside u p.1 p.2 a (ho p List.mem_cons_self)
    exact (ih _ fun q hq => ho q (List.mem_cons_of_mem _ hq)).trans hp

/-- At each byte the last store that reaches it remains (R88). -/
theorem State.byteAt_storeAll_last (s : State) (u : Use) (before after : List (Hit × List Byte)) (p : Hit × List Byte) (loc k : Nat)
    (hl : p.1.tgt.loc? = some loc) (hk : k < p.2.length)
    (ho : ∀ q ∈ after, ∀ loc', q.1.tgt.loc? = some loc' → loc + k < loc' ∨ loc' + q.2.length ≤ loc + k) :
    (s.storeAll u (before ++ p :: after)).byteAt (loc + k) = p.2.getD k 0 := by
  rw [State.storeAll_append]
  refine (State.byteAt_storeAll_outside _ u after (loc + k) ho).trans ?_
  rw [State.byteAt_storeHit _ _ _ _ _ _ hl, if_pos (by omega), Nat.add_sub_cancel_left]

/-! ### The stores of lanes -/

/-- The executing lanes come in ascending order. -/
theorem lanesOf_ascending (m : Mask) : (lanesOf m).Pairwise (· < ·) := List.pairwise_lt_range.filter _

/-- The lanes that come after an executing lane are higher. -/
theorem lanesOf_split {m : Mask} {l : Nat} (h : m.getLsbD l = true) :
    ∃ lower higher, lanesOf m = lower ++ l :: higher ∧ ∀ l' ∈ higher, l < l' ∧ m.getLsbD l' = true := by
  obtain ⟨lower, higher, he⟩ := List.append_of_mem (mem_lanesOf.2 h)
  have hp := lanesOf_ascending m
  rw [he, List.pairwise_append, List.pairwise_cons] at hp
  refine ⟨lower, higher, he, fun l' hl' => ⟨hp.2.1.1 l' hl', mem_lanesOf.1 ?_⟩⟩
  rw [he]
  exact List.mem_append_right _ (List.mem_cons_of_mem _ hl')

/-- The store of lane `l`: `n` bytes of its value, at its address. -/
def State.laneStore (s : State) (n : Nat) (addr : Nat → Dword) (value : Nat → Nat) (l : Nat) : Hit × List Byte :=
  (⟨some l, addr l, s.target s.me.wg (addr l) .store⟩, leBytes n (value l))

theorem State.map_hits_laneAccesses (s : State) (m : Mask) (n : Nat) (addr : Nat → Dword) (value : Nat → Nat) :
    (s.hits (laneAccesses m addr) .store).map (fun h => (h, leBytes n (value (h.lane.getD 0)))) =
      (lanesOf m).map (s.laneStore n addr value) := by
  simp only [State.hits, laneAccesses, List.map_map]
  rfl

section
variable (s w : State) (u : Use) (m : Mask) (n : Nat) (addr : Nat → Dword) (value : Nat → Nat)

/-- The stores of the lanes leave the bytes outside the places that the executing lanes' addresses lead to. -/
theorem State.byteAt_laneStores_outside (a : Nat)
    (ho : ∀ l loc, m.getLsbD l = true → Claims.placeOf s .store (addr l) = some loc → a < loc ∨ loc + n ≤ a) :
    (w.storeAll u ((lanesOf m).map (s.laneStore n addr value))).byteAt a = w.byteAt a := by
  refine w.byteAt_storeAll_outside u _ a fun p hp loc hl => ?_
  obtain ⟨l, hm, rfl⟩ := List.mem_map.1 hp
  have := ho l loc (mem_lanesOf.1 hm) hl
  simpa [State.laneStore] using this

/-- Each byte that lanes store to holds the byte of the value of the highest of them (R88). -/
theorem State.byteAt_laneStores_highest (l loc k : Nat) (hm : m.getLsbD l = true)
    (hl : Claims.placeOf s .store (addr l) = some loc) (hk : k < n)
    (ho : ∀ l' loc', l < l' → m.getLsbD l' = true → Claims.placeOf s .store (addr l') = some loc' →
      loc + k < loc' ∨ loc' + n ≤ loc + k) :
    (w.storeAll u ((lanesOf m).map (s.laneStore n addr value))).byteAt (loc + k) = Claims.byteOf (value l) k := by
  obtain ⟨lower, higher, he, hh⟩ := lanesOf_split hm
  rw [he, List.map_append, List.map_cons,
    w.byteAt_storeAll_last u _ _ (s.laneStore n addr value l) loc k hl (by simpa [State.laneStore] using hk)]
  · exact leBytes_getD n (value l) k hk
  · intro q hq loc' hl'
    obtain ⟨l', hm', rfl⟩ := List.mem_map.1 hq
    have := ho l' loc' (hh l' hm').1 (hh l' hm').2 hl'
    simpa [State.laneStore] using this

end

/-! ### Scalar stores -/

/-- An access that reaches bytes, and may not be of a root slot, has a location. -/
theorem Reaches.placeOf {s : State} {u : Use} {a : Access} (h : Reaches s u a) (hu : u.slotOk = false) :
    ∃ loc, Claims.placeOf s u.acc a.va = some loc := by
  unfold Reaches at h
  unfold Claims.placeOf
  cases ht : s.target s.me.wg a.va u.acc with
  | memory pa => exact ⟨pa, rfl⟩
  | spad loc => exact ⟨loc, rfl⟩
  | slot j => rw [ht, hu] at h; cases h
  | _ => rw [ht] at h; exact h.elim

/-- One store writes its number at its place, and nothing else (R3). -/
theorem State.wrote_storeHit (s : State) (u : Use) (h : Hit) (n v loc : Nat) (hl : h.tgt.loc? = some loc) :
    Claims.Wrote s.byteAt (s.storeHit u h (leBytes n v)).byteAt loc n v := by
  constructor
  · intro k hk
    rw [State.byteAt_storeHit _ _ _ _ _ _ hl, leBytes_length, if_pos (by omega), Nat.add_sub_cancel_left]
    exact leBytes_getD n v k hk
  · intro a ha
    rw [State.byteAt_storeHit _ _ _ _ _ _ hl, leBytes_length, if_neg (by omega)]

/-! ### VST and SST -/

/-- An instruction whose body ends with its effect done leaves memory as its body does. -/
theorem mem_of_done {i : Instr} {s s2 t : State} {body : State → Body} {pc : Dword} (hr : Ready i s)
    (he : issue (Instr.info i) body s = .next t) (hb : body (s.seen i) = .done s2 pc) : t.mem = s2.mem := by
  rw [issue_done hr hb] at he
  cases he
  rfl

/-- A store that is no release, or that finds no unacknowledged store of its group, does not wait (R102). -/
theorem State.releaseWaits_eq_false {s : State} {r : BitVec 1} {scope : Nat} (h : r = 1 → 2 ≤ scope → s.storesOut s.cur = false) :
    (r = 1 && s.releaseWaits scope) = false := by
  simpa [State.releaseWaits] using h

/-- What the stores `l` of an instruction leave, made at the hits `hs` after the records of races; a release ends the group's interval. -/
def State.afterStores (s : State) (u : Use) (release : Prop) [Decidable release] (hs : List Hit) (l : List (Hit × List Byte)) : State :=
  let t := ((s.logRaces u hs).storeAll u l).addStores hs
  if release then t.released else t

@[simp] theorem State.afterStores_mem (s : State) (u : Use) (release : Prop) [Decidable release] (hs : List Hit)
    (l : List (Hit × List Byte)) : (s.afterStores u release hs l).mem = ((s.logRaces u hs).storeAll u l).mem := by
  unfold State.afterStores
  split <;> simp

/-- The number that lane `l` of VST stores, and that SST stores (R221, R222). -/
def Group.vstValue (x : Group) (f : FmtVst) (l : Nat) : Nat :=
  if 2 ^ f.z.toNat = 8 then (x.readV2 f.d.toNat l).toNat else (x.srcV f.d.toNat l).toNat
def Group.sstValue (x : Group) (f : FmtSst) : Nat :=
  if 2 ^ f.z.toNat = 8 then (x.readS2 f.d.toNat).toNat else (x.srcS f.d.toNat).toNat

/-- The use that VST and SST make of their accesses (R223). -/
def Group.vstUse (x : Group) (f : FmtVst) : Use := storeUse (2 ^ f.z.toNat) (if f.r = 1 then x.scope else 0)
def Group.sstUse (x : Group) (f : FmtSst) : Use := storeUse (2 ^ f.z.toNat) (if f.r = 1 then x.scope else 0)

/-- VST with no executing lane. -/
theorem vstBody_of_no_lane {f : FmtVst} {s : State} (hm : s.me.execMask f.p.toNat = 0) : vstBody f s = andNext s := if_pos hm

/-- VST whose accesses pass their checks. -/
theorem vstBody_of_accessible {f : FmtVst} {s : State} (hm : s.me.execMask f.p.toNat ≠ 0)
    (hrel : f.r = 1 → 2 ≤ s.me.scope → s.storesOut s.cur = false)
    (hacc : Accessible s (s.me.vstUse f) (laneAccesses (s.me.execMask f.p.toNat) (laneAddr s.me f.a f.i (f.t = 1)))) :
    vstBody f s = andNext (s.afterStores (s.me.vstUse f) (f.r = 1)
      (s.hits (laneAccesses (s.me.execMask f.p.toNat) (laneAddr s.me f.a f.i (f.t = 1))) .store)
      ((lanesOf (s.me.execMask f.p.toNat)).map (s.laneStore (2 ^ f.z.toNat) (laneAddr s.me f.a f.i (f.t = 1)) (s.me.vstValue f)))) := by
  have hc := checked_of_accessible _ _ _ hacc
  rw [Group.vstUse] at hc
  unfold vstBody
  simp only [hm, hc, State.releaseWaits_eq_false hrel, ← State.map_hits_laneAccesses, Bool.false_eq_true, if_false]
  rfl

/-- SST whose access passes its checks. -/
theorem sstBody_of_accessible {f : FmtSst} {s : State} (hrel : f.r = 1 → 2 ≤ s.me.scope → s.storesOut s.cur = false)
    (hacc : Accessible s (s.me.sstUse f) [⟨none, scalarAddr s.me f.a f.o⟩]) :
    sstBody f s = andNext (s.afterStores (s.me.sstUse f) (f.r = 1) (s.hits [⟨none, scalarAddr s.me f.a f.o⟩] .store)
      [(⟨none, scalarAddr s.me f.a f.o, s.target s.me.wg (scalarAddr s.me f.a f.o) .store⟩,
        leBytes (2 ^ f.z.toNat) (s.me.sstValue f))]) := by
  have hc := checked_of_accessible _ _ _ hacc
  rw [Group.sstUse] at hc
  unfold sstBody
  simp only [hc, State.releaseWaits_eq_false hrel, Bool.false_eq_true, if_false]
  rfl

/-- Memory after VST: the records of races, then the stores of the executing lanes. -/
theorem vst_mem {f : FmtVst} {s t : State} (hr : Ready (.vst f) s) :
    let S := s.seen (.vst f)
    let x := s.reader (.vst f)
    let m := x.execMask f.p.toNat
    let addr := laneAddr x f.a f.i (f.t = 1)
    (f.r = 1 → 2 ≤ x.scope → s.storesOut s.cur = false) → Accessible S (x.vstUse f) (laneAccesses m addr) → exec (.vst f) s = .next t →
    t.mem = ((S.logRaces (x.vstUse f) (S.hits (laneAccesses m addr) .store)).storeAll (x.vstUse f)
      ((lanesOf m).map (S.laneStore (2 ^ f.z.toNat) addr (x.vstValue f)))).mem := by
  intro S x m addr hrel hacc he
  by_cases hm : m = 0
  · have hl : lanesOf m = [] := by rw [hm]; decide
    rw [mem_of_done hr he (vstBody_of_no_lane hm), laneAccesses, hl]
    exact (congrArg State.mem (S.logRaces_nil _)).symm
  · rw [mem_of_done hr he (vstBody_of_accessible hm hrel hacc), State.afterStores_mem]
    rfl

/-- Memory after SST: the records of races, then its one store. -/
theorem sst_mem {f : FmtSst} {s t : State} (hr : Ready (.sst f) s) :
    let S := s.seen (.sst f)
    let x := s.reader (.sst f)
    let va := scalarAddr x f.a f.o
    (f.r = 1 → 2 ≤ x.scope → s.storesOut s.cur = false) → Accessible S (x.sstUse f) [⟨none, va⟩] → exec (.sst f) s = .next t →
    t.mem = ((S.logRaces (x.sstUse f) (S.hits [⟨none, va⟩] .store)).storeHit (x.sstUse f) ⟨none, va, S.target S.me.wg va .store⟩
      (leBytes (2 ^ f.z.toNat) (x.sstValue f))).mem := by
  intro S x va hrel hacc he
  rw [mem_of_done hr he (sstBody_of_accessible hrel hacc), State.afterStores_mem]
  rfl

/-- Settles O24: the stores of an instruction are performed one after another over the records of races, so that a byte outside their
places stays and at each other byte the last store remains. -/
theorem storedBytes : Obligations.StoredBytes := by
  constructor
  · intro f s t hr x m n u acc S place value hrel hacc he
    have hmem := State.byteAt_congr (vst_mem hr hrel hacc he)
    refine ⟨fun h => State.byteAt_logRaces_seen h _ _ _, fun a ho => ?_, fun l loc k hm hl hk ho => ?_⟩
    · exact (hmem a).trans (State.byteAt_laneStores_outside _ S u m n _ value a ho)
    · exact (hmem (loc + k)).trans (State.byteAt_laneStores_highest _ S u m n _ value l loc k hm hl hk ho)
  · intro f s t hr x n va u S hrel hacc he
    obtain ⟨loc, hl⟩ := (hacc.reaches _ List.mem_cons_self).placeOf rfl
    have hmem := State.byteAt_congr (sst_mem hr hrel hacc he)
    obtain ⟨hin, hout⟩ := State.wrote_storeHit S u ⟨none, va, _⟩ n (x.sstValue f) loc hl
    exact ⟨fun h => State.byteAt_logRaces_seen h _ _ _, loc, hl, fun k hk => (hmem _).trans (hin k hk),
      fun a ha => (hmem a).trans (hout a ha)⟩

end Sys2Proof.Machine
end

section
/-! PROOFS. Instructions whose whole effect their bodies tell; branches, jumps, calls and returns (R14, R163, R164, R182). -/

namespace Sys2Proof.Machine

open Sys2Proof.Claims

/-! ### From a body to what an instruction does -/

/-- A body that changes nothing which the end of an instruction adds to, and no name, has the effect that the group it leaves tells. -/
theorem Effect.self {x z : Group} (hpc : z.pc = x.pc) (hsig : z.sig = x.sig) (hhlr : z.hlr = x.hlr) (hw : z.width = x.width)
    (hs : z.s = x.s) (hv : z.v = x.v) : Effect x z z {} :=
  ⟨hpc, hsig, hhlr, hw, fun _ _ => by rw [hs], fun _ _ => by rw [hv], fun _ _ => rfl, fun _ => rfl, fun _ => rfl, fun _ => rfl, rfl⟩

theorem Effect.refl (x : Group) : Effect x x x {} := .self rfl rfl rfl rfl rfl rfl

section
variable {i : Instr} {s s2 v : State} {z : Group} {body : State → Body} {pc : Dword}

/-- A body that changes its group to `z` and the package to `v`. -/
theorem becomes_of_done (hr : Ready i s) (he : exec i s = issue (Instr.info i) body s) (hb : body (s.seen i) = .done s2 pc)
    (hv : { s2 with groups := [] } = { v with groups := [] }) (ho : ∀ h, h ≠ s.cur → s2.group h = s.group h)
    (hg : Effect (s.reader i) z (s2.group s.cur) {}) : Becomes i s v z pc false :=
  ⟨_, does_of_done hr he hb hv ho hg⟩

/-- A body that only goes on. -/
theorem becomes_of_seen (hr : Ready i s) (he : exec i s = issue (Instr.info i) body s) (hb : body (s.seen i) = .done (s.seen i) pc) :
    Becomes i s s (s.reader i) pc false :=
  becomes_of_done hr he hb rfl (fun _ hn => s.seen_group_ne i hn) (.refl _)

/-- A body that changes its group alone. -/
theorem becomes_of_modGroup {f : Group → Group} (hr : Ready i s) (he : exec i s = issue (Instr.info i) body s)
    (hb : body (s.seen i) = .done ((s.seen i).modGroup s.cur f) pc)
    (hg : Effect (s.reader i) (f (s.reader i)) (f (s.reader i)) {}) : Becomes i s s (f (s.reader i)) pc false := by
  refine becomes_of_done hr he hb rfl (fun h hn => ?_) ?_
  · rw [State.group_modGroup_ne _ _ hn, s.seen_group_ne i hn]
  · rw [State.group_modGroup_same]
    exact hg

/-- A transfer that changes nothing else. -/
theorem becomes_of_jump (hr : Ready i s) (he : exec i s = issue (Instr.info i) body s) (hb : body (s.seen i) = .jump (s.seen i) pc) :
    Becomes i s s (s.reader i) pc true :=
  ⟨_, does_of_jump hr he hb rfl (fun _ hn => s.seen_group_ne i hn) (.refl _)⟩

/-- A transfer that changes its group. -/
theorem becomes_of_jump_modGroup {f : Group → Group} (hr : Ready i s) (he : exec i s = issue (Instr.info i) body s)
    (hb : body (s.seen i) = .jump ((s.seen i).modGroup s.cur f) pc)
    (hg : Effect (s.reader i) (f (s.reader i)) (f (s.reader i)) {}) : Becomes i s s (f (s.reader i)) pc true := by
  refine ⟨_, does_of_jump hr he hb rfl (fun h hn => ?_) ?_⟩
  · rw [State.group_modGroup_ne _ _ hn, s.seen_group_ne i hn]
  · rw [State.group_modGroup_same]
    exact hg

theorem traps_of {t : TrapInfo} (hr : Ready i s) (he : exec i s = issue (Instr.info i) body s) (hb : body (s.seen i) = .trap t) :
    Traps i s t := he.trans (issue_trap hr hb)

theorem stalls_of {r : Stall} (hr : Ready i s) (he : exec i s = issue (Instr.info i) body s)
    (hb : body (s.seen i) = .stall (s.seen i) r) : Stalls i s r := he.trans (issue_stall hr hb)

/-- A body that leaves its group at the instruction. -/
theorem stays_of_left (hr : Ready i s) (he : exec i s = issue (Instr.info i) body s) (hb : body (s.seen i) = .left s2)
    (hv : { s2 with groups := [] } = { v with groups := [] }) (ho : ∀ h, h ≠ s.cur → s2.group h = s.group h)
    (hz : s2.group s.cur = z) : Stays i s v z := by
  refine ⟨s2, he.trans (issue_left hr hb), ?_, ho, hz⟩
  cases s2
  simp only [State.mk.injEq] at hv ⊢
  simpa using hv

end

@[simp] theorem State.seen_me (s : State) (i : Instr) : (s.seen i).me = s.reader i := rfl

@[simp] theorem State.reader_region (s : State) (i : Instr) : (s.reader i).region = s.me.region := by rw [State.reader_rest]
@[simp] theorem State.reader_himm (s : State) (i : Instr) : (s.reader i).himm = s.me.himm := by rw [State.reader_rest]; rfl

/-! ### Transfers of control -/

/-- A relative transfer of the group as it reads goes where R163 says. -/
theorem relative_reader {n : Nat} (s : State) (i : Instr) (o : BitVec n) :
    (s.reader i).relative (wordOffset (s.reader i) o) = target s.me o := by
  simp only [Group.relative, wordOffset, State.reader_himm, State.reader_pc, target] <;> rfl

/-- A branch whose condition is `p` of the signed value of A. -/
theorem branch_becomes {i : Instr} {s : State} {f : FmtBc} {cond : Int → Bool} {p : Int → Prop} (hp : ∀ x, cond x = true ↔ p x)
    (hr : Ready i s) (he : exec i s = issue (Instr.info i) (branchBody cond f) s) :
    (p ((s.reader i).srcS f.a.toNat).toInt → Becomes i s s (s.reader i) (target s.me f.o) true) ∧
    (¬ p ((s.reader i).srcS f.a.toNat).toInt → Becomes i s s (s.reader i) (nextPc s.me.pc) false) := by
  refine ⟨fun h => becomes_of_jump hr he ?_, fun h => becomes_of_seen hr he ?_⟩
  · rw [← hp] at h
    simp [branchBody, h, relative_reader]
  · rw [← hp] at h
    simp [branchBody, h]

/-- The group after a call that returns to the next word. -/
def Group.called (x : Group) : Group := { x.dropLatches with rstk := nextPc x.pc :: x.rstk }

theorem Group.called_effect (x : Group) : Effect x x.called x.called {} := .self rfl rfl rfl rfl rfl rfl

theorem Group.called_reader (s : State) (i : Instr) :
    (s.reader i).called = { (s.reader i).dropLatches with rstk := nextPc s.me.pc :: s.me.rstk } := by
  rw [Group.called, State.reader_pc, State.reader_rstk]

/-- A return address pushed, with room on the return stack or without (R14). -/
theorem pushReturn_eq (s : State) (pc : Dword) : pushReturn s pc =
    if 16 ≤ s.me.rstk.length then .trap { trap := .returnStack } else .jump (s.modGroup s.cur Group.called) pc := rfl

/-- A call to `pc`, once its own checks are passed. -/
theorem call_becomes {i : Instr} {s : State} {body : State → Body} {pc : Dword} (hr : Ready i s)
    (he : exec i s = issue (Instr.info i) body s) (hb : body (s.seen i) = pushReturn (s.seen i) pc) :
    (s.me.rstk.length < 16 →
      Becomes i s s { (s.reader i).dropLatches with rstk := nextPc s.me.pc :: s.me.rstk } pc true) ∧
    (16 ≤ s.me.rstk.length → exec i s = .next ((s.seen i).preciseTrap s.cur { trap := .returnStack })) := by
  rw [pushReturn_eq, State.seen_me, State.reader_rstk] at hb
  refine ⟨fun h => ?_, fun h => traps_of hr he ?_⟩
  · rw [← Group.called_reader]
    exact becomes_of_jump_modGroup hr he (by rw [hb, if_neg (by omega), State.seen_cur]) (Group.called_effect _)
  · rw [hb, if_pos h]

theorem Group.leaveHandler_effect (x : Group) : Effect x x.leaveHandler x.leaveHandler {} := by
  unfold Group.leaveHandler
  split
  · exact .self rfl rfl rfl rfl rfl rfl
  · exact .refl x

/-- RET by what the return stack and the open region hold (R164, R182). -/
theorem ret_becomes {s : State} (hr : Ready .ret s) :
    (∀ pc rest, s.me.rstk = pc :: rest → (∀ r, s.me.region = some r → r.rsDepth < s.me.rstk.length) →
      Becomes .ret s s { (s.reader .ret).dropLatches with rstk := rest } pc true) ∧
    (s.me.rstk ≠ [] → (∃ r, s.me.region = some r ∧ s.me.rstk.length ≤ r.rsDepth) → Traps .ret s { trap := .idemRegion }) ∧
    (s.me.rstk = [] → exec .ret s = .next ((s.seen .ret).preciseTrap s.cur { trap := .returnStack })) := by
  have he : execRet s = issue _ _ s := rfl
  refine ⟨fun pc rest hs hd => ?_, fun hs ⟨r, hg, hd⟩ => traps_of hr he ?_, fun hs => traps_of hr he ?_⟩
  · refine becomes_of_jump_modGroup (f := fun y => { y.dropLatches with rstk := rest }) hr he ?_ (.self rfl rfl rfl rfl rfl rfl)
    have hn : s.me.region.any (fun r => s.me.rstk.length ≤ r.rsDepth) = false := by
      cases hg : s.me.region with
      | none => rfl
      | some r => simpa using hd r hg
    simp only [State.seen_me, State.reader_rstk, State.reader_region, hn]
    simp [hs]
  · obtain ⟨pc, rest, he⟩ := List.exists_cons_of_ne_nil hs
    simp only [State.seen_me, State.reader_rstk, State.reader_region, hg]
    rw [he] at hd ⊢
    exact if_pos (decide_eq_true hd)
  · simp [hs]

/-- The low bits of an address in scalars, as the test of MISALIGNED has them. -/
theorem misaligned_iff (a : Dword) : (a.toNat % 4 != 0) = true ↔ a.toNat % 4 ≠ 0 := bne_iff_ne

theorem jmpi_becomes {f : FmtA} {s : State} (hr : Ready (.jmpi f) s) :
    let a := (s.reader (.jmpi f)).readS2 f.a.toNat
    (a.toNat % 4 = 0 → Becomes (.jmpi f) s s (s.reader (.jmpi f)).leaveHandler a true) ∧
    (a.toNat % 4 ≠ 0 → exec (.jmpi f) s = .next ((s.seen (.jmpi f)).preciseTrap s.cur { trap := .misaligned, addr := a })) := by
  intro a
  have he : execJmpi f s = issue _ _ s := rfl
  refine ⟨fun h => becomes_of_jump_modGroup hr he ?_ (Group.leaveHandler_effect _), fun h => traps_of hr he ?_⟩
  · exact if_neg (by rw [misaligned_iff]; exact not_not_intro h)
  · exact if_pos ((misaligned_iff _).2 h)

theorem calli_becomes {f : FmtA} {s : State} (hr : Ready (.calli f) s) :
    let a := (s.reader (.calli f)).readS2 f.a.toNat
    (a.toNat % 4 = 0 → s.me.rstk.length < 16 → Becomes (.calli f) s s
      { (s.reader (.calli f)).dropLatches with rstk := nextPc s.me.pc :: s.me.rstk } a true) ∧
    (a.toNat % 4 ≠ 0 → exec (.calli f) s = .next ((s.seen (.calli f)).preciseTrap s.cur { trap := .misaligned, addr := a })) ∧
    (a.toNat % 4 = 0 → 16 ≤ s.me.rstk.length →
      exec (.calli f) s = .next ((s.seen (.calli f)).preciseTrap s.cur { trap := .returnStack })) := by
  intro a
  have he : execCalli f s = issue _ _ s := rfl
  have pushes (h : a.toNat % 4 = 0) := call_becomes (pc := a) hr he (if_neg (by rw [misaligned_iff]; exact not_not_intro h))
  exact ⟨fun h => (pushes h).1, fun h => traps_of hr he (if_pos ((misaligned_iff _).2 h)), fun h => (pushes h).2⟩

/-- Settles O3: each transfer by the one thing that its body tests: a branch by its condition, a call by the depth of the return stack,
an indirect one by the low bits of its address, RET by its stack and the open region. -/
theorem controlTransfers : Obligations.ControlTransfers := by
  refine ⟨⟨?_, fun f s hr => ?_, fun s hr => ?_, by decide +kernel, by decide +kernel, by decide +kernel⟩,
    fun f s hr => ?_, fun f s hr => calli_becomes hr, fun s hr => ret_becomes hr, fun f s hr => jmpi_becomes hr,
    by decide +kernel, by decide +kernel⟩
  · intro row hrow f s hr
    simp only [branchRows, List.mem_cons, List.not_mem_nil, or_false] at hrow
    obtain rfl | rfl | rfl | rfl | rfl | rfl := hrow <;> exact branch_becomes (by simp) hr rfl
  · rw [← relative_reader]
    exact becomes_of_jump hr (rfl : execJmp f s = issue _ _ s) rfl
  · rw [← State.reader_pc s .nop]
    exact becomes_of_seen hr (rfl : execNop s = issue _ _ s) rfl
  · rw [← relative_reader s (.call f)]
    exact call_becomes hr (rfl : execCall f s = issue _ _ s) rfl

end Sys2Proof.Machine
end

section
/-! PROOFS. Finite maps as sets of pairs, and what an acquire at workgroup scope takes in (R112, R114, R116). -/

namespace Sys2Proof

variable {α : Type}

theorem Fmap.mem_of_find {m : Fmap α} {k : Nat} {v : α} (h : Fmap.find m k = some v) : (k, v) ∈ m := by
  induction m with
  | nil => cases h
  | cons p t ih =>
    simp only [Fmap.find] at h
    split at h
    · rename_i hk
      cases h
      exact hk ▸ List.mem_cons_self
    · exact List.mem_cons_of_mem _ (ih h)

/-- Below the least key nothing is listed. -/
theorem Fmap.le_of_mem {m : Fmap α} {b : Nat} {p : Nat × α} (h : Fmap.risingFrom b m = true) (hp : p ∈ m) : b ≤ p.1 := by
  induction m generalizing b with
  | nil => cases hp
  | cons q t ih =>
    simp only [Fmap.risingFrom, Bool.and_eq_true, decide_eq_true_eq] at h
    rcases List.mem_cons.1 hp with rfl | ht
    · omega
    · have := ih h.2 ht
      omega

theorem Fmap.find_of_mem {m : Fmap α} {b : Nat} {p : Nat × α} (h : Fmap.risingFrom b m = true) (hp : p ∈ m) :
    Fmap.find m p.1 = some p.2 := by
  induction m generalizing b with
  | nil => cases hp
  | cons q t ih =>
    simp only [Fmap.risingFrom, Bool.and_eq_true, decide_eq_true_eq] at h
    rcases List.mem_cons.1 hp with rfl | ht
    · simp [Fmap.find]
    · have := Fmap.le_of_mem h.2 ht
      rw [Fmap.find, if_neg (by omega)]
      exact ih h.2 ht

/-- With rising keys the pairs of a map are what its keys find. -/
theorem Fmap.mem_iff_find {m : Fmap α} {b : Nat} (h : Fmap.risingFrom b m = true) {p : Nat × α} :
    p ∈ m ↔ Fmap.find m p.1 = some p.2 :=
  ⟨Fmap.find_of_mem h, Fmap.mem_of_find⟩

theorem Fmap.get_of_find {m : Fmap α} {k : Nat} {v : α} (d : α) (h : Fmap.find m k = some v) : Fmap.get d m k = v := by
  rw [Fmap.get, h]; rfl

theorem Fmap.get_of_mem {m : Fmap α} {b : Nat} {p : Nat × α} (d : α) (h : Fmap.risingFrom b m = true) (hp : p ∈ m) :
    Fmap.get d m p.1 = p.2 := Fmap.get_of_find d (Fmap.find_of_mem h hp)

theorem Fmap.get_of_not_mem_keys {m : Fmap α} {k : Nat} (d : α) (h : k ∉ Fmap.keys m) : Fmap.get d m k = d := by
  cases hf : Fmap.find m k with
  | none => rw [Fmap.get, hf]; rfl
  | some v => exact absurd (List.mem_map_of_mem (Fmap.mem_of_find hf)) h

end Sys2Proof

namespace Sys2Proof.Machine

open Sys2Proof.Claims

/-! ### Groups that are listed -/

theorem State.group_of_find {s : State} {g : Nat} {x : Group} (h : Fmap.find s.groups g = some x) : s.group g = x :=
  Fmap.get_of_find _ h

theorem State.find_group_of_isSome {s : State} {g : Nat} (h : (Fmap.find s.groups g).isSome = true) :
    Fmap.find s.groups g = some (s.group g) := by
  obtain ⟨x, hx⟩ := Option.isSome_iff_exists.1 h
  rw [State.group_of_find hx, hx]

theorem State.group_of_mem {s : State} {p : Nat × Group} (h : Fmap.risingFrom 0 s.groups = true) (hp : p ∈ s.groups) :
    s.group p.1 = p.2 := Fmap.get_of_mem _ h hp

/-! ### What groups that come together know -/

/-- What two groups know of a byte together is the later of what each knows. -/
theorem get_joinPast (a b : Fmap Nat) (k : Nat) : Fmap.get 0 (joinPast a b) k = max (Fmap.get 0 a k) (Fmap.get 0 b k) := by
  have h : ∀ (l : List Nat) (m : Fmap Nat), Fmap.get 0 (l.foldl (fun m k => Fmap.insert m k (max (Fmap.get 0 a k) (Fmap.get 0 b k))) m) k =
      if k ∈ l then max (Fmap.get 0 a k) (Fmap.get 0 b k) else Fmap.get 0 m k := by
    intro l
    induction l with
    | nil => intro m; simp
    | cons i t ih =>
      intro m
      rw [List.foldl_cons, ih, Fmap.get_insert]
      by_cases ht : k ∈ t
      · simp [ht]
      · by_cases hi : k = i <;> simp [ht, hi]
  rw [joinPast, h]
  split
  · rfl
  · rename_i hk
    simp [Fmap.get_of_not_mem_keys 0 hk]

/-- `v` is the latest of `own` and of what the groups of `l` know of byte `a`. -/
def LatestOf (l : List (Nat × Group)) (own a v : Nat) : Prop :=
  own ≤ v ∧ (∀ p ∈ l, Fmap.get 0 p.2.past a ≤ v) ∧ (v = own ∨ ∃ p ∈ l, v = Fmap.get 0 p.2.past a)

theorem latestOf_foldl (l : List (Nat × Group)) (m : Fmap Nat) (a : Nat) :
    LatestOf l (Fmap.get 0 m a) a (Fmap.get 0 (l.foldl (fun m p => joinPast m p.2.past) m) a) := by
  induction l generalizing m with
  | nil => exact ⟨le_refl _, by simp, .inl rfl⟩
  | cons q t ih =>
    rw [List.foldl_cons]
    obtain ⟨h1, h2, h3⟩ := ih (joinPast m q.2.past)
    rw [get_joinPast] at h1 h3
    refine ⟨le_trans (le_max_left _ _) h1, List.forall_mem_cons.2 ⟨le_trans (le_max_right _ _) h1, h2⟩, ?_⟩
    rcases h3 with h3 | ⟨p, hp, h3⟩
    · rcases le_total (Fmap.get 0 m a) (Fmap.get 0 q.2.past a) with h | h
      · exact .inr ⟨q, List.mem_cons_self, by rw [h3, max_eq_right h]⟩
      · exact .inl (by rw [h3, max_eq_left h])
    · exact .inr ⟨p, List.mem_cons_of_mem _ hp, h3⟩

theorem State.mem_groupsWhere {s : State} {f : Group → Bool} {p : Nat × Group} :
    p ∈ s.groupsWhere f ↔ p ∈ s.groups ∧ f p.2 = true := by
  simp [State.groupsWhere, Fmap.select]

/-- What the groups of a workgroup have read past the cache is, of each byte, the latest of what each has. -/
theorem State.latestOf_pastOf (s : State) (k a : Nat) :
    LatestOf (s.groupsWhere (fun x => x.wg = k)) 0 a (Fmap.get 0 (s.pastOf k) a) :=
  latestOf_foldl _ [] a

/-- Between `s` and `u` groups have come to know no byte but from groups of their own workgroups in `s`, and have forgotten none. -/
structure KnowsFrom (s u : State) : Prop where
  rising : Fmap.risingFrom 0 u.groups = true
  grows : ∀ h x, Fmap.find s.groups h = some x → ∃ x', Fmap.find u.groups h = some x' ∧ x'.wg = x.wg ∧
    ∀ a, Fmap.get 0 x.past a ≤ Fmap.get 0 x'.past a
  origin : ∀ h x', Fmap.find u.groups h = some x' → ∀ a, ∃ i x, Fmap.find s.groups i = some x ∧ x.wg = x'.wg ∧
    Fmap.get 0 x'.past a = Fmap.get 0 x.past a

theorem KnowsFrom.refl {s : State} (h : Fmap.risingFrom 0 s.groups = true) : KnowsFrom s s :=
  ⟨h, fun _ x hx => ⟨x, hx, rfl, fun _ => le_refl _⟩, fun i x hx _ => ⟨i, x, hx, rfl, rfl⟩⟩

/-- What groups know is a matter of the groups alone. -/
theorem KnowsFrom.congr {s u v : State} (h : KnowsFrom s u) (hv : v.groups = u.groups) : KnowsFrom s v := by
  obtain ⟨h1, h2, h3⟩ := h
  constructor <;> rw [hv] <;> assumption

/-- A listed group changed, with what it knows of each byte what it knew or what a group of its workgroup in `s` did. -/
theorem KnowsFrom.setGroup {s u : State} {g : Nat} {x y : Group} (h : KnowsFrom s u) (hx : Fmap.find u.groups g = some x)
    (hwg : y.wg = x.wg) (hle : ∀ a, Fmap.get 0 x.past a ≤ Fmap.get 0 y.past a)
    (ho : ∀ a, ∃ i z, Fmap.find s.groups i = some z ∧ z.wg = x.wg ∧ Fmap.get 0 y.past a = Fmap.get 0 z.past a) :
    KnowsFrom s (u.setGroup g y) := by
  obtain ⟨hr, hg, hb⟩ := h
  refine ⟨Fmap.risingFrom_insert _ (Nat.zero_le _) hr, fun k z hz => ?_, fun k z hz => ?_⟩
  · obtain ⟨z', hz', hw, hl⟩ := hg k z hz
    by_cases hk : k = g
    · subst hk
      rw [hx] at hz'
      cases hz'
      exact ⟨y, Fmap.find_insert_same .., hwg.trans hw, fun a => le_trans (hl a) (hle a)⟩
    · exact ⟨z', (Fmap.find_insert_ne _ _ hk).trans hz', hw, hl⟩
  · by_cases hk : k = g
    · subst hk
      rw [show Fmap.find (u.setGroup k y).groups k = some y from Fmap.find_insert_same ..] at hz
      cases hz
      exact fun a => (ho a).imp fun i => Exists.imp fun x' ⟨h1, h2, h3⟩ => ⟨h1, h2.trans hwg.symm, h3⟩
    · exact hb k z ((Fmap.find_insert_ne _ _ hk).symm.trans hz)

theorem KnowsFrom.setGroup_of_past {s u : State} {g : Nat} {x y : Group} (h : KnowsFrom s u) (hx : Fmap.find u.groups g = some x)
    (hwg : y.wg = x.wg) (hp : y.past = x.past) : KnowsFrom s (u.setGroup g y) :=
  h.setGroup hx hwg (fun a => by rw [hp]) (fun a => by rw [hp]; exact h.origin g x hx a)

/-- What the groups of a listed group's workgroup know in `u` is, of each byte, no less than what it knew, and is what one of them
knew in `s`. -/
theorem KnowsFrom.pastOf {s u : State} {g : Nat} {x : Group} (h : KnowsFrom s u) (hx : Fmap.find u.groups g = some x) (a : Nat) :
    (∀ i z, Fmap.find s.groups i = some z → z.wg = x.wg → Fmap.get 0 z.past a ≤ Fmap.get 0 (u.pastOf x.wg) a) ∧
    Fmap.get 0 x.past a ≤ Fmap.get 0 (u.pastOf x.wg) a ∧
    ∃ i z, Fmap.find s.groups i = some z ∧ z.wg = x.wg ∧ Fmap.get 0 (u.pastOf x.wg) a = Fmap.get 0 z.past a := by
  obtain ⟨-, hall, hone⟩ := u.latestOf_pastOf x.wg a
  have known : ∀ i z, Fmap.find u.groups i = some z → z.wg = x.wg → Fmap.get 0 z.past a ≤ Fmap.get 0 (u.pastOf x.wg) a :=
    fun i z hz hw => hall (i, z) (State.mem_groupsWhere.2 ⟨Fmap.mem_of_find hz, by simp [hw]⟩)
  refine ⟨fun i z hz hw => ?_, known g x hx rfl, ?_⟩
  · obtain ⟨z', hz', hw', hl⟩ := h.grows i z hz
    exact le_trans (hl a) (known i z' hz' (hw'.trans hw))
  · rcases hone with h0 | ⟨p, hp, hv⟩
    · obtain ⟨i, z, hz, hw, he⟩ := h.origin g x hx a
      have := known g x hx rfl
      exact ⟨i, z, hz, hw, by omega⟩
    · obtain ⟨hp, hk⟩ := State.mem_groupsWhere.1 hp
      simp only [decide_eq_true_eq] at hk
      obtain ⟨i, z, hz, hw, he⟩ := h.origin p.1 p.2 (Fmap.find_of_mem h.rising hp) a
      exact ⟨i, z, hz, hw.trans hk, hv.trans he⟩

theorem KnowsFrom.setGroup_of_learned {s u : State} {g : Nat} {x y : Group} (h : KnowsFrom s u) (hx : Fmap.find u.groups g = some x)
    (hwg : y.wg = x.wg) (hp : y.past = u.pastOf x.wg) : KnowsFrom s (u.setGroup g y) :=
  h.setGroup hx hwg (fun a => by rw [hp]; exact (h.pastOf hx a).2.1) (fun a => by rw [hp]; exact (h.pastOf hx a).2.2)

/-- A group that takes in what the groups of its workgroup know in `u` learns what they knew in `s`. -/
theorem KnowsFrom.learns {s u : State} {g : Nat} {y : Group} (h : Fmap.risingFrom 0 s.groups = true → KnowsFrom s u)
    (hy : y.past = u.pastOf (s.group g).wg) : Learns s g (Fmap.get 0 (s.group g).past) y := by
  intro hs hg a
  have hme := State.find_group_of_isSome hg
  obtain ⟨x', hx', hw, -⟩ := (h hs).grows g _ hme
  obtain ⟨hall, -, i, z, hz, hzw, hv⟩ := (h hs).pastOf hx' a
  rw [hw, ← hy] at hall hv
  refine ⟨hall g _ hme rfl, fun p ⟨hp, _, hk⟩ => hall p.1 p.2 (Fmap.find_of_mem hs hp) hk, ?_⟩
  by_cases hi : i = g
  · subst hi
    exact .inl (by rw [hv, State.group_of_find hz])
  · exact .inr ⟨(i, z), ⟨Fmap.mem_of_find hz, hi, hzw.trans hw⟩, hv⟩

/-- Reading futures leaves what groups know, and to whom they belong; that the group is listed may change. -/
theorem State.seen_groups (s : State) (i : Instr) : (s.seen i).groups = Fmap.insert s.groups s.cur (s.reader i) := by
  rw [← State.reader_eq]
  simp [State.seen, State.resolveReads, State.modGroup, State.setGroup, State.group]

theorem State.risingFrom_seen {s : State} (i : Instr) (h : Fmap.risingFrom 0 s.groups = true) :
    Fmap.risingFrom 0 (s.seen i).groups = true := by
  rw [State.seen_groups]
  exact Fmap.risingFrom_insert _ (Nat.zero_le _) h

/-- Reading futures teaches no group anything. -/
theorem KnowsFrom.seen {s : State} (i : Instr) (h : Fmap.risingFrom 0 s.groups = true)
    (hg : (Fmap.find s.groups s.cur).isSome = true) : KnowsFrom s (s.seen i) :=
  ((KnowsFrom.refl h).setGroup_of_past (g := s.cur) (y := s.reader i) (State.find_group_of_isSome hg)
    (s.reader_wg i) (by rw [State.reader_rest]; rfl)).congr (State.seen_groups s i)

end Sys2Proof.Machine
end

section
/-! PROOFS. The system instructions, phases and fences (R38, R40, R102, R114, R116, R125, R180, R187 to R190). -/

namespace Sys2Proof.Machine

open Sys2Proof.Claims

@[simp] theorem State.reader_rdDepth (s : State) (i : Instr) : (s.reader i).rdDepth = s.me.rdDepth := by rw [State.reader_rest]
@[simp] theorem State.reader_past (s : State) (i : Instr) : (s.reader i).past = s.me.past := by rw [State.reader_rest]
@[simp] theorem State.reader_interval (s : State) (i : Instr) : (s.reader i).interval = s.me.interval := by rw [State.reader_rest]

/-- Reading futures leaves the group in its workgroup, on its core, in its context. -/
@[simp] theorem State.seen_myWg (s : State) (i : Instr) : (s.seen i).myWg = s.myWg := congrArg s.wg (s.reader_wg i)
@[simp] theorem State.seen_myCore (s : State) (i : Instr) : (s.seen i).myCore = s.myCore := congrArg (fun k => (s.wg k).core) (s.reader_wg i)
@[simp] theorem State.seen_myDie (s : State) (i : Instr) : (s.seen i).myDie = s.myDie :=
  congrArg (fun k => dieOfCore (s.wg k).core) (s.reader_wg i)
@[simp] theorem State.seen_core (s : State) (i : Instr) (c : Nat) : (s.seen i).core c = s.core c := rfl
@[simp] theorem State.seen_die (s : State) (i : Instr) (d : Nat) : (s.seen i).die d = s.die d := rfl
@[simp] theorem State.seen_wg (s : State) (i : Instr) (k : Nat) : (s.seen i).wg k = s.wg k := rfl
@[simp] theorem State.seen_root (s : State) (i : Instr) : (s.seen i).root = s.root := rfl

/-- The operands of EXIT, NOP and their like name no register, so that nothing is resolved. -/
theorem State.group_modGroup_seen (s : State) (i : Instr) (f : Group → Group) {h : Nat} (hn : h ≠ s.cur) :
    ((s.seen i).modGroup s.cur f).group h = s.group h := by
  rw [State.group_modGroup_ne _ _ hn, s.seen_group_ne i hn]

theorem State.modGroup_seen_me (s : State) (i : Instr) (f : Group → Group) :
    ((s.seen i).modGroup s.cur f).group s.cur = f (s.reader i) := State.group_modGroup_same ..

/-! ### YIELD, SNAP and TRAP -/

theorem yield_becomes {s : State} (hr : Ready .yield s) : Becomes .yield s s
    { s.reader .yield with hrun := 0, readySince := (s.die s.myDie).ck.toNat + 1 } (nextPc s.me.pc) false := by
  rw [← State.reader_pc s .yield]
  refine becomes_of_modGroup (f := fun x => { x with hrun := 0, readySince := (s.die s.myDie).ck.toNat + 1 }) hr
    (rfl : execYield s = issue _ _ s) ?_ (.self rfl rfl rfl rfl rfl rfl)
  simp only [andNext, State.seen_cur, State.seen_myDie, State.seen_die]
  rw [State.modGroup_cur, State.seen_cur, State.modGroup_seen_me]

/-- The trigger latches where no block has yet to latch an earlier one (R332). -/
theorem State.raiseTrigger_of_idle {s : State} (h : s.root.snapPend = []) : s.raiseTrigger =
    { s with root := { s.root with snapSeq := s.root.snapSeq + 1, snapPend := (List.range 117).filter s.blockAlive } } := by
  simp [State.raiseTrigger, h, snapBlocks]

theorem State.raiseTrigger_of_pending {s : State} (h : s.root.snapPend ≠ []) : s.raiseTrigger = s := by
  simp [State.raiseTrigger, h]

theorem snap_becomes {s : State} (hr : Ready .snap s) : Becomes .snap s
    (if s.root.snapPerm.getLsbD s.myCtx = true ∧ s.root.snapPend = [] then
      { s with root := { s.root with snapSeq := s.root.snapSeq + 1, snapPend := (List.range 117).filter s.blockAlive } }
    else s) (s.reader .snap) (nextPc s.me.pc) false := by
  have he : execSnap s = issue _ _ s := rfl
  rw [← State.reader_pc s .snap]
  by_cases hp : s.root.snapPerm.getLsbD s.myCtx = true
  · by_cases hi : s.root.snapPend = []
    · rw [if_pos ⟨hp, hi⟩]
      have ht := State.raiseTrigger_of_idle (s := s.seen .snap) hi
      refine becomes_of_done (s2 := (s.seen .snap).raiseTrigger) hr he ?_ (by rw [ht]; rfl)
        (fun h hn => by rw [ht]; exact s.seen_group_ne .snap hn) (by rw [ht]; exact .refl _)
      simp only [State.seen_root, State.seen_myCtx, hp, if_true, andNext]
      rw [ht]
      rfl
    · rw [if_neg (fun h => hi h.2)]
      refine becomes_of_seen hr he ?_
      simp only [State.seen_root, State.seen_myCtx, hp, if_true, andNext, State.raiseTrigger_of_pending (s := s.seen .snap) hi]
      rfl
  · rw [if_neg (fun h => hp h.1)]
    exact becomes_of_seen hr he (by simp only [State.seen_root, State.seen_myCtx, hp]; rfl)

theorem trap_traps {f : FmtTrap} {s : State} (hr : Ready (.trap f) s) : Traps (.trap f) s { trap := .user, imm := f.i } :=
  traps_of hr (rfl : execTrap f s = issue _ _ s) rfl

/-! ### FENCE -/

/-- Nothing but what is named changes a group's knowledge. -/
theorem Does.past {i : Instr} {s v t : State} {z : Group} {pc : Dword} {b : Bool} {w : Writes} (h : Does i s v z pc b w t) :
    (t.group s.cur).past = z.past := by rw [h.me.rest]

theorem Effect.withPast (x : Group) (n : Nat) (p : Fmap Nat) :
    Effect x { x with interval := n, past := p } { x with interval := n, past := p } {} := .self rfl rfl rfl rfl rfl rfl

/-- A FENCE that does not wait, by the state that its acquire leaves: its group knows `p`. -/
theorem fence_does {f : FmtFence} {s u v : State} {p : Fmap Nat} (hr : Ready (.fence f) s)
    (ho : 2 ≤ f.c.toNat → s.storesOut s.cur = false) (hu : (s.seen (.fence f)).acquire f.c.toNat = u)
    (hv : { u with groups := [] } = { v with groups := [] }) (hcur : u.cur = s.cur) (hn : ∀ h, h ≠ s.cur → u.group h = s.group h)
    (hp : u.group s.cur = { s.reader (.fence f) with past := p }) :
    ∃ t, Does (.fence f) s v { s.reader (.fence f) with interval := s.me.interval + 1, past := (t.group s.cur).past }
      (nextPc s.me.pc) false {} t ∧ (t.group s.cur).past = p := by
  have hd := does_of_done (z := { s.reader (.fence f) with interval := s.me.interval + 1, past := p })
    (s2 := u.modGroup s.cur Group.nextInterval) (v := v) (w := {}) (pc := nextPc s.me.pc) hr (rfl : execFence f s = issue _ _ s) ?_ hv
    (fun h hh => (State.group_modGroup_ne _ _ hh).trans (hn h hh)) ?_
  · have hpast := hd.past
    exact ⟨_, by rw [hpast]; exact hd, hpast⟩
  · have hs : (decide (2 ≤ f.c.toNat) && s.storesOut s.cur) = false := by
      by_cases h2 : 2 ≤ f.c.toNat <;> simp [h2, ho]
    have hs' : (decide (2 ≤ f.c.toNat) && (s.seen (.fence f)).storesOut (s.seen (.fence f)).cur) = false := hs
    simp only [hs', Bool.false_eq_true, if_false, andNext]
    rw [State.seen_cur, hu, State.modGroup_cur, hcur, State.group_modGroup_same, hp]
    exact congrArg (fun pc => Body.done _ (nextPc pc)) (s.reader_pc (.fence f))
  · rw [State.group_modGroup_same, hp, Group.nextInterval]
    simp only [State.reader_interval]
    exact .withPast _ _ _

theorem fence_outcome {f : FmtFence} {s : State} (hr : Ready (.fence f) s) :
    (f.c.toNat < 2 ∨ (∀ p ∈ s.stores, p.2.g ≠ s.cur) → ∃ t, Does (.fence f) s
      (if 2 ≤ f.c.toNat then s.setCore s.myCore { s.core s.myCore with l1 := [] } else s)
      { s.reader (.fence f) with interval := s.me.interval + 1, past := (t.group s.cur).past } (nextPc s.me.pc) false {} t ∧
      (f.c.toNat ≠ 1 → (t.group s.cur).past = s.me.past) ∧
      (f.c.toNat = 1 → Learns s s.cur (Fmap.get 0 s.me.past) (t.group s.cur))) ∧
    (2 ≤ f.c.toNat → (∃ p ∈ s.stores, p.2.g = s.cur) → Stalls (.fence f) s .order) := by
  have hout : s.storesOut s.cur = false ↔ ∀ p ∈ s.stores, p.2.g ≠ s.cur := by simp [State.storesOut]
  refine ⟨fun h => ?_, fun h2 hp => stalls_of hr (rfl : execFence f s = issue _ _ s) ?_⟩
  · have ho : 2 ≤ f.c.toNat → s.storesOut s.cur = false := fun h2 => hout.2 (h.resolve_left (by omega))
    by_cases h2 : 2 ≤ f.c.toNat
    · obtain ⟨t, hd, hp⟩ := fence_does (u := (s.seen (.fence f)).clearL1 s.myCore) (p := s.me.past)
        (v := s.setCore s.myCore { s.core s.myCore with l1 := [] }) hr ho (by rw [State.acquire, if_pos h2, State.seen_myCore])
        rfl rfl (fun h hn => s.seen_group_ne _ hn) (by rw [← State.reader_past s (.fence f)]; rfl)
      exact ⟨t, by rw [if_pos h2]; exact hd, fun _ => hp, fun h1 => by omega⟩
    · rw [if_neg h2]
      by_cases h1 : f.c.toNat = 1
      · obtain ⟨t, hd, hp⟩ := fence_does (u := (s.seen (.fence f)).learn s.cur) (p := (s.seen (.fence f)).pastOf (s.reader (.fence f)).wg) (v := s)
          hr ho (by rw [State.acquire, if_neg h2, if_pos h1, State.seen_cur]) rfl rfl
          (fun h hn => s.group_modGroup_seen _ _ hn) (s.modGroup_seen_me _ _)
        rw [State.reader_wg] at hp
        refine ⟨t, hd, fun h => absurd h1 h, fun _ hs hg => ?_⟩
        exact KnowsFrom.learns (fun h => .seen _ h hg) hp hs hg
      · obtain ⟨t, hd, hp⟩ := fence_does (u := s.seen (.fence f)) (p := s.me.past) (v := s) hr ho
          (by rw [State.acquire, if_neg h2, if_neg h1]) rfl rfl (fun h hn => s.seen_group_ne _ hn)
          (by rw [← State.reader_past s (.fence f)]; rfl)
        exact ⟨t, hd, fun _ => hp, fun h => absurd h h1⟩
  · have hs : s.storesOut s.cur = true := by rw [← Bool.not_eq_false, hout]; simpa using hp
    have hs' : (s.seen (.fence f)).storesOut (s.seen (.fence f)).cur = true := hs
    exact if_pos (by rw [hs', decide_eq_true h2]; rfl)

/-! ### PHEND, XEND and GPWAIT -/

/-- A group that comes to wait in PHEND or XEND. -/
theorem State.waits_eq (s : State) (n : Info) (k : WaitKind) : s.waits n k = s.setGroup s.cur
    { s.me with wait := some ⟨k, n.word, s.me.execMask n.pred, s.me.lastReads n⟩, stall := none } := rfl

/-- The root after a PHEND (R40). -/
theorem Root.openWave_eq (r : Root) :
    r.openWave = if r.wave = none ∧ r.ph.getLsbD 0 = false then { r with wave := some .computeEnd } else r := by
  simp [Root.openWave]

/-- A group that comes to wait as `f` leaves it, in a package that is `v` but for it. -/
theorem stays_of_waits {i : Instr} {s v w : State} {z : Group} {body : State → Body} {k : WaitKind} (hr : Ready i s)
    (he : exec i s = issue (Instr.info i) body s) (hb : body (s.seen i) = .left (w.waits (Instr.info i) k))
    (hv : { w with groups := [] } = { v with groups := [] }) (hcur : w.cur = s.cur) (hn : ∀ h, h ≠ s.cur → w.group h = s.group h)
    (hx : w.group s.cur = z) (hm : z.execMask (Instr.info i).pred = (s.reader i).execMask (Instr.info i).pred)
    (hl : z.lastReads (Instr.info i) = (s.reader i).lastReads (Instr.info i)) :
    Stays i s v { z with wait := some (waitFor i s k), stall := none } := by
  have hme : w.me = z := by rw [State.me, hcur, hx]
  refine stays_of_left hr he hb hv (fun h hh => ?_) ?_
  · rw [State.waits_eq, hcur, State.group_setGroup_ne _ _ hh, hn h hh]
  · rw [State.waits_eq, hcur, State.group_setGroup_same, hme, hm, hl]
    rfl

theorem phend_stays {s : State} (hr : Ready .phend s) : Stays .phend s
    (if s.root.wave = none ∧ s.root.ph.getLsbD 0 = false then { s with root := { s.root with wave := some .computeEnd } } else s)
    { (s.reader .phend).dropLatches with
        interval := s.me.interval + 1, wait := some (waitFor .phend s .phend), stall := none } := by
  refine stays_of_waits (z := { (s.reader .phend).dropLatches with interval := s.me.interval + 1 }) hr
    (rfl : execPhend s = issue _ _ s) rfl ?_ rfl
    (fun h hn => s.group_modGroup_seen .phend (fun x => x.dropLatches.nextInterval) hn) ?_ rfl rfl
  · simp only [Root.openWave_eq, State.modGroup_root, State.seen_root]
    split <;> rfl
  · refine (s.modGroup_seen_me .phend (fun x => x.dropLatches.nextInterval)).trans ?_
    simp [Group.nextInterval]

theorem xend_stays {s : State} (hr : Ready .xend s) : Stays .xend s s
    { (s.reader .xend).dropLatches with
        interval := s.me.interval + 1, wait := some (waitFor .xend s .xend), stall := none } := by
  refine stays_of_waits (z := { (s.reader .xend).dropLatches with interval := s.me.interval + 1 }) hr
    (rfl : execXend s = issue _ _ s) rfl rfl rfl
    (fun h hn => s.group_modGroup_seen .xend (fun x => x.dropLatches.nextInterval) hn) ?_ rfl rfl
  refine (s.modGroup_seen_me _ _).trans ?_
  simp [Group.nextInterval]

theorem gpwait_outcome {s : State} (hr : Ready .gpwait s) :
    (s.me.rdDepth = 0 → Stays .gpwait s
      { s with root := { s.root with
          incoming := if .boundary ∈ s.root.incoming then s.root.incoming else s.root.incoming ++ [.boundary] } }
      { s.reader .gpwait with wait := some (waitFor .gpwait s (.gpwait s.root.ph.toNat)), stall := none }) ∧
    (s.me.rdDepth ≠ 0 → Traps .gpwait s { trap := .readerSection }) := by
  have he : execGpwait s = issue _ _ s := rfl
  refine ⟨fun h => ?_, fun h => traps_of hr he ?_⟩
  · refine stays_of_waits (w := (s.seen .gpwait).request .boundary) (z := s.reader .gpwait) hr he ?_ ?_ rfl
      (fun h hn => s.seen_group_ne _ hn) rfl rfl rfl
    · simp [h]
    · simp only [State.request, State.seen_root, List.contains_iff_mem]
      rfl
  · simp [h]

/-- Settles O13: each instruction by the one thing that its body tests. -/
theorem systemAndPhases : Obligations.SystemAndPhases :=
  ⟨⟨fun _ => yield_becomes, fun _ => snap_becomes, fun _ _ => fence_outcome, fun _ _ => trap_traps⟩,
    fun _ => phend_stays, fun _ => xend_stays, fun _ => gpwait_outcome⟩

end Sys2Proof.Machine
end

section
/-! PROOFS. Where the checks of an arrival at a barrier are not as stated: the group that issues counts as live for its own workgroup. -/

namespace Sys2Proof.Machine

open Sys2Proof.Claims

/-- A package in which no group is listed, but workgroup 0 is resident, with a handler and room for the registers of a trap. -/
def State.nobody : State :=
  { State.reset with
      wgs := [(0, { Wg.none with state := .resident, peakS := 64 })]
      ctxs := [(0, { Ctx.reset with trap := 1 })] }

/-- BARC of s0 at the offset in s4. -/
def someBarc : FmtBa := ⟨0, 4⟩

theorem ready_barc_nobody : Ready (.barc someBarc) State.nobody := by
  constructor <;> decide +kernel

/-- No group of workgroup 0 is live, so it has exited; but the group that issues is, once its registers have been read. -/
theorem hasExited_nobody : State.nobody.hasExited 0 = true ∧ (State.nobody.seen (.barc someBarc)).hasExited 0 = false := by
  decide +kernel

/-- An offset outside the allocation, where the workgroup of the word has not exited. -/
theorem arrive_of_out {n : Info} {m : Member} {off k : Nat} {s : State} (ha : s.hasExited k = false) (ho : 128 * (s.wg k).lines ≤ off) :
    arrive n m off k s = .trap { trap := .scratchRange, addr := windowAddr off } := by
  simp [arrive, ha, ho]

/-- The cause that the handler of the issuing group finds in s54 is SCRATCH_RANGE, and not PEER_EXITED. -/
theorem cause_barc_nobody : ∀ t, exec (.barc someBarc) State.nobody = .next t → (t.group 0).readS 54 = 10 := by
  intro t h
  have he : exec (.barc someBarc) State.nobody =
      .next ((State.nobody.seen (.barc someBarc)).preciseTrap 0 { trap := .scratchRange, addr := windowAddr 0 }) :=
    (show execBarc someBarc State.nobody = issue _ _ _ from rfl).trans (issue_trap ready_barc_nobody
      (arrive_of_out hasExited_nobody.2 (Nat.zero_le _)))
  rw [he] at h
  cases h
  decide +kernel

/-- Refutes O16: where the issuing group is not listed and no group of its workgroup is, as in `State.nobody`, its workgroup counts as
exited in the state before BARC, but not in the one that BARC reads, so that BARC does not trap PEER_EXITED. -/
theorem not_barrierChecksAndLines : ¬ Obligations.BarrierChecksAndLines := by
  intro h
  obtain ⟨hgone, -⟩ := h.1 _ (List.mem_cons_of_mem _ (List.mem_cons_of_mem _ List.mem_cons_self)) someBarc _ ready_barc_nobody
  have hc := cause_barc_nobody _ (hgone ⟨rfl, hasExited_nobody.1⟩)
  exact absurd hc (by decide +kernel)

end Sys2Proof.Machine
end

section
/-! PROOFS. Barrier words, arrivals at them, and their completion (R26, R27, R176, R177). -/

namespace Sys2Proof.Machine

open Sys2Proof.Claims

/-! ### Fields of a stored run of bytes -/

/-- A number stored among other bytes is the number read at its place. -/
theorem State.natAt_storeCells_middle (s : State) (loc n v : Nat) (xs ys : List Byte) :
    (s.storeCells (cellsOf loc (xs ++ (leBytes n v ++ ys)))).natAt (loc + xs.length) n = v % 256 ^ n := by
  have : (s.storeCells (cellsOf loc (xs ++ (leBytes n v ++ ys)))).bytesAt (loc + xs.length) n = leBytes n v := by
    refine List.ext_getElem (by simp [State.bytesAt]) fun i h1 h2 => ?_
    have hi : i < n := by simpa [State.bytesAt] using h1
    simp only [State.bytesAt, List.getElem_map, List.getElem_range, State.byteAt_storeCells, List.length_append, leBytes_length]
    rw [if_pos (by omega), show loc + xs.length + i - loc = xs.length + i by omega, List.getD_append_right _ _ _ _ (by omega),
      Nat.add_sub_cancel_left, List.getD_append _ _ _ _ h2, List.getD_eq_getElem _ _ h2]
  rw [State.natAt, this, leNat_leBytes]

section
variable (s : State) (loc mask sig nb arr epoch kind : Nat)

theorem State.byteAt_setBar_outside {a : Nat} (h : a < loc ∨ loc + 32 ≤ a) :
    (s.setBar loc mask sig nb arr epoch kind).byteAt a = s.byteAt a := by
  rw [State.setBar, State.byteAt_storeCells, if_neg (by simp only [List.length_append, leBytes_length]; omega)]

theorem State.barMask_setBar : (s.setBar loc mask sig nb arr epoch kind).barMask loc = mask % 256 ^ 8 := by
  simp only [State.setBar, List.append_assoc]
  exact s.natAt_storeCells_middle loc 8 mask [] _

theorem State.barSig_setBar : (s.setBar loc mask sig nb arr epoch kind).barSig loc = sig % 256 ^ 4 := by
  have h := s.natAt_storeCells_middle loc 4 sig (leBytes 8 mask) (leBytes 4 nb ++ (leBytes 4 arr ++ (leBytes 4 epoch ++ leBytes 8 kind)))
  simpa only [State.barSig, State.setBar, List.append_assoc, leBytes_length] using h

theorem State.barNB_setBar : (s.setBar loc mask sig nb arr epoch kind).barNB loc = nb % 256 ^ 4 := by
  have h := s.natAt_storeCells_middle loc 4 nb (leBytes 8 mask ++ leBytes 4 sig) (leBytes 4 arr ++ (leBytes 4 epoch ++ leBytes 8 kind))
  simpa only [State.barNB, State.setBar, List.append_assoc, List.length_append, leBytes_length] using h

theorem State.barArr_setBar : (s.setBar loc mask sig nb arr epoch kind).barArr loc = arr % 256 ^ 4 := by
  have h := s.natAt_storeCells_middle loc 4 arr (leBytes 8 mask ++ leBytes 4 sig ++ leBytes 4 nb) (leBytes 4 epoch ++ leBytes 8 kind)
  simpa only [State.barArr, State.setBar, List.append_assoc, List.length_append, leBytes_length] using h

theorem State.barEpoch_setBar : (s.setBar loc mask sig nb arr epoch kind).barEpoch loc = epoch % 256 ^ 4 := by
  have h := s.natAt_storeCells_middle loc 4 epoch (leBytes 8 mask ++ leBytes 4 sig ++ leBytes 4 nb ++ leBytes 4 arr) (leBytes 8 kind)
  simpa only [State.barEpoch, State.setBar, List.append_assoc, List.length_append, leBytes_length] using h

theorem State.barKind_setBar : (s.setBar loc mask sig nb arr epoch kind).barKind loc = kind % 256 ^ 1 := by
  have h := s.natAt_storeCells_middle loc 1 kind (leBytes 8 mask ++ leBytes 4 sig ++ leBytes 4 nb ++ leBytes 4 arr ++ leBytes 4 epoch)
    (leBytes 7 (kind / 256))
  have h8 : leBytes 8 kind = leBytes 1 kind ++ leBytes 7 (kind / 256) := rfl
  simpa only [State.barKind, State.setBar, h8, List.append_assoc, List.length_append, leBytes_length] using h

/-- A barrier word is memory and poison. -/
theorem State.setBar_eq : s.setBar loc mask sig nb arr epoch kind = { s with
    mem := (s.setBar loc mask sig nb arr epoch kind).mem, poison := (s.setBar loc mask sig nb arr epoch kind).poison } := rfl

@[simp] theorem State.setBar_groups : (s.setBar loc mask sig nb arr epoch kind).groups = s.groups := rfl
@[simp] theorem State.setBar_cores : (s.setBar loc mask sig nb arr epoch kind).cores = s.cores := rfl
@[simp] theorem State.setBar_wgs : (s.setBar loc mask sig nb arr epoch kind).wgs = s.wgs := rfl
@[simp] theorem State.setBar_cur : (s.setBar loc mask sig nb arr epoch kind).cur = s.cur := rfl
@[simp] theorem State.group_setBar (g : Nat) : (s.setBar loc mask sig nb arr epoch kind).group g = s.group g := rfl

end

theorem State.barEpoch_lt (s : State) (loc : Nat) : s.barEpoch loc < 4294967296 := by
  have := leNat_lt (s.bytesAt (loc + 20) 4)
  rwa [show (s.bytesAt (loc + 20) 4).length = 4 by simp [State.bytesAt]] at this

/-! ### What the checks of an arrival read -/

/-- Groups that are alike in workgroup and status, group by group, leave the same workgroups exited. -/
theorem Fmap.any_insert_of_find {α : Type} {m : Fmap α} {b k : Nat} {x y : α} {p : Nat × α → Bool} (h : Fmap.risingFrom b m = true)
    (hx : Fmap.find m k = some x) (hp : p (k, y) = p (k, x)) : (Fmap.insert m k y).any p = m.any p := by
  rw [Bool.eq_iff_iff]
  simp only [List.any_eq_true]
  have hr := Fmap.risingFrom_insert (b := 0) (k := k) y (Nat.zero_le _) (Fmap.risingFrom_mono (Nat.zero_le _) h)
  constructor
  · rintro ⟨q, hq, hqp⟩
    have hf := Fmap.find_of_mem hr hq
    rw [Fmap.find_insert] at hf
    split at hf
    · rename_i hk
      cases hf
      exact ⟨(k, x), Fmap.mem_of_find hx, by rw [← hp, ← hk]; exact hqp⟩
    · exact ⟨q, Fmap.mem_of_find hf, hqp⟩
  · rintro ⟨q, hq, hqp⟩
    have hf := Fmap.find_of_mem h hq
    by_cases hk : q.1 = k
    · rw [hk, hx] at hf
      have he : q = (k, x) := Prod.ext hk (Option.some.inj hf).symm
      exact ⟨(k, y), Fmap.mem_of_find (Fmap.find_insert_same ..), by rw [hp, ← he]; exact hqp⟩
    · exact ⟨q, Fmap.mem_of_find ((Fmap.find_insert_ne _ _ hk).trans hf), hqp⟩

theorem rising_of_listed {s : State} (h : Listed s) : Fmap.risingFrom 0 s.groups = true := h.1
theorem find_me_of_listed {s : State} (h : Listed s) : Fmap.find s.groups s.cur = some s.me := State.find_group_of_isSome h.2

/-- A listed group changed, its workgroup and its status apart, leaves the same workgroups exited. -/
theorem State.hasExited_setGroup {s u : State} {g : Nat} {x y : Group} (hr : Fmap.risingFrom 0 s.groups = true)
    (hx : Fmap.find s.groups g = some x) (hw : y.wg = x.wg) (hs : y.status = x.status) (hu : u.groups = Fmap.insert s.groups g y)
    (hk : u.wgs = s.wgs) (k : Nat) : u.hasExited k = s.hasExited k := by
  have hany := Fmap.any_insert_of_find (y := y) (p := fun p => decide (p.2.wg = k) && decide (p.2.status = .live)) hr hx
    (by simp only [hw, hs])
  simp only [State.hasExited, State.wg, hu, hk]
  rw [hany]
  rfl

@[simp] theorem State.reader_status (s : State) (i : Instr) : (s.reader i).status = s.me.status := by rw [State.reader_rest]
@[simp] theorem State.reader_base (s : State) (i : Instr) : (s.reader i).base = s.me.base := by rw [State.reader_rest]
@[simp] theorem State.reader_holder (s : State) (i : Instr) : (s.reader i).holder = s.me.holder := by rw [State.reader_rest]

theorem State.hasExited_seen {s : State} (i : Instr) (h : Listed s) (k : Nat) : (s.seen i).hasExited k = s.hasExited k :=
  State.hasExited_setGroup (rising_of_listed h) (find_me_of_listed h) (s.reader_wg i) (s.reader_status i) (s.seen_groups i) rfl k

/-- The lanes of an arrival depend on where its groups lie. -/
theorem State.arrivalLanes_seen (s : State) (i : Instr) : (s.seen i).arrivalLanes (s.reader i) = s.arrivalLanes s.me := by
  have hg : ∀ h, ((s.seen i).group h).base = (s.group h).base ∧ ((s.seen i).group h).width = (s.group h).width := by
    intro h
    by_cases hn : h = s.cur
    · subst hn
      exact ⟨s.reader_base i, s.reader_width i⟩
    · rw [s.seen_group_ne i hn]
      exact ⟨rfl, rfl⟩
  simp only [State.arrivalLanes, State.reader_base, State.reader_width, State.reader_holder]
  cases s.me.holder with
  | none => rfl
  | some h => simp only [(hg h.partner).1, (hg h.partner).2]

/-- The word with an arrival added to it. -/
def State.arrived (s : State) (loc : Nat) (m : Member) (count : Nat) : State :=
  s.setBar loc (if m.kind = 1 then m.a else 0) (if m.kind = 1 then 0 else m.b) (if m.kind = 1 then m.b else m.a)
    (s.barArr loc + count) (s.barEpoch loc) m.kind

/-- An arrival that passes its checks waits, and then the barrier completes or its orphans are looked for. -/
theorem arrive_of_arrives {i : Instr} {s : State} {m : Member} {off k : Nat} (ha : Arrives s m off k) (hl : Listed s) :
    let loc := spadLoc (s.wg k).core (128 * (s.wg k).line0 + off)
    let count := ((s.arrivalLanes s.me).map (·.2)).sum
    let t := ((s.seen i).arrived loc m count).waits (Instr.info i) (.barrier loc count (m.kind = 1) (m.kind = 3))
    arrive (Instr.info i) m off k (s.seen i) =
      .left (if s.barArr loc + count = m.need then t.completeBarrier loc else t.orphaned loc m s.myWg s.me.wg) := by
  intro loc count t
  obtain ⟨halive, hin, halign, hline, hmem, hnamed, htotal, hacked, -⟩ := ha
  have h1 : (decide (m.kind = 3) && (s.seen i).hasExited k) = false := by
    by_cases hk : m.kind = 3 <;> simp [hk, State.hasExited_seen i hl, halive]
  have h2 : (if s.barKind loc = 0 then !(s.seen i).validMember s.myWg m else m != s.storedMember loc) = false := by
    simp only [loc] at hmem ⊢
    split at hmem
    · rw [if_pos ‹_›, show (s.seen i).validMember s.myWg m = true from hmem]
      rfl
    · rw [if_neg ‹_›, hmem]
      simp
  have h3 : (decide (m.kind = 1) && !(s.arrivalLanes s.me).all (blocksNamed m)) = false := by
    by_cases hk : m.kind = 1
    · simpa [hk, List.all_eq_true] using hnamed hk
    · simp [hk]
  have h4 : (m.kind != 1 && decide (m.a < s.barArr loc + count)) = false := by
    by_cases hk : m.kind = 1
    · simp [hk]
    · simpa [hk] using htotal hk
  have h5 : (decide (m.kind = 3) && s.storesOut s.cur) = false := by
    by_cases hk : m.kind = 3 <;> simp [hk, hacked]
  have h7 : (decide (1048576 ≤ off) || decide (128 * (s.wg k).lines ≤ off)) = false := by
    simp only [Bool.or_eq_false_iff, decide_eq_false_iff_not]
    omega
  have h6 : (s.seen i).barArr loc = s.barArr loc := rfl
  unfold arrive
  simp only [State.seen_me, State.arrivalLanes_seen, State.seen_myWg, State.seen_wg, State.reader_wg, h1]
  rw [if_neg (by simp), if_neg (by rw [Bool.not_eq_true]; exact h7),
    if_neg (by simp [halign]), if_neg (by rw [show (s.seen i).lineAt _ = s.lineAt _ from rfl, hline]; simp)]
  rw [if_neg (by rw [Bool.not_eq_true]; exact h2), if_neg (by rw [Bool.not_eq_true]; exact h3),
    if_neg (by rw [Bool.not_eq_true]; exact h4), if_neg (by rw [Bool.not_eq_true]; exact h5)]
  rfl

end Sys2Proof.Machine
end

section
/-! PROOFS. Waits that end: what is left of the group, and what a barrier that completes makes of its waiters (R27, R118, R174, R317). -/

namespace Sys2Proof.Machine

open Sys2Proof.Claims

/-! ### The end of a wait -/

/-- A group whose wait `w` has ended. -/
def Group.endedWait (x : Group) (w : Wait) : Group :=
  { (x.freeRegs w.frees).completed w.word w.exec (nextPc x.pc) with wait := none }

theorem State.endWait_of_wait {s : State} {g : Nat} {w : Wait} (h : (s.group g).wait = some w) :
    s.endWait g = s.setGroup g ((s.group g).endedWait w) := by
  simp only [State.endWait, h]
  rfl

theorem State.endWait_of_none {s : State} {g : Nat} (h : (s.group g).wait = none) : s.endWait g = s := by
  simp only [State.endWait, h]

/-- What the end of a wait leaves of the group but for its registers. -/
theorem Group.endedWait_eq (x : Group) (w : Wait) : x.endedWait w = { x with
    wait := none, stall := none, bundle := none, pc := nextPc x.pc, sig := sigStep x.sig w.word w.exec, hlr := x.hlr.drop 1
    s := (x.freeRegs w.frees).s, v := (x.freeRegs w.frees).v } := by
  rw [Group.endedWait, Group.freeRegs_eq]
  simp [Group.completed]

/-- A group that was about to wait, and whose wait has ended, is as if the instruction had been done at once. -/
theorem Group.endedWait_ran {i : Instr} {x : Group} {w : Wait} {p : Fmap Nat} (n : Nat) (hw : w.word = (Instr.info i).word)
    (he : w.exec = x.execMask (Instr.info i).pred) (hf : w.frees = x.lastReads (Instr.info i)) (y : Group)
    (hy : y = { x with wait := some w, stall := none }) :
    Ran i x { x with wait := none, interval := n, past := p } { y.endedWait w with interval := n, past := p } (nextPc x.pc) false {} := by
  have h := (Effect.self (x := x) (z := { x with wait := none, interval := n, past := p }) rfl rfl rfl rfl rfl rfl).ran (i := i) (nextPc x.pc)
  have hend : { y.endedWait w with interval := n, past := p } =
      (({ x with wait := none, interval := n, past := p } : Group).freeRegs (x.lastReads (Instr.info i))).completed (Instr.info i).word
        (x.execMask (Instr.info i).pred) (nextPc x.pc) := by
    have hs : ∀ (a b : Group) (l : List (Nat × Nat)), a.s = b.s → a.v = b.v →
        (a.freeRegs l).s = (b.freeRegs l).s ∧ (a.freeRegs l).v = (b.freeRegs l).v := by
      intro a b l
      induction l generalizing a b with
      | nil => exact fun h1 h2 => ⟨h1, h2⟩
      | cons r t ih =>
        intro h1 h2
        obtain ⟨c, k⟩ := r
        refine ih _ _ ?_ ?_ <;> rcases c with _ | _ | c <;> simp [Group.freeReg, Group.freeS, Group.freeV, h1, h2]
    obtain ⟨h1, h2⟩ := hs y { x with wait := none, interval := n, past := p } (x.lastReads (Instr.info i)) (by rw [hy]) (by rw [hy])
    rw [Group.endedWait, Group.freeRegs_eq y, Group.freeRegs_eq { x with wait := none, interval := n, past := p }, hf, hw, he, h1, h2]
    subst hy
    rfl
  rw [hend]
  exact h

/-! ### Waiters at a barrier word -/

theorem Fmap.keys_nodup {α : Type} {m : Fmap α} {b : Nat} (h : Fmap.risingFrom b m = true) : (Fmap.keys m).Nodup := by
  induction m generalizing b with
  | nil => exact List.nodup_nil
  | cons q t ih =>
    simp only [Fmap.risingFrom, Bool.and_eq_true, decide_eq_true_eq] at h
    refine List.nodup_cons.2 ⟨fun hk => ?_, ih h.2⟩
    obtain ⟨p, hp, he⟩ := List.mem_map.1 hk
    have hle := Fmap.le_of_mem h.2 hp
    have he : p.1 = q.1 := he
    omega

theorem State.waitersAt_nodup {s : State} (h : Fmap.risingFrom 0 s.groups = true) (loc : Nat) : (s.waitersAt loc).Nodup :=
  Fmap.keys_nodup (Fmap.risingFrom_filter _ h)

/-- A group waits at the barrier word at a location. -/
def Group.waitsAt (x : Group) (loc : Nat) : Prop :=
  x.status = .live ∧ ∃ n b c w e r, x.wait = some ⟨.barrier loc n b c, w, e, r⟩

theorem State.mem_waitersAt {s : State} (h : Fmap.risingFrom 0 s.groups = true) {loc g : Nat} :
    g ∈ s.waitersAt loc ↔ ∃ x, Fmap.find s.groups g = some x ∧ x.waitsAt loc := by
  simp only [State.waitersAt, Fmap.keys, List.mem_map, State.mem_groupsWhere]
  constructor
  · rintro ⟨p, ⟨hp, hw⟩, rfl⟩
    refine ⟨p.2, Fmap.find_of_mem h hp, ?_⟩
    split at hw
    · rename_i l n b c w e r hx
      simp only [Bool.and_eq_true, decide_eq_true_eq] at hw
      exact ⟨hw.2, n, b, c, w, e, r, by rw [hx, hw.1]⟩
    · cases hw
  · rintro ⟨x, hx, hl, n, b, c, w, e, r, hw⟩
    exact ⟨(g, x), ⟨Fmap.mem_of_find hx, by simp [hw, hl]⟩, rfl⟩

theorem Group.waitsAt.wait {x : Group} {loc : Nat} (h : x.waitsAt loc) : ∃ w, x.wait = some w := by
  obtain ⟨-, n, b, c, w, e, r, hw⟩ := h
  exact ⟨_, hw⟩

/-! ### Waiters released -/

/-- A waiter whose wait `w` has ended, in its new interval. -/
def Group.releasedFrom (x : Group) (w : Wait) : Group := { x.endedWait w with interval := x.interval + 1 }

theorem Group.releasedFrom_wg (x : Group) (w : Wait) : (x.releasedFrom w).wg = x.wg := by rw [Group.releasedFrom, Group.endedWait_eq]
theorem Group.releasedFrom_past (x : Group) (w : Wait) : (x.releasedFrom w).past = x.past := by
  rw [Group.releasedFrom, Group.endedWait_eq]

@[simp] theorem State.group_clearL1 (s : State) (c g : Nat) : (s.clearL1 c).group g = s.group g := rfl

/-- One waiter released: its wait ends, and it acquires. -/
theorem State.releaseWaiter_of_wait {s : State} {g kind : Nat} {w : Wait} (h : (s.group g).wait = some w) :
    s.releaseWaiter kind g =
      let t := s.setGroup g ((s.group g).releasedFrom w)
      if kind = 3 then t.clearL1 (s.coreOf g)
      else t.setGroup g { (s.group g).releasedFrom w with past := t.pastOf (s.group g).wg } := by
  have hc : (s.setGroup g ((s.group g).releasedFrom w)).coreOf g = s.coreOf g := by
    rw [State.coreOf_setGroup _ _ _ _ (Group.releasedFrom_wg _ _)]
  have hi : ((s.group g).endedWait w).nextInterval = (s.group g).releasedFrom w := by
    rw [Group.nextInterval, Group.releasedFrom, Group.endedWait_eq]
  simp only [State.releaseWaiter, State.endWait_of_wait h, State.modGroup_setGroup, hi]
  split
  · rw [hc]
  · rw [State.learn, State.modGroup_eq, State.group_setGroup_same, Group.releasedFrom_wg]

/-- The groups `ws`, all of them waiting, have been released from `s` to `u`. -/
structure Released (kind : Nat) (ws : List Nat) (s u : State) : Prop where
  world : u = { s with groups := u.groups, cores := u.cores }
  cores : kind ≠ 3 → u.cores = s.cores
  others : ∀ h, h ∉ ws → u.group h = s.group h
  each : ∀ h ∈ ws, ∀ w, (s.group h).wait = some w → u.group h = { (s.group h).releasedFrom w with past := (u.group h).past }
  kept : kind = 3 → ∀ h ∈ ws, (u.group h).past = (s.group h).past
  cleared : kind = 3 → ∀ c, (s.core c).l1 = [] ∨ (∃ g ∈ ws, s.coreOf g = c) → (u.core c).l1 = []

theorem released_nil (kind : Nat) (s : State) : Released kind [] s s :=
  ⟨rfl, fun _ => rfl, fun _ _ => rfl, by simp, by simp, by simp⟩

theorem released_one {s : State} {g kind : Nat} {w : Wait} (h : (s.group g).wait = some w) :
    Released kind [g] s (s.releaseWaiter kind g) := by
  rw [State.releaseWaiter_of_wait h]
  by_cases hk : kind = 3
  · simp only [hk, if_true]
    refine ⟨rfl, fun hn => absurd rfl hn, fun i hi => ?_, fun i hi w' hw' => ?_, fun _ i hi => ?_, fun _ c hc => ?_⟩
    · exact State.group_setGroup_ne _ _ (by simpa using hi)
    · obtain rfl := List.mem_singleton.1 hi
      rw [h] at hw'
      cases hw'
      rw [State.group_clearL1, State.group_setGroup_same]
    · obtain rfl := List.mem_singleton.1 hi
      rw [State.group_clearL1, State.group_setGroup_same, Group.releasedFrom_past]
    · show (Fmap.get Core.reset (Fmap.insert _ _ _) c).l1 = []
      rw [Fmap.get_insert]
      split
      · rfl
      · rename_i hne
        rcases hc with hc | ⟨i, hi, hc⟩
        · exact hc
        · obtain rfl := List.mem_singleton.1 hi
          exact absurd hc.symm hne
  · simp only [hk, if_false]
    refine ⟨rfl, fun _ => rfl, fun i hi => ?_, fun i hi w' hw' => ?_, fun h3 => absurd h3 hk,
      fun h3 => absurd h3 hk⟩
    · rw [State.setGroup_setGroup, State.group_setGroup_ne _ _ (by simpa using hi)]
    · obtain rfl := List.mem_singleton.1 hi
      rw [h] at hw'
      cases hw'
      rw [State.group_setGroup_same]

theorem Released.wg {kind : Nat} {ws : List Nat} {s u : State} (h : Released kind ws s u) (k : Nat) : u.wg k = s.wg k := by
  rw [h.world]; rfl

theorem Released.append {kind g : Nat} {ws : List Nat} {s t u : State} (hg : g ∉ ws) {w : Wait} (hw : (s.group g).wait = some w)
    (h1 : Released kind [g] s t) (h2 : Released kind ws t u) : Released kind (g :: ws) s u := by
  have hne : ∀ h ∈ ws, t.group h = s.group h := fun h hh => h1.others h (by simp; rintro rfl; exact hg hh)
  refine ⟨?_, fun hk => (h2.cores hk).trans (h1.cores hk), fun h hh => ?_, fun h hh w' hw' => ?_, fun hk h hh => ?_, fun hk c hc => ?_⟩
  · rw [h2.world, h1.world]
  · simp only [List.mem_cons, not_or] at hh
    rw [h2.others h hh.2, h1.others h (by simpa using hh.1)]
  · rcases List.mem_cons.1 hh with rfl | hh
    · rw [h2.others h hg]
      exact h1.each h List.mem_cons_self w' hw'
    · have := h2.each h hh w' (by rw [hne h hh]; exact hw')
      rwa [hne h hh] at this
  · rcases List.mem_cons.1 hh with rfl | hh
    · rw [h2.others h hg]
      exact h1.kept hk h List.mem_cons_self
    · rw [h2.kept hk h hh, hne h hh]
  · refine h2.cleared hk c ?_
    rcases hc with hc | ⟨i, hi, hc⟩
    · exact .inl (h1.cleared hk c (.inl hc))
    · rcases List.mem_cons.1 hi with rfl | hi
      · exact .inl (h1.cleared hk c (.inr ⟨i, List.mem_cons_self, hc⟩))
      · refine .inr ⟨i, hi, ?_⟩
        rw [← hc, State.coreOf, State.wgOf, hne i hi, h1.wg]
        rfl

/-- All the waiters of a list released one after another. -/
theorem released_foldl (kind : Nat) (ws : List Nat) (s : State) (hd : ws.Nodup) (hw : ∀ g ∈ ws, ∃ w, (s.group g).wait = some w) :
    Released kind ws s (ws.foldl (fun s g => s.releaseWaiter kind g) s) := by
  induction ws generalizing s with
  | nil => exact released_nil kind s
  | cons g t ih =>
    obtain ⟨hg, hdt⟩ := List.nodup_cons.1 hd
    obtain ⟨w, hgw⟩ := hw g List.mem_cons_self
    have h1 := released_one (kind := kind) hgw
    refine h1.append hg hgw (ih _ hdt fun h hh => ?_)
    rw [h1.others h (by simp; rintro rfl; exact hg hh)]
    exact hw h (List.mem_cons_of_mem _ hh)

theorem State.find_group_setGroup_ne (s : State) {g h : Nat} (v : Group) (hn : h ≠ g) :
    Fmap.find (s.setGroup g v).groups h = Fmap.find s.groups h := Fmap.find_insert_ne _ _ hn

/-- One waiter released learns, at workgroup scope, what its workgroup knew. -/
theorem knows_releaseWaiter {s0 s : State} {g kind : Nat} {w : Wait} (h : KnowsFrom s0 s) (hg : (Fmap.find s.groups g).isSome = true)
    (hw : (s.group g).wait = some w) : KnowsFrom s0 (s.releaseWaiter kind g) ∧
      (kind ≠ 3 → (Fmap.find s0.groups g).isSome = true → (s.group g).wg = (s0.group g).wg →
        Learns s0 g (Fmap.get 0 (s0.group g).past) ((s.releaseWaiter kind g).group g)) := by
  have hx := State.find_group_of_isSome hg
  have ht := h.setGroup_of_past hx (Group.releasedFrom_wg _ w) (Group.releasedFrom_past _ w)
  have hxt : Fmap.find (s.setGroup g ((s.group g).releasedFrom w)).groups g = some ((s.group g).releasedFrom w) := Fmap.find_insert_same ..
  rw [State.releaseWaiter_of_wait hw]
  by_cases hk : kind = 3
  · simp only [hk, if_true]
    exact ⟨ht.congr rfl, fun hn => absurd rfl hn⟩
  · simp only [hk, if_false]
    refine ⟨ht.setGroup_of_learned hxt rfl (by rw [Group.releasedFrom_wg]), fun _ _ hwg => ?_⟩
    rw [State.group_setGroup_same]
    exact KnowsFrom.learns (fun _ => ht) (by rw [← hwg])

/-- So does every waiter of a list. -/
theorem knows_foldl (s0 : State) (kind : Nat) (ws : List Nat) (s : State) (h : KnowsFrom s0 s) (hd : ws.Nodup)
    (hw : ∀ g ∈ ws, (∃ w, (s.group g).wait = some w) ∧ (Fmap.find s.groups g).isSome = true ∧
      (Fmap.find s0.groups g).isSome = true ∧ (s.group g).wg = (s0.group g).wg) (hk : kind ≠ 3) :
    ∀ g ∈ ws, Learns s0 g (Fmap.get 0 (s0.group g).past) ((ws.foldl (fun s g => s.releaseWaiter kind g) s).group g) := by
  induction ws generalizing s with
  | nil => simp
  | cons g t ih =>
    obtain ⟨hg, hdt⟩ := List.nodup_cons.1 hd
    obtain ⟨⟨w, hgw⟩, hgs, hgs0, hwg⟩ := hw g List.mem_cons_self
    obtain ⟨h1, h2⟩ := knows_releaseWaiter (kind := kind) h hgs hgw
    have hr := released_one (kind := kind) hgw
    have hwt : ∀ i ∈ t, (∃ w, ((s.releaseWaiter kind g).group i).wait = some w) ∧
        (Fmap.find (s.releaseWaiter kind g).groups i).isSome = true ∧ (Fmap.find s0.groups i).isSome = true ∧
        ((s.releaseWaiter kind g).group i).wg = (s0.group i).wg := by
      intro i hi
      have hne : i ≠ g := by rintro rfl; exact hg hi
      obtain ⟨hiw, his, his0, hiwg⟩ := hw i (List.mem_cons_of_mem _ hi)
      have hgi : (s.releaseWaiter kind g).group i = s.group i := hr.others i (by simpa using hne)
      rw [hgi]
      refine ⟨hiw, ?_, his0, hiwg⟩
      obtain ⟨x', hx', -⟩ := h1.grows i _ (State.find_group_of_isSome his0)
      rw [hx']
      rfl
    intro i hi
    rcases List.mem_cons.1 hi with rfl | hi
    · rw [List.foldl_cons, (released_foldl kind t _ hdt fun g hg => (hwt g hg).1).others i hg]
      exact h2 hk hgs0 hwg
    · exact ih _ h1 hdt hwt i hi

end Sys2Proof.Machine
end

section
/-! PROOFS. An arrival at a barrier as a whole (R26, R27, R66, R177). -/

namespace Sys2Proof.Machine

open Sys2Proof.Claims

/-- The group that has come to wait as instruction `i`. -/
def State.waiting (s : State) (i : Instr) (k : WaitKind) : Group := { s.reader i with wait := some (waitFor i s k), stall := none }

theorem State.waiting_rest (s : State) (i : Instr) (k : WaitKind) :
    (s.waiting i k).wg = s.me.wg ∧ (s.waiting i k).status = s.me.status ∧ (s.waiting i k).past = s.me.past :=
  ⟨s.reader_wg i, s.reader_status i, s.reader_past i⟩

/-- The state in which an arrival has been added to its word, and its group waits. -/
def State.atBarrier (s : State) (i : Instr) (loc : Nat) (m : Member) (count : Nat) : State :=
  ((s.seen i).arrived loc m count).waits (Instr.info i) (.barrier loc count (m.kind = 1) (m.kind = 3))

section
variable (s : State) (i : Instr) (loc : Nat) (m : Member) (count : Nat)

theorem State.atBarrier_groups : (s.atBarrier i loc m count).groups =
    Fmap.insert s.groups s.cur (s.waiting i (.barrier loc count (m.kind = 1) (m.kind = 3))) := by
  have h : (s.atBarrier i loc m count).groups = Fmap.insert (s.seen i).groups s.cur _ := rfl
  rw [h, State.seen_groups, Fmap.insert_insert]
  rfl

theorem State.atBarrier_eq : s.atBarrier i loc m count = { s with
    groups := (s.atBarrier i loc m count).groups, mem := (s.arrived loc m count).mem, poison := (s.arrived loc m count).poison } := rfl

theorem State.atBarrier_me : (s.atBarrier i loc m count).group s.cur = s.waiting i (.barrier loc count (m.kind = 1) (m.kind = 3)) := by
  rw [State.group, State.atBarrier_groups, Fmap.get_insert_same]

theorem State.atBarrier_ne {h : Nat} (hn : h ≠ s.cur) : (s.atBarrier i loc m count).group h = s.group h := by
  rw [State.group, State.atBarrier_groups, Fmap.get_insert_ne _ _ _ hn]
  rfl

theorem State.atBarrier_rising (hl : Listed s) : Fmap.risingFrom 0 (s.atBarrier i loc m count).groups = true := by
  rw [State.atBarrier_groups]
  exact Fmap.risingFrom_insert _ (Nat.zero_le _) (rising_of_listed hl)

theorem State.hasExited_atBarrier (hl : Listed s) (k : Nat) : (s.atBarrier i loc m count).hasExited k = s.hasExited k :=
  State.hasExited_setGroup (rising_of_listed hl) (find_me_of_listed hl) (s.waiting_rest i _).1 (s.waiting_rest i _).2.1
    (s.atBarrier_groups i loc m count) rfl k

theorem knows_atBarrier (hl : Listed s) : KnowsFrom s (s.atBarrier i loc m count) :=
  ((KnowsFrom.refl (rising_of_listed hl)).setGroup_of_past (find_me_of_listed hl) (s.waiting_rest i _).1
    (s.waiting_rest i _).2.2).congr (s.atBarrier_groups i loc m count)

/-- Those who wait at the word once the arrival has been made are those who waited before, and the group that arrives. -/
theorem State.mem_waitersAt_atBarrier (hl : Listed s) (hlive : s.me.status = .live) {h : Nat} :
    h ∈ (s.atBarrier i loc m count).waitersAt loc ↔ h = s.cur ∨ h ∈ s.waitersAt loc := by
  rw [State.mem_waitersAt (s.atBarrier_rising i loc m count hl), State.mem_waitersAt (rising_of_listed hl), State.atBarrier_groups,
    Fmap.find_insert]
  by_cases hn : h = s.cur
  · simp only [hn, if_true, true_or, iff_true]
    exact ⟨_, rfl, (s.waiting_rest i _).2.1.trans hlive, _, _, _, _, _, _, rfl⟩
  · simp only [hn, if_false, false_or]

end

/-- Where nobody has exited, an arrival short of the count orphans nobody (R28). -/
theorem State.orphaned_of_noExit {t : State} {loc k : Nat} {m : Member} {w : Wg}
    (hg : ∀ p ∈ t.groups, p.2.wg = k → p.2.status ≠ .exited) (hm : ∀ p ∈ w.members, t.hasExited p = false) :
    t.orphaned loc m w k = t := by
  have h1 : t.groups.any (fun p => p.2.wg = k && p.2.status = .exited && t.namesLanes loc p.2) = false := by
    refine List.any_eq_false.2 fun p hp => ?_
    by_cases hk : p.2.wg = k
    · simp [hg p hp hk]
    · simp [hk]
  have h2 : (w.members.drop 1).any t.hasExited = false :=
    List.any_eq_false.2 fun p hp => by simp [hm p (List.mem_of_mem_drop hp)]
  simp only [State.orphaned, h1, h2, Bool.and_false, Bool.false_eq_true, if_false]

/-- Adding an arrival leaves every group of the workgroup not exited, if they were. -/
theorem noExit_atBarrier {s : State} {i : Instr} {loc count : Nat} {m : Member} (hl : Listed s)
    (h : ∀ p ∈ s.groups, p.2.wg = s.me.wg → p.2.status ≠ .exited) :
    ∀ p ∈ (s.atBarrier i loc m count).groups, p.2.wg = s.me.wg → p.2.status ≠ .exited := by
  intro p hp hw
  have hf := Fmap.find_of_mem (s.atBarrier_rising i loc m count hl) hp
  rw [State.atBarrier_groups, Fmap.find_insert] at hf
  split at hf
  · rw [← Option.some.inj hf, (s.waiting_rest i _).2.1]
    exact h _ (Fmap.mem_of_find (find_me_of_listed hl)) rfl
  · exact h p (Fmap.mem_of_find hf) hw

/-- The barrier's word cleared, with its epoch stepped. -/
def State.idleWord (t : State) (loc : Nat) : State := t.setBar loc 0 0 0 0 ((t.barEpoch loc + 1) % 4294967296) 0

/-- The word of a barrier that has completed, and every byte beside it (R27, R176). -/
theorem State.idleWord_bytes {s t u : State} {loc : Nat} {m : Member} {count : Nat} (ht : t.mem = (s.arrived loc m count).mem)
    (hu : u.mem = (t.idleWord loc).mem) :
    u.barKind loc = 0 ∧ u.barMask loc = 0 ∧ u.barSig loc = 0 ∧ u.barNB loc = 0 ∧ u.barArr loc = 0 ∧
      u.barEpoch loc = (s.barEpoch loc + 1) % 4294967296 ∧ ∀ a, a < loc ∨ loc + 32 ≤ a → u.byteAt a = s.byteAt a := by
  have hn : ∀ {v w : State}, v.mem = w.mem → ∀ a n, v.natAt a n = w.natAt a n := fun hm a n =>
    congrArg leNat (bytesAt_congr fun k _ => State.byteAt_congr hm (a + k))
  have hepoch : t.barEpoch loc = s.barEpoch loc := by
    rw [State.barEpoch, hn ht]
    refine (State.barEpoch_setBar ..).trans (Nat.mod_eq_of_lt ?_)
    have := s.barEpoch_lt loc
    omega
  have hw : ∀ a n, u.natAt a n = (t.idleWord loc).natAt a n := hn hu
  refine ⟨(hw ..).trans (State.barKind_setBar ..), (hw ..).trans (State.barMask_setBar ..), (hw ..).trans (State.barSig_setBar ..),
    (hw ..).trans (State.barNB_setBar ..), (hw ..).trans (State.barArr_setBar ..), ?_, fun a ha => ?_⟩
  · refine (hw ..).trans ((State.barEpoch_setBar ..).trans ?_)
    rw [hepoch]
    omega
  · rw [State.byteAt_congr hu, State.idleWord, State.byteAt_setBar_outside _ _ _ _ _ _ _ _ ha, State.byteAt_congr ht]
    exact State.byteAt_setBar_outside _ _ _ _ _ _ _ _ ha

/-- A group that has come to a barrier and been released at once has done its instruction (R27, R174). -/
theorem ran_of_released {s : State} {i : Instr} {k : WaitKind} {y : Group} {p : Fmap Nat}
    (hy : y = { (s.waiting i k).releasedFrom (waitFor i s k) with past := p }) :
    Ran i (s.reader i) { s.reader i with wait := none, interval := s.me.interval + 1, past := p } y (nextPc s.me.pc) false {} := by
  rw [hy, ← State.reader_pc s i, ← State.reader_interval s i]
  exact Group.endedWait_ran _ rfl rfl rfl _ rfl

section
variable {s : State} {i : Instr} {loc : Nat} {m : Member} {count : Nat}

theorem State.idleWord_me : ((s.atBarrier i loc m count).idleWord loc).group s.cur =
    s.waiting i (.barrier loc count (m.kind = 1) (m.kind = 3)) := s.atBarrier_me i loc m count

theorem State.idleWord_ne {h : Nat} (hn : h ≠ s.cur) : ((s.atBarrier i loc m count).idleWord loc).group h = s.group h :=
  s.atBarrier_ne i loc m count hn

/-- Neither the arrival nor the clearing of the word teaches a group anything or moves it. -/
theorem State.idleWord_rest (h : Nat) : (((s.atBarrier i loc m count).idleWord loc).group h).past = (s.group h).past ∧
    (((s.atBarrier i loc m count).idleWord loc).group h).wg = (s.group h).wg := by
  by_cases hn : h = s.cur
  · rw [hn, State.idleWord_me]
    exact ⟨(s.waiting_rest i _).2.2, (s.waiting_rest i _).1⟩
  · rw [State.idleWord_ne hn]
    exact ⟨rfl, rfl⟩

theorem State.idleWord_world : (s.atBarrier i loc m count).idleWord loc = { s with
    groups := ((s.atBarrier i loc m count).idleWord loc).groups, mem := ((s.atBarrier i loc m count).idleWord loc).mem
    poison := ((s.atBarrier i loc m count).idleWord loc).poison } := rfl

theorem State.wait_of_mem_waitersAt (hl : Listed s) {h : Nat} (hh : h ∈ (s.atBarrier i loc m count).waitersAt loc) :
    (Fmap.find ((s.atBarrier i loc m count).idleWord loc).groups h).isSome = true ∧
      ∃ w, (((s.atBarrier i loc m count).idleWord loc).group h).wait = some w := by
  obtain ⟨x, hx, hw⟩ := (State.mem_waitersAt (s.atBarrier_rising i loc m count hl)).1 hh
  have hx' : Fmap.find ((s.atBarrier i loc m count).idleWord loc).groups h = some x := hx
  rw [hx', State.group_of_find hx']
  exact ⟨rfl, hw.wait⟩

theorem State.completeBarrier_atBarrier (hkind : m.kind = 1 ∨ m.kind = 2 ∨ m.kind = 3) :
    (s.atBarrier i loc m count).completeBarrier loc = ((s.atBarrier i loc m count).waitersAt loc).foldl
      (fun s g => s.releaseWaiter m.kind g) ((s.atBarrier i loc m count).idleWord loc) := by
  have hk : (s.atBarrier i loc m count).barKind loc = m.kind := by
    refine (State.barKind_setBar ..).trans (Nat.mod_eq_of_lt ?_)
    omega
  rw [State.completeBarrier, hk]
  rfl

theorem released_atBarrier (hkind : m.kind = 1 ∨ m.kind = 2 ∨ m.kind = 3) (hl : Listed s) :
    Released m.kind ((s.atBarrier i loc m count).waitersAt loc) ((s.atBarrier i loc m count).idleWord loc)
      ((s.atBarrier i loc m count).completeBarrier loc) := by
  rw [State.completeBarrier_atBarrier hkind]
  exact released_foldl _ _ _ (State.waitersAt_nodup (s.atBarrier_rising i loc m count hl) loc)
    fun _ hh => (State.wait_of_mem_waitersAt hl hh).2

/-- At workgroup scope every group that leaves the barrier learns what its workgroup knew. -/
theorem learns_atBarrier (hkind : m.kind = 1 ∨ m.kind = 2 ∨ m.kind = 3) (hl : Listed s) (hlive : s.me.status = .live) (h3 : m.kind ≠ 3)
    {h : Nat} (hh : h ∈ (s.atBarrier i loc m count).waitersAt loc) :
    Learns s h (Fmap.get 0 (s.group h).past) (((s.atBarrier i loc m count).completeBarrier loc).group h) := by
  rw [State.completeBarrier_atBarrier hkind]
  refine knows_foldl s m.kind _ _ ((knows_atBarrier s i loc m count hl).congr (v := (s.atBarrier i loc m count).idleWord loc) rfl)
    (State.waitersAt_nodup (s.atBarrier_rising i loc m count hl) loc) (fun g hg => ?_) h3 h hh
  obtain ⟨hf, hw⟩ := State.wait_of_mem_waitersAt hl hg
  refine ⟨hw, hf, ?_, (State.idleWord_rest g).2⟩
  rcases (s.mem_waitersAt_atBarrier i loc m count hl hlive).1 hg with rfl | hg
  · exact hl.2
  · obtain ⟨x, hx, -⟩ := (State.mem_waitersAt (rising_of_listed hl)).1 hg
    rw [hx]
    rfl

end

/-- A package changed in its groups and its cores, after it was changed in its groups and its memory. -/
theorem State.world_trans {s v t : State} (h1 : v = { s with groups := v.groups, mem := v.mem, poison := v.poison })
    (h2 : t = { v with groups := t.groups, cores := t.cores }) :
    t = { s with groups := t.groups, mem := t.mem, poison := t.poison, cores := t.cores } ∧ t.mem = v.mem := by
  cases s; cases v; cases t
  simp only [State.mk.injEq] at h1 h2 ⊢
  simp_all

/-- An arrival that completes its barrier, in the state `t` that the completion leaves. -/
theorem completion_outcome {i : Instr} {s t : State} {m : Member} {loc count : Nat} (hkind : m.kind = 1 ∨ m.kind = 2 ∨ m.kind = 3)
    (hlive : s.me.status = .live) (hl : Listed s) (ht : t = (s.atBarrier i loc m count).completeBarrier loc) :
    t = { s with groups := t.groups, mem := t.mem, poison := t.poison, cores := t.cores } ∧
    (m.kind ≠ 3 → t.cores = s.cores) ∧ (m.kind = 3 → (t.core s.myCore).l1 = []) ∧
    t.barKind loc = 0 ∧ t.barMask loc = 0 ∧ t.barSig loc = 0 ∧ t.barNB loc = 0 ∧ t.barArr loc = 0 ∧
    t.barEpoch loc = (s.barEpoch loc + 1) % 4294967296 ∧
    (∀ a, a < loc ∨ loc + 32 ≤ a → t.byteAt a = s.byteAt a) ∧
    Ran i (s.reader i) { s.reader i with wait := none, interval := s.me.interval + 1, past := (t.group s.cur).past }
      (t.group s.cur) (nextPc s.me.pc) false {} ∧
    (∀ h ∈ s.waitersAt loc, h ≠ s.cur → (t.group h).wait = none ∧ (t.group h).pc = nextPc (s.group h).pc) ∧
    (∀ h, h = s.cur ∨ h ∈ s.waitersAt loc →
      (m.kind = 3 → (t.group h).past = (s.group h).past) ∧
      (m.kind ≠ 3 → Learns s h (Fmap.get 0 (s.group h).past) (t.group h))) ∧
    ∀ h, h ∉ s.waitersAt loc → h ≠ s.cur → t.group h = s.group h := by
  have hmem := fun {h : Nat} => s.mem_waitersAt_atBarrier i loc m count hl hlive (h := h)
  have hlearn := fun (h3 : m.kind ≠ 3) {h : Nat} hh => learns_atBarrier (i := i) (loc := loc) (count := count) hkind hl hlive h3 (h := h) hh
  have hrel := released_atBarrier (i := i) (loc := loc) (count := count) hkind hl
  rw [← ht] at hrel hlearn
  clear ht
  obtain ⟨hworld, hbytes⟩ := State.world_trans State.idleWord_world hrel.world
  obtain ⟨w1, w2, w3, w4, w5, w6, w7⟩ := State.idleWord_bytes (s := s) (t := s.atBarrier i loc m count) rfl hbytes
  refine ⟨hworld, hrel.cores, fun h3 => hrel.cleared h3 _ (.inr ⟨s.cur, hmem.2 (.inl rfl), ?_⟩), w1, w2, w3, w4, w5, w6, w7,
    ran_of_released (k := .barrier loc count (m.kind = 1) (m.kind = 3)) ?_, fun h hh hn => ?_, fun h hh => ⟨fun h3 => ?_, fun h3 => hlearn h3 (hmem.2 hh)⟩, fun h hh hn => ?_⟩
  · exact congrArg (fun k => (s.wg k).core) (State.idleWord_rest s.cur).2
  · have h := hrel.each s.cur (hmem.2 (.inl rfl)) (waitFor i s (.barrier loc count (m.kind = 1) (m.kind = 3)))
      (by rw [State.idleWord_me]; rfl)
    rwa [State.idleWord_me] at h
  · obtain ⟨w, hw⟩ := (State.wait_of_mem_waitersAt hl (hmem.2 (.inr hh))).2
    rw [hrel.each h (hmem.2 (.inr hh)) w hw, State.idleWord_ne hn, Group.releasedFrom, Group.endedWait_eq]
    exact ⟨rfl, rfl⟩
  · rw [hrel.kept h3 h (hmem.2 hh), (State.idleWord_rest h).1]
  · rw [hrel.others h (fun hw => (hmem.1 hw).elim hn hh), State.idleWord_ne hn]

/-- What O15 says of an arrival that passes its checks, for one of the three instructions. -/
theorem arrival_outcome {i : Instr} {s : State} {m : Member} {off k : Nat} {body : State → Body} (hr : Ready i s)
    (he : exec i s = issue (Instr.info i) body s) (hb : body (s.seen i) = arrive (Instr.info i) m off k (s.seen i))
    (ha : Arrives s m off k) (hl : Listed s) :
    let loc := spadLoc (s.wg k).core (128 * (s.wg k).line0 + off)
    let count := ((s.arrivalLanes s.me).map (·.2)).sum
    let noExit := (∀ p ∈ s.groups, p.2.wg = s.me.wg → p.2.status ≠ .exited) ∧ (∀ p ∈ s.myWg.members, s.hasExited p = false)
    (s.barArr loc + count ≠ m.need → noExit →
      Stays i s
        (s.setBar loc (if m.kind = 1 then m.a else 0) (if m.kind = 1 then 0 else m.b) (if m.kind = 1 then m.b else m.a)
          (s.barArr loc + count) (s.barEpoch loc) m.kind)
        { s.reader i with
            wait := some (waitFor i s (.barrier loc count (m.kind = 1) (m.kind = 3))), stall := none }) ∧
    (s.barArr loc + count = m.need →
      body (s.seen i) = .left ((s.atBarrier i loc m count).completeBarrier loc)) := by
  intro loc count noExit
  have hbody := hb.trans (arrive_of_arrives ha hl)
  refine ⟨fun hne ⟨hgs, hms⟩ => ?_, fun heq => ?_⟩
  · rw [if_neg hne, ← State.atBarrier, State.orphaned_of_noExit (noExit_atBarrier hl hgs)
      (fun p hp => (s.hasExited_atBarrier i loc m count hl p).trans (hms p hp))] at hbody
    exact stays_of_left hr he hbody rfl (fun h hn => s.atBarrier_ne i loc m count hn) (s.atBarrier_me i loc m count)
  · rw [if_pos heq, ← State.atBarrier] at hbody
    exact hbody

/-- Settles O15: an arrival makes its group wait, and the completion releases all who wait, the group among them. -/
theorem barrierArrivals : Obligations.BarrierArrivals := by
  intro row hrow f s hr
  simp only [barrierRows, List.mem_cons, List.not_mem_nil, or_false] at hrow
  obtain rfl | rfl | rfl := hrow <;> intro m off k loc count noExit ha hl
  · have he : execBarb f s = issue _ _ s := rfl
    obtain ⟨h1, h2⟩ := arrival_outcome hr he (by simp only [State.seen_me, State.reader_wg]; rfl) ha hl
    exact ⟨h1, fun h => ⟨_, he.trans (issue_left hr (h2 h)), completion_outcome (.inl rfl) ha.live.1 hl rfl⟩⟩
  · have he : execBarn f s = issue _ _ s := rfl
    obtain ⟨h1, h2⟩ := arrival_outcome hr he (by simp only [State.seen_me, State.reader_wg]; rfl) ha hl
    exact ⟨h1, fun h => ⟨_, he.trans (issue_left hr (h2 h)), completion_outcome (.inr (.inl rfl)) ha.live.1 hl rfl⟩⟩
  · have he : execBarc f s = issue _ _ s := rfl
    obtain ⟨h1, h2⟩ := arrival_outcome hr he (by simp only [State.seen_me, State.reader_wg, State.seen_myWg]; rfl) ha hl
    exact ⟨h1, fun h => ⟨_, he.trans (issue_left hr (h2 h)), completion_outcome (.inr (.inr rfl)) ha.live.1 hl rfl⟩⟩

end Sys2Proof.Machine
end

section
/-! PROOFS. What reset leaves (R34, R72, R103, R126, R332, R333). -/

namespace Sys2Proof.Machine

open Sys2Proof.Claims

/-- Without a write to RBSEL, RBDATA reads 0 (R330). -/
theorem State.rbdata_of_unset {s : State} {c : Nat} (h : (s.core c).rbSet = false) : s.rbdata c = 0 := by
  simp [State.rbdata, h]

/-- Settles O42: nothing is listed at reset, so every part of the package has its value at reset. -/
theorem resetState : Obligations.ResetState := by
  have kept : Kept State.reset := ⟨memWf_reset, rfl⟩
  have drawn : State.reset.pwrctl.toNat / 2 ^ 48 = 0 := by decide +kernel
  exact ⟨kept, rfl, rfl, rfl, rfl, rfl, rfl, rfl, rfl, rfl, rfl, fun _ => ⟨rfl, rfl, rfl, rfl, rfl⟩,
    fun _ => ⟨rfl, rfl, rfl, rfl, rfl, rfl⟩, fun _ => ⟨rfl, rfl, rfl⟩, fun _ => rfl, fun _ => rfl, drawn,
    fun _ => State.rbdata_of_unset rfl, fun _ => ⟨rfl, rfl⟩⟩

end Sys2Proof.Machine
end

section
/-! PROOFS. The checks at issue, in order (R29, R37, R55, R67, R146, R182, R264). -/

namespace Sys2Proof.Machine

open Sys2Proof.Claims

/-! ### What an instruction declares, and the checks that it makes -/

/-- Operands left out of a test that they do not meet. -/
theorem any_filter_of_false {α : Type} {l : List α} {p q : α → Bool} (h : ∀ o ∈ l, p o = false → q o = false) :
    (l.filter p).any q = l.any q := by
  rw [List.any_filter, Bool.eq_iff_iff, List.any_eq_true, List.any_eq_true]
  refine exists_congr fun o => and_congr_right fun ho => ?_
  cases hp : p o
  · simp [h o ho hp]
  · simp

theorem Info.reads_tileLater (n : Info) (x : Group) : n.tileLater.reads x = (n.reads x).filter (fun o => o.file != .tile) := by
  change (if (n.idleReads || x.execMask n.pred != 0) = true then _ else []) = (if _ then _ else []).filter _
  split <;> rfl

/-- A tile operand holds back no instruction, so the checks of one whose tile is read later are those of what it declares. -/
theorem State.gate_tileLater (s : State) (g : Nat) {n : Info} (h : ∀ o ∈ n.srcs, o.file = .tile → o.n = 1) :
    s.gate g n.tileLater = s.gate g n := by
  have hok : (n.srcs.filter (fun o => o.file != .tile)).all (fun o => o.ok (s.group g).width) =
      n.srcs.all (fun o => o.ok (s.group g).width) := by
    rw [List.all_eq_not_any_not, List.all_eq_not_any_not, any_filter_of_false]
    intro o ho ht
    simp [Src.ok, h o ho (by simpa using ht)]
  have hbusy : (n.tileLater.reads (s.group g)).any (fun o => s.srcBusy g o) = (n.reads (s.group g)).any (fun o => s.srcBusy g o) := by
    rw [Info.reads_tileLater, any_filter_of_false]
    intro o _ ht
    have ht : o.file = .tile := by simpa using ht
    simp [State.srcBusy, Src.isLatch, ht]
  have hlatch : (n.srcs.filter (fun o => o.file != .tile)).any (fun o => o.isLatch && !(o.latch (s.group g)).valid) =
      n.srcs.any (fun o => o.isLatch && !(o.latch (s.group g)).valid) := by
    refine any_filter_of_false fun o _ ht => ?_
    have ht : o.file = .tile := by simpa using ht
    simp [Src.isLatch, ht]
  simp only [State.gate, hbusy]
  simp only [Info.tileLater, encodingOk, hok, hlatch] <;> rfl

/-- Every instruction proper with no slot of its own issues under the checks of what it declares; the other constructors are the
events and the instructions that the hypotheses name. -/
theorem exec_eq_issue (i : Instr) (s : State) (hw : i.hasWord = true) (hh : ¬ IsHint i) (hs : ∀ p, ¬ NeedsSlot i p) :
    ∃ n body, exec i s = issue n body s ∧ s.gate s.cur n = s.gate s.cur (Instr.info i) := by
  cases i
  case xput f => exact absurd (.xput f) (hs _)
  case xget f => exact absurd (.xget f) (hs _)
  case coll f => exact absurd (.coll f) (hs _)
  case cabort f => exact absurd (.cabort f) (hs _)
  case mst f => exact ⟨_, _, (rfl : execMst f s = _), State.gate_tileLater s s.cur (by simp [Instr.info, sPair, tileSrc])⟩
  case mrd f => exact ⟨_, _, (rfl : execMrd f s = _), State.gate_tileLater s s.cur (by simp [Instr.info, sSrc, tileSrc])⟩
  case hlr f => exact absurd (.inl ⟨f, rfl⟩) hh
  case hrun f => exact absurd (.inr (.inl ⟨f, rfl⟩)) hh
  case himm f => exact absurd (.inr (.inr (.inl ⟨f, rfl⟩))) hh
  case hmod f => exact absurd (.inr (.inr (.inr (.inl ⟨f, rfl⟩)))) hh
  case hsig f => exact absurd (.inr (.inr (.inr (.inr ⟨f, rfl⟩)))) hh
  case idemb => exact ⟨_, _, by dsimp only [exec, execIdemb], rfl⟩
  all_goals first
    | exact absurd hw Bool.false_ne_true
    | exact ⟨_, _, by dsimp only [exec]; rfl, rfl⟩

/-- A slot of the wrong kind makes the encoding illegal, and one of the right kind adds no check (R144, R146). -/
theorem State.gate_withSlot (s : State) (n : Info) (k : BitVec 6) (q : XSlot → Bool) :
    ((∃ e, s.slot k = some e ∧ q e = true) → s.gate s.cur (n.withSlot s k q) = s.gate s.cur n) ∧
    ((¬ ∃ e, s.slot k = some e ∧ q e = true) → s.gate s.cur (n.withSlot s k q) = .trap .illegalOp) := by
  constructor
  · rintro ⟨e, he, hq⟩
    simp only [State.gate, encodingOk, Info.withSlot, Info.reads, he, hq, Bool.and_true] <;> rfl
  · intro h
    have hl : encodingOk (n.withSlot s k q) (s.group s.cur) = false := by
      cases he : s.slot k with
      | none => simp [encodingOk, Info.withSlot, he]
      | some e => simp [encodingOk, Info.withSlot, he, (by simpa [he] using h : q e = false)]
    simp only [State.gate, hl, Bool.not_false, if_true]

/-- An instruction with a slot of its own issues under what it declares, with the kind of its slot as a condition of its encoding. -/
theorem exec_eq_issue_withSlot {i : Instr} {k : BitVec 6} {p : XSlot → Prop} (s : State) (h : NeedsSlot i (k, p)) :
    ∃ q body, exec i s = issue ((Instr.info i).withSlot s k q) body s ∧ ∀ e, q e = true ↔ p e := by
  cases h with
  | xput f => exact ⟨fun x => x.kind = 0, _, rfl, fun e => by simp⟩
  | xget f => exact ⟨fun x => x.kind = 1, _, rfl, fun e => by simp⟩
  | coll f => exact ⟨fun x => x.collective && collTypeOk x.type, _, rfl, fun e => by simp [XSlot.collective, collTypeOk, and_assoc]⟩
  | cabort f => exact ⟨XSlot.collective, _, (rfl : execCabort f s = _), fun e => by simp [XSlot.collective]⟩

/-! ### What the checks refuse -/

/-- The operands that must be there are there, as the checks test it (R29, R55, R262). -/
theorem operandsThere_iff (s : State) (n : Info) :
    ((n.reads s.me).any (fun o => s.srcBusy s.cur o) || n.dsts.any (fun o => s.dstBusy s.cur o (s.me.execMask n.pred))) = false ↔
    (n.idleReads = true ∨ s.me.execMask n.pred ≠ 0 → ∀ o ∈ n.srcs, s.srcBusy s.cur o = false) ∧
      ∀ o ∈ n.dsts, s.dstBusy s.cur o (s.me.execMask n.pred) = false := by
  rw [Bool.or_eq_false_iff, List.any_eq_false, List.any_eq_false, Info.reads]
  by_cases h : n.idleReads = true ∨ s.me.execMask n.pred ≠ 0
  · rw [if_pos (by simpa using h)]
    simp only [h, Bool.not_eq_true, forall_const]
  · rw [if_neg (by simpa using h)]
    exact ⟨fun hd => ⟨fun hn => absurd hn h, fun o ho => by simpa using hd.2 o ho⟩, fun hd => ⟨by simp, fun o ho => by simpa using hd.2 o ho⟩⟩

/-- The latches that an instruction reads are valid, as the checks test it (R67). -/
theorem latchesValid_iff (x : Group) (n : Info) :
    n.srcs.any (fun o => o.isLatch && !(o.latch x).valid) = false ↔ ∀ o ∈ n.srcs, o.isLatch = true → (o.latch x).valid = true := by
  simp

/-- The checks at issue of the issuing group, in their order. -/
theorem State.gate_cur (s : State) (n : Info) : s.gate s.cur n =
    if !encodingOk n s.me then .trap .illegalOp
    else if !classOk n.cls (s.core s.myCore).exchange (s.ctx s.myCtx).phased then .trap .phaseIllegal
    else if (n.reads s.me).any (fun o => s.srcBusy s.cur o) || n.dsts.any (fun o => s.dstBusy s.cur o (s.me.execMask n.pred)) then
      .stall .result
    else if n.srcs.any (fun o => o.isLatch && !(o.latch s.me).valid) then .trap .latchStale
    else if n.idemTrap && s.me.region.isSome then .trap .idemRegion
    else .go := rfl

/-- An instruction whose checks are those of what it declares, and before them `slotOk`, makes them in order. -/
theorem guarded_of_gate {i : Instr} {s : State} {n : Info} {body : State → Body} {slotOk : Prop} (he : exec i s = issue n body s)
    (hok : slotOk → s.gate s.cur n = s.gate s.cur (Instr.info i)) (hno : ¬ slotOk → s.gate s.cur n = .trap .illegalOp) :
    Guarded i s slotOk := by
  have trap : ∀ t, s.gate s.cur n = .trap t → exec i s = .next (s.preciseTrap s.cur { trap := t }) := fun t h => by
    simp only [he, issue, h]
  have stall : s.gate s.cur n = .stall .result → exec i s = .next (s.setGroup s.cur { s.me with stall := some .result }) := fun h => by
    rw [he, issue, h] <;> rfl
  simp only [Guarded, ← operandsThere_iff, ← latchesValid_iff, Bool.not_eq_true, Bool.not_eq_false]
  refine ⟨fun h => trap _ ?_, fun h hc => trap _ ?_, fun h hc hr => stall ?_, fun h hc hr hl => trap _ ?_,
    fun h hc hr hl hi hg => trap _ ?_⟩
  · by_cases hs : slotOk
    · simp [hok hs, State.gate_cur, (by simpa [hs] using h : encodingOk (Instr.info i) s.me = false)]
    · exact hno hs
  · simp [hok h.2, State.gate_cur, h.1, hc]
  · simp only [hok h.2, State.gate_cur, h.1, hc, hr, Bool.not_true, if_true, Bool.false_eq_true, if_false]
  · simp only [hok h.2, State.gate_cur, h.1, hc, hr, hl, Bool.not_true, if_true, Bool.false_eq_true, if_false]
  · simp only [hok h.2, State.gate_cur, h.1, hc, hr, hl, hi, Option.isSome_iff_ne_none.2 hg, Bool.not_true, Bool.and_self, if_true,
      Bool.false_eq_true, if_false]

/-- Settles O43: every instruction proper issues under the checks of what it declares, and one with a slot under those and its slot's. -/
theorem issueChecks : Obligations.IssueChecks := by
  unfold Obligations.IssueChecks
  refine ⟨fun i s hw hh hs => ?_, fun i s k p hs => ?_⟩
  · obtain ⟨n, body, he, hg⟩ := exec_eq_issue i s hw hh hs
    exact guarded_of_gate he (fun _ => hg) (fun h => absurd trivial h)
  · obtain ⟨q, body, he, hq⟩ := exec_eq_issue_withSlot s hs
    obtain ⟨hyes, hno⟩ := s.gate_withSlot (Instr.info i) k q
    simp only [hq] at hyes hno
    exact guarded_of_gate he hyes hno

end Sys2Proof.Machine
end

section
/-! PROOFS. One clk, and results that arrive (R29, R30, R33, R34, R57, R66, R102). -/

namespace Sys2Proof

/-- A map in which a function has been applied to the entries of a list of keys, where `on` holds. -/
theorem Fmap.get_foldl_insert {α : Type} (d : α) (on : Nat → Bool) (f : α → α) (l : List Nat) (hl : l.Nodup) (m : Fmap α) (k : Nat) :
    Fmap.get d (l.foldl (fun m j => if on j then Fmap.insert m j (f (Fmap.get d m j)) else m) m) k =
      if k ∈ l ∧ on k = true then f (Fmap.get d m k) else Fmap.get d m k := by
  induction l generalizing m with
  | nil => simp
  | cons j t ih =>
    obtain ⟨hj, ht⟩ := List.nodup_cons.1 hl
    rw [List.foldl_cons, ih ht]
    by_cases hk : k = j
    · subst hk
      by_cases ho : on k = true <;> simp [hj, ho]
    · by_cases ho : on j = true <;> simp [hk, ho, Fmap.get_insert_ne d m _ hk]

theorem Fmap.risingFrom_mapVals {α β : Type} (f : Nat → α → β) {m : Fmap α} {b : Nat} (h : Fmap.risingFrom b m = true) :
    Fmap.risingFrom b (Fmap.mapVals f m) = true := by
  induction m generalizing b with
  | nil => rfl
  | cons p t ih =>
    simp only [Fmap.risingFrom, Bool.and_eq_true, decide_eq_true_eq] at h
    simp only [Fmap.mapVals, List.map_cons, Fmap.risingFrom, Bool.and_eq_true, decide_eq_true_eq]
    exact ⟨h.1, ih h.2⟩

end Sys2Proof

namespace Sys2Proof.Machine

open Sys2Proof.Claims

/-! ### The starvation guard of one core -/

/-- A group whose HRUN run ends, if `c` says so (R32). -/
def Group.runEnded (x : Group) (c : Bool) : Group := if c then { x with hrun := 0 } else x

@[simp] theorem Group.runEnded_wg (x : Group) (c : Bool) : (x.runEnded c).wg = x.wg := by cases c <;> rfl
@[simp] theorem Group.runEnded_status (x : Group) (c : Bool) : (x.runEnded c).status = x.status := by cases c <;> rfl
@[simp] theorem Group.runEnded_runEnded (x : Group) (a b : Bool) : (x.runEnded a).runEnded b = x.runEnded (a || b) := by
  cases a <;> cases b <;> rfl

/-- A live group that is resident on core `c`. -/
def State.resides (s : State) (c : Nat) (x : Group) : Bool :=
  x.status = .live && (s.wg x.wg).core = c && (s.wg x.wg).state.onCore

theorem State.mem_residents {s : State} (h : Fmap.risingFrom 0 s.groups = true) {c g : Nat} :
    g ∈ s.residents c ↔ ∃ x, Fmap.find s.groups g = some x ∧ s.resides c x = true := by
  rw [State.residents, Fmap.keys, List.mem_map]
  constructor
  · rintro ⟨p, hp, rfl⟩
    obtain ⟨hm, hr⟩ := State.mem_groupsWhere.1 hp
    exact ⟨p.2, Fmap.find_of_mem h hm, hr⟩
  · rintro ⟨x, hx, hr⟩
    exact ⟨(g, x), State.mem_groupsWhere.2 ⟨Fmap.mem_of_find hx, hr⟩, rfl⟩

/-- Runs ended one after another, in groups that are listed. -/
theorem runs_foldl (l : List Nat) (s : State) (h : ∀ g ∈ l, (Fmap.find s.groups g).isSome = true) (hr : Fmap.risingFrom 0 s.groups = true) :
    let t := l.foldl (fun t g => t.modGroup g (fun x => { x with hrun := 0 })) s
    t = { s with groups := t.groups } ∧ Fmap.risingFrom 0 t.groups = true ∧
    ∀ g, Fmap.find t.groups g = (Fmap.find s.groups g).map (fun x => x.runEnded (decide (g ∈ l))) := by
  induction l generalizing s with
  | nil => exact ⟨rfl, hr, fun g => by simp [Group.runEnded]⟩
  | cons k ks ih =>
    have hk := State.find_group_of_isSome (h k List.mem_cons_self)
    have hf : ∀ g, Fmap.find (s.modGroup k (fun x => { x with hrun := 0 })).groups g =
        (Fmap.find s.groups g).map (fun x => x.runEnded (decide (g = k))) := fun g => by
      change Fmap.find (Fmap.insert s.groups k _) g = _
      rw [Fmap.find_insert]
      by_cases hg : g = k
      · simp [hg, hk, Group.runEnded]
      · simp [hg, Group.runEnded]
    obtain ⟨h1, h2, h3⟩ := ih (s.modGroup k (fun x => { x with hrun := 0 }))
      (fun g hg => by rw [hf, Option.isSome_map]; exact h g (List.mem_cons_of_mem _ hg)) (Fmap.risingFrom_insert _ (Nat.zero_le _) hr)
    refine ⟨h1, h2, fun g => ?_⟩
    rw [List.foldl_cons, h3, hf, Option.map_map]
    congr 1
    funext x
    by_cases h1 : g = k <;> by_cases h2 : g ∈ ks <;> simp [Group.runEnded, h1, h2]

/-- Core `k`, with new weights and a new guard list at the end of clk `ck`, was `j` (R30, R33). -/
structure CoreStep (ck : Nat) (j k : Core) : Prop where
  rest : k = { j with guard := k.guard, weights := k.weights, cands := k.cands, issues := k.issues }
  few : k.guard.length ≤ 16
  kept : ¬ 64 ∣ ck → k.weights = j.weights ∧ k.cands = j.cands ∧ k.issues = j.issues

/-- The state `u` after the cores of `l` have their new weights and guard lists, from `t`. -/
structure Swept (l : List Nat) (t u : State) : Prop where
  world : u = { t with groups := u.groups, cores := u.cores }
  rising : Fmap.risingFrom 0 u.groups = true
  others : ∀ c, c ∉ l → u.core c = t.core c
  step : ∀ c ∈ l, CoreStep (t.die (dieOfCore c)).ck.toNat (t.core c) (u.core c)
  groups : ∀ g, Fmap.find u.groups g = (Fmap.find t.groups g).map (fun x =>
    x.runEnded (decide ((t.wg x.wg).core ∈ l) && t.resides (t.wg x.wg).core x && !(u.core (t.wg x.wg).core).guard.isEmpty))

/-- The core with its weights recomputed where the clk is a 64th one (R30). -/
theorem State.reweigh_eq (t : State) (c : Nat) : ∃ j, CoreStep (t.die (dieOfCore c)).ck.toNat (t.core c) { j with guard := [] } ∧
    (t.reweigh c).core c = j ∧ (∀ e, e ≠ c → (t.reweigh c).core e = t.core e) ∧
    t.reweigh c = { t with cores := (t.reweigh c).cores } := by
  unfold State.reweigh
  split
  · next h =>
    exact ⟨t.core c, ⟨rfl, by simp, fun _ => ⟨rfl, rfl, rfl⟩⟩, rfl, fun _ _ => rfl, rfl⟩
  · next h =>
    have hd : 64 ∣ (t.die (dieOfCore c)).ck.toNat := Nat.dvd_of_mod_eq_zero (by simpa using h)
    refine ⟨(t.core c).reweighed (t.weightsNow c), ⟨?_, by simp, fun hn => absurd hd hn⟩, Fmap.get_insert_same _ _ _ _,
      fun e he => Fmap.get_insert_ne _ _ _ he, rfl⟩
    unfold Core.reweighed
    split <;> rfl

theorem swept_one {t : State} (c : Nat) (h : Fmap.risingFrom 0 t.groups = true) : Swept [c] t ((t.reweigh c).guarded c) := by
  obtain ⟨j, hj, hc, he, hw⟩ := t.reweigh_eq c
  generalize hr : t.reweigh c = r at hc he hw
  have hgr : r.groups = t.groups := by rw [hw]
  have hwg : ∀ k, r.wg k = t.wg k := fun k => by rw [hw]; rfl
  generalize hl : (r.overdue c).take issueSlots = l
  let v := r.setCore c { j with guard := l }
  have hv : r.guarded c = if l.isEmpty then v else (v.residents c).foldl (fun t g => t.modGroup g (fun x => { x with hrun := 0 })) v := by
    unfold State.guarded
    rw [hl, hc]
  have hcore : v.core c = { j with guard := l } := Fmap.get_insert_same _ _ _ _
  have hothers : ∀ e, e ≠ c → v.core e = t.core e := fun e hn => (Fmap.get_insert_ne _ _ _ hn).trans (he e hn)
  have hstep : CoreStep (t.die (dieOfCore c)).ck.toNat (t.core c) { j with guard := l } := by
    obtain ⟨h1, -, h3⟩ := hj
    refine ⟨?_, by rw [← hl]; exact (List.length_take_le _ _), h3⟩
    have := congrArg (fun k : Core => { k with guard := l }) h1
    exact this
  have hvw : v = { t with cores := v.cores } := by
    change r.setCore c _ = _
    rw [hw]
    rfl
  have hvr : Fmap.risingFrom 0 v.groups = true := by rw [hvw]; exact h
  have hruns : ∃ u, r.guarded c = u ∧ u = { v with groups := u.groups } ∧ Fmap.risingFrom 0 u.groups = true ∧
      ∀ g, Fmap.find u.groups g = (Fmap.find v.groups g).map (fun x => x.runEnded (decide (g ∈ v.residents c) && !l.isEmpty)) := by
    refine ⟨_, rfl, ?_⟩
    rw [hv]
    by_cases hn : l.isEmpty = true
    · rw [if_pos hn]
      exact ⟨rfl, hvr, fun g => by simp [hn, Group.runEnded]⟩
    · rw [if_neg hn]
      simp only [hn, Bool.not_false, Bool.and_true]
      refine runs_foldl _ v (fun g hg => ?_) hvr
      obtain ⟨x, hx, -⟩ := (State.mem_residents hvr).1 hg
      simp [hx]
  obtain ⟨u, hu, huw, hur, hug⟩ := hruns
  have hucore : ∀ e, u.core e = v.core e := fun e => by rw [huw]; rfl
  have hvg : v.groups = t.groups := by rw [hvw]
  have hvwg : ∀ k, v.wg k = t.wg k := fun k => by rw [hvw]; rfl
  rw [hu]
  refine ⟨by rw [huw, hvw], hur, fun e hn => by rw [hucore, hothers e (by simpa using hn)], fun e hm => ?_, fun g => ?_⟩
  · obtain rfl : e = c := by simpa using hm
    rw [hucore, hcore]
    exact hstep
  · rw [hug, hvg]
    cases hx : Fmap.find t.groups g with
    | none => rfl
    | some x =>
      have hmem : decide (g ∈ v.residents c) = t.resides c x := by
        rw [Bool.eq_iff_iff, decide_eq_true_eq, State.mem_residents hvr, hvg, hx]
        simp [State.resides, hvwg]
      rw [Option.map_some, Option.map_some, hmem]
      by_cases hc : (t.wg x.wg).core = c
      · simp [hc, hucore, hcore]
      · simp [hc, State.resides]

theorem Swept.cons {c : Nat} {l : List Nat} {t u v : State} (hc : c ∉ l) (h1 : Swept [c] t u) (h2 : Swept l u v) :
    Swept (c :: l) t v := by
  obtain ⟨hw1, hr1, ho1, hs1, hg1⟩ := h1
  obtain ⟨hw2, hr2, ho2, hs2, hg2⟩ := h2
  have hwg : ∀ k, u.wg k = t.wg k := fun k => by rw [hw1]; rfl
  have hdie : ∀ k, u.die k = t.die k := fun k => by rw [hw1]; rfl
  have hcore : v.core c = u.core c := ho2 c hc
  refine ⟨?_, hr2, fun e he => ?_, fun e he => ?_, fun g => ?_⟩
  · rw [hw2, hw1]
  · obtain ⟨h1, h2⟩ := not_or.1 (fun h => he (List.mem_cons.2 h))
    rw [ho2 e h2, ho1 e (by simpa using h1)]
  · rcases List.mem_cons.1 he with rfl | ht
    · rw [hcore]
      exact hs1 _ (by simp)
    · have hn : e ≠ c := fun h => hc (h ▸ ht)
      rw [← hdie, ← ho1 e (by simpa using hn)]
      exact hs2 e ht
  · rw [hg2, hg1, Option.map_map]
    congr 1
    funext x
    have hres : u.resides (t.wg x.wg).core (x.runEnded
        (decide ((t.wg x.wg).core ∈ [c]) && t.resides (t.wg x.wg).core x && !(u.core (t.wg x.wg).core).guard.isEmpty)) =
        t.resides (t.wg x.wg).core x := by simp [State.resides, hwg]
    simp only [Function.comp_apply, Group.runEnded_runEnded, Group.runEnded_wg, hwg, hres]
    by_cases hx : (t.wg x.wg).core = c
    · simp [hx, hc, hcore]
    · simp [hx]

theorem swept_foldl (l : List Nat) (hl : l.Nodup) (t : State) (h : Fmap.risingFrom 0 t.groups = true) :
    Swept l t (l.foldl (fun u c => (u.reweigh c).guarded c) t) := by
  induction l generalizing t with
  | nil => exact ⟨rfl, h, fun _ _ => rfl, by simp, fun g => by simp [Group.runEnded]⟩
  | cons c cs ih =>
    obtain ⟨hc, hcs⟩ := List.nodup_cons.1 hl
    exact (swept_one c h).cons hc (ih hcs _ (swept_one c h).rising)

/-! ### One clk -/

/-- A group at the edge of a clk of a die that ticks: its latches and its run, and since when it is ready (R32, R33, R66). -/
def Group.atEdge (x : Group) (ready : Bool) (ck : Nat) : Group := if ready then x.endClk else { x.endClk with readySince := ck }

@[simp] theorem Group.endClk_wg (x : Group) : x.endClk.wg = x.wg := by unfold Group.endClk; split <;> rfl
@[simp] theorem Group.endClk_status (x : Group) : x.endClk.status = x.status := by unfold Group.endClk; split <;> rfl
@[simp] theorem Group.atEdge_wg (x : Group) (r : Bool) (n : Nat) : (x.atEdge r n).wg = x.wg := by cases r <;> simp [Group.atEdge]
@[simp] theorem Group.atEdge_status (x : Group) (r : Bool) (n : Nat) : (x.atEdge r n).status = x.status := by
  cases r <;> simp [Group.atEdge]

/-- The package at the edge of a clk, before the cores have their new weights and guard lists. -/
noncomputable def State.edge (s : State) : State := s.clockEdge.refreshed s.ticks

theorem State.edge_wg (s : State) (k : Nat) : s.edge.wg k = s.wg k := rfl

theorem State.edge_die (s : State) {d : Nat} (h : d < 4) :
    (s.edge.die d).ck = if s.ticks d = true then (s.die d).ck + 1 else (s.die d).ck := by
  have := Fmap.get_foldl_insert Die.reset s.ticks (fun x => { x with ck := x.ck + 1 }) (List.range 4) List.nodup_range s.dies d
  simp only [State.edge, State.refreshed, State.clockEdge, State.die] at this ⊢
  rw [this]
  by_cases ht : s.ticks d = true <;> simp [h, ht]

theorem State.edge_core (s : State) (c : Nat) :
    s.edge.core c = if s.ticks (dieOfCore c) = true then { s.core c with slots := 0 } else s.core c := by
  simp only [State.edge, State.refreshed, State.clockEdge, State.core, Fmap.get, Fmap.find_mapVals]
  cases Fmap.find s.cores c with
  | none => simp [Core.reset]
  | some k => simp

/-- Whether a clk ends for group `x`: it is live, and its die ticks. -/
def State.ticksFor (s : State) (x : Group) : Bool := s.ticks (dieOfCore (s.wg x.wg).core) && x.status = .live

theorem State.find_refreshed (s : State) (on : Nat → Bool) (g : Nat) : Fmap.find (s.refreshed on).groups g =
    (Fmap.find s.groups g).map (fun x => if (x.status = .live && on (s.dieOf g) && !s.ready g) = true then
      { x with readySince := (s.die (s.dieOf g)).ck.toNat } else x) := by
  simp only [State.refreshed, Fmap.find_mapVals]

theorem State.find_clockEdge (s : State) (g : Nat) : Fmap.find s.clockEdge.groups g =
    (Fmap.find s.groups g).map (fun x => if s.ticksFor x = true then x.endClk else x) := by
  simp only [State.clockEdge, Fmap.find_mapVals]
  rfl

theorem State.edge_groups (s : State) (g : Nat) : ∃ ready, Fmap.find s.edge.groups g = (Fmap.find s.groups g).map (fun x =>
    if s.ticksFor x = true then x.atEdge ready (s.edge.die (dieOfCore (s.wg x.wg).core)).ck.toNat else x) := by
  refine ⟨s.clockEdge.ready g, ?_⟩
  have hdie : ∀ d, s.edge.die d = s.clockEdge.die d := fun d => rfl
  simp only [hdie]
  rw [State.edge, State.find_refreshed, s.find_clockEdge]
  cases hx : Fmap.find s.groups g with
  | none => rfl
  | some x =>
    have hf := s.find_clockEdge g
    rw [hx, Option.map_some] at hf
    have hw : (if s.ticksFor x = true then x.endClk else x).wg = x.wg := by split <;> simp
    have hd : s.clockEdge.dieOf g = dieOfCore (s.wg x.wg).core := by
      rw [State.dieOf, State.coreOf, State.wgOf, State.group_of_find hf, hw]
      rfl
    rw [hd]
    by_cases ht : s.ticksFor x = true
    · obtain ⟨hon, hlive⟩ := Bool.and_eq_true_iff.1 ht
      cases hr : s.clockEdge.ready g <;> simp [ht, hon, of_decide_eq_true hlive, Group.atEdge]
    · have hno : (x.status = .live && s.ticks (dieOfCore (s.wg x.wg).core)) = false := by
        rw [Bool.and_comm]
        exact Bool.not_eq_true _ ▸ ht
      simp only [Option.map_some, ht, Bool.false_eq_true, if_false, hno, Bool.false_and]

theorem State.risingFrom_edge {s : State} (h : Fmap.risingFrom 0 s.groups = true) : Fmap.risingFrom 0 s.edge.groups = true := by
  simp only [State.edge, State.refreshed, State.clockEdge]
  exact Fmap.risingFrom_mapVals _ (Fmap.risingFrom_mapVals _ h)

/-- The cores that have new weights and guard lists at the end of a clk. -/
noncomputable def State.sweep (s : State) : List Nat := s.edge.liveCores.filter (fun c => s.ticks (dieOfCore c))

theorem distinct_nodup (l : List Nat) : (distinct l).Nodup ∧ ∀ a, a ∈ distinct l ↔ a ∈ l := by
  induction l with
  | nil => exact ⟨List.nodup_nil, fun _ => Iff.rfl⟩
  | cons b t ih =>
    unfold distinct
    by_cases hb : b ∈ t
    · rw [if_pos (by simpa using hb)]
      exact ⟨ih.1, fun a => by rw [ih.2, List.mem_cons]; exact ⟨.inr, fun h => h.elim (fun h => h ▸ hb) id⟩⟩
    · rw [if_neg (by simpa using hb)]
      exact ⟨List.nodup_cons.2 ⟨by rwa [ih.2], ih.1⟩, fun a => by rw [List.mem_cons, List.mem_cons, ih.2]⟩

theorem State.swept_clk {s : State} (h : Fmap.risingFrom 0 s.groups = true) : Swept s.sweep s.edge s.clk :=
  swept_foldl _ ((distinct_nodup _).1.filter _) _ (State.risingFrom_edge h)

theorem State.edge_coreOf (s : State) (g : Nat) : s.edge.coreOf g = s.coreOf g := by
  obtain ⟨r, hr⟩ := s.edge_groups g
  have : (s.edge.group g).wg = (s.group g).wg := by
    rw [State.group, State.group, Fmap.get, Fmap.get, hr]
    cases Fmap.find s.groups g with
    | none => rfl
    | some x => by_cases ht : s.ticksFor x = true <;> simp [ht]
  rw [State.coreOf, State.wgOf, this]
  rfl

theorem State.mem_sweep {s : State} {c : Nat} : c ∈ s.sweep ↔
    s.ticks (dieOfCore c) = true ∧ ∃ p ∈ s.edge.groups, p.2.status = .live ∧ s.coreOf p.1 = c := by
  simp only [State.sweep, List.mem_filter, State.liveCores, (distinct_nodup _).2, Fmap.keys, List.map_map, List.mem_map,
    Function.comp_apply, State.mem_groupsWhere, State.edge_coreOf, decide_eq_true_eq]
  exact ⟨fun ⟨⟨p, hp, hc⟩, ht⟩ => ⟨ht, p, hp.1, hp.2, hc⟩, fun ⟨ht, p, hp, hl, hc⟩ => ⟨⟨p, ⟨hp, hl⟩, hc⟩, ht⟩⟩

/-- The core of a live group whose die ticks is swept. -/
theorem State.mem_sweep_of_live {s : State} {g : Nat} {x : Group} (hx : Fmap.find s.groups g = some x)
    (hl : x.status = .live) (ht : s.ticks (s.dieOf g) = true) : s.coreOf g ∈ s.sweep := by
  obtain ⟨r, hr⟩ := s.edge_groups g
  rw [hx] at hr
  refine State.mem_sweep.2 ⟨ht, _, Fmap.mem_of_find hr, ?_, rfl⟩
  by_cases h : s.ticksFor x = true <;> simp [h, hl]

/-- What a clk does to each group that is listed. -/
theorem State.clk_group {s : State} (h : Fmap.risingFrom 0 s.groups = true) {g : Nat} {x : Group} (hx : Fmap.find s.groups g = some x) :
    ∃ ready, s.clk.group g =
      if s.ticksFor x = true then
        (x.atEdge ready (s.clk.die (s.dieOf g)).ck.toNat).runEnded
          ((s.wgOf g).state.onCore && !(s.clk.core (s.coreOf g)).guard.isEmpty)
      else x := by
  obtain ⟨r, hr⟩ := s.edge_groups g
  obtain ⟨hw, -, -, -, hg⟩ := State.swept_clk h
  have hme := State.group_of_find hx
  have hdie : ∀ d, s.clk.die d = s.edge.die d := fun d => by rw [hw]; rfl
  refine ⟨r, ?_⟩
  have hf := hg g
  rw [hr, hx, Option.map_some, Option.map_some] at hf
  rw [State.group_of_find hf]
  simp only [State.dieOf, State.coreOf, State.wgOf, hme, hdie, State.edge_wg, State.resides]
  by_cases ht : s.ticksFor x = true
  · obtain ⟨hon, hlive⟩ := Bool.and_eq_true_iff.1 ht
    have hm := State.mem_sweep_of_live hx (of_decide_eq_true hlive) (by rw [State.dieOf, State.coreOf, State.wgOf, hme]; exact hon)
    rw [State.coreOf, State.wgOf, hme] at hm
    simp [ht, hm, of_decide_eq_true hlive]
  · have : ((s.wg x.wg).core ∈ s.sweep) → x.status ≠ .live := fun hm hl =>
      ht (Bool.and_eq_true_iff.2 ⟨(State.mem_sweep.1 hm).1, decide_eq_true hl⟩)
    by_cases hm : (s.wg x.wg).core ∈ s.sweep
    · simp [ht, this hm, Group.runEnded]
    · simp [ht, hm, Group.runEnded]

theorem State.clk_core {s : State} (h : Fmap.risingFrom 0 s.groups = true) (c : Nat) :
    (s.ticks (dieOfCore c) = true → 
      CoreStep (s.clk.die (dieOfCore c)).ck.toNat { s.core c with slots := 0 } (s.clk.core c) ∨
      s.clk.core c = { s.core c with slots := 0 } ∧ c ∉ s.sweep) ∧
    (s.ticks (dieOfCore c) = false → s.clk.core c = s.core c) := by
  obtain ⟨hw, -, ho, hs, -⟩ := State.swept_clk h
  have hdie : ∀ d, s.clk.die d = s.edge.die d := fun d => by rw [hw]; rfl
  have he := s.edge_core c
  refine ⟨fun ht => ?_, fun ht => ?_⟩
  · rw [if_pos ht] at he
    by_cases hc : c ∈ s.sweep
    · exact .inl (by rw [hdie, ← he]; exact hs c hc)
    · exact .inr ⟨by rw [ho c hc, he], hc⟩
  · rw [if_neg (by simp [ht])] at he
    rw [ho c (fun hc => by simp [(State.mem_sweep.1 hc).1] at ht), he]

/-! ### Results that arrive -/

theorem lands_of_land {i : Instr} {s : State} {op : Nat} {p : Pend} {k : PendKind} (he : exec i s = s.land op k)
    (hp : Fmap.find s.pend op = some p) (hk : p.kind = k) : Lands i s op := by
  refine ⟨{ s with pend := Fmap.erase s.pend op }, ?_, rfl, ?_, fun j hj => ?_⟩
  · simp only [he, State.land, hp, hk, if_true]
  · simp [Fmap.find_erase]
  · simp [Fmap.find_erase, hj]

/-- A name that no future is bound to is busy while its entry awaits a result (R57). -/
theorem State.nameBusyS_iff {s : State} {g n : Nat} {e : Entry} (he : Fmap.find (s.group g).s n = some e) (hf : e.fut = none) :
    s.nameBusyS g n true = true ↔ ∃ p ∈ s.pend, p.2.core = s.coreOf g ∧ e.id ∈ p.2.entries := by
  simp [State.nameBusyS, he, hf, State.entryBusy]

/-- What a clk leaves of a group for which it ends: its latches, its run, and since when it is ready. -/
theorem atClk {x y : Group} {r on : Bool} {n : Nat} {l : List Nat} (hy : y = (x.atEdge r n).runEnded (on && !l.isEmpty)) :
    y = { (if x.issued then { x with issued := false } else x.dropLatches) with hrun := y.hrun, readySince := y.readySince } ∧
    (y.hrun = 0 ∨ x.issued = true ∧ y.hrun = x.hrun) ∧ (x.issued = true → l = [] → y.hrun = x.hrun) ∧
    (on = true → l ≠ [] → y.hrun = 0) ∧ (y.readySince = x.readySince ∨ y.readySince = n) := by
  have hx : x.endClk = { (if x.issued then { x with issued := false } else x.dropLatches) with hrun := if x.issued then x.hrun else 0 } := by
    unfold Group.endClk
    split <;> rfl
  have hyx : y = { x.endClk with hrun := if on && !l.isEmpty then 0 else x.endClk.hrun
                                 readySince := if r then x.readySince else n } := by
    subst hy
    cases hi : x.issued <;> cases r <;> cases hc : (on && !l.isEmpty) <;> simp [Group.atEdge, Group.runEnded, hx, hi, Group.dropLatches]
  have hrun : y.hrun = if on && !l.isEmpty then 0 else if x.issued then x.hrun else 0 := by rw [hyx, hx]
  refine ⟨by rw [hyx, hx], ?_, fun hi hl => ?_, fun ho hl => ?_, ?_⟩
  · rw [hrun]
    cases on && !l.isEmpty <;> cases x.issued <;> simp
  · simp [hrun, hi, hl]
  · simp [hrun, ho, hl]
  · rw [hyx]
    cases r <;> simp

/-- Settles O45: a clk is the edge of every die that ticks, and then a sweep of the cores with live groups. -/
theorem clockAndResults : Obligations.ClockAndResults := by
  unfold Obligations.ClockAndResults
  refine ⟨fun s h => ?_, ⟨?_, fun s op => ⟨_, rfl, rfl, by simp [Fmap.find_erase], fun k hk => by simp [Fmap.find_erase, hk]⟩,
    fun s g n e he hf => State.nameBusyS_iff he hf⟩⟩
  · obtain ⟨hw, -, -, -, -⟩ := State.swept_clk h
    have hdie : ∀ d, s.clk.die d = s.edge.die d := fun d => by rw [hw]; rfl
    refine ⟨fun d hd => by rw [hdie, s.edge_die hd], fun g x hx hl ht => ?_, fun g x hx hn => ?_, fun c => ⟨fun ht => ?_, (State.clk_core h c).2⟩,
      ?_, ?_, fun d hd => ?_⟩
    · obtain ⟨r, hy⟩ := State.clk_group h hx
      have hme := State.group_of_find hx
      have hfor : s.ticksFor x = true := by
        rw [State.ticksFor, hl, ← hme]
        exact Bool.and_eq_true_iff.2 ⟨ht, rfl⟩
      rw [if_pos hfor] at hy
      exact atClk hy
    · obtain ⟨r, hy⟩ := State.clk_group h hx
      have hme := State.group_of_find hx
      rw [hy, if_neg]
      intro hfor
      obtain ⟨hon, hlive⟩ := Bool.and_eq_true_iff.1 hfor
      rw [State.dieOf, State.coreOf, State.wgOf, hme, hon] at hn
      exact hn.elim (fun h => h (of_decide_eq_true hlive)) (fun h => Bool.noConfusion h)
    · rcases (State.clk_core h c).1 ht with ⟨h1, h2, h3⟩ | ⟨h1, h2⟩
      · exact ⟨h1, fun _ => h2, h3⟩
      · rw [h1]
        refine ⟨rfl, fun ⟨g, x, hx, hl, hc⟩ => absurd (hc ▸ State.mem_sweep_of_live hx hl ?_) h2, fun _ => ⟨rfl, rfl, rfl⟩⟩
        rw [State.dieOf, hc]
        exact ht
    · rw [hw]
      rfl
    · rw [hw]
      simp only [State.edge, State.refreshed, State.clockEdge]
      split <;> rfl
    · rcases hd with hd | hd | hd <;> simp [State.ticks, State.dieRuns, hd]
  · simp only [List.forall_mem_cons]
    exact ⟨fun s op p hp hk => lands_of_land rfl hp hk, fun s op p hp hk => lands_of_land rfl hp hk,
      fun s op p hp hk => lands_of_land rfl hp hk, fun s op p hp hk => lands_of_land rfl hp hk, by simp⟩

end Sys2Proof.Machine
end

section
/-! PROOFS. One step of the package (R29, R30, R93, R96, R129, R146, R302). -/

namespace Sys2Proof.Machine

open Sys2Proof.Claims

/-! ### What a group goes on with -/

/-- The word at an address, as the decoder reads its four bytes (R3, R129). -/
theorem decodeBytes_bytesAt (s : State) (pa : Nat) : decodeBytes (s.bytesAt pa 4) = decodeWord (BitVec.ofNat 32 (s.natAt pa 4)) := by
  change decodeWord _ = decodeWord (BitVec.ofNat 32 (leNat [s.byteAt (pa + 0), s.byteAt (pa + 1), s.byteAt (pa + 2), s.byteAt (pa + 3)]))
  congr 2
  simp only [leNat]
  omega

section
variable {q : State} {g : Nat}

theorem attempt_of_due (h : (q.group g).asyncDue = true) : q.attempt g = .next (q.takeAsync g) := by
  rw [State.attempt, if_pos h]

theorem attempt_of_word {pa cp : Nat} {mir res : Bool} (h : (q.group g).asyncDue = false)
    (ht : q.target (q.group g).wg (q.group g).pc .fetch = .memory pa cp mir res) : q.attempt g =
    match decodeWord (BitVec.ofNat 32 (q.natAt pa 4)) with
    | .ok i => exec i q
    | .error _ => .next q.illegalWord := by
  rw [State.attempt, if_neg (by simp [h])]
  simp only [State.fetch, ht, runBytes, decodeBytes_bytesAt] <;> rfl

theorem attempt_of_miss (h : (q.group g).asyncDue = false) (ht : q.target (q.group g).wg (q.group g).pc .fetch = .miss) :
    q.attempt g = .next ((q.askWalk g (q.group g).pc .fetch).modGroup g (fun y => { y with stall := some .walk })) := by
  rw [State.attempt, if_neg (by simp [h])]
  simp only [State.fetch, ht]

theorem attempt_of_fault {c : Cause} {res : Bool} (h : (q.group g).asyncDue = false)
    (ht : q.target (q.group g).wg (q.group g).pc .fetch = .fault c res) :
    q.attempt g = .next (q.translationFault g c .fetch (q.group g).pc) := by
  rw [State.attempt, if_neg (by simp [h])]
  simp only [State.fetch, ht]

/-- A group that may go on does so in the state given, as the group that issues. -/
theorem cur_of_admitted {s : State} (h : s.admitted g = some q) : q.cur = s.cur := by
  unfold State.admitted at h
  split at h
  · cases h
  · split at h
    · cases h; rfl
    · split at h
      · cases h; rfl
      · split at h
        · cases h; rfl
        · cases h

/-- What comes of the choice of a group that may go on. -/
theorem step_of_issue {s : State} {rest : List Choice} {t : State} (ha : s.agenda = .issue g :: rest)
    (hq : ({ s with agenda := rest, cur := g } : State).admitted g = some q) (ht : q.attempt g = .next t) :
    step s = .next ((t.settleWait g).counted (s.coreOf g) g) := by
  simp only [step, ha, runChoice, issueStep, hq, ht, afterIssue] <;> rfl

end

/-- The issue of a group counted (R30, R32, R33). -/
theorem counted_of_none {t : State} {c g : Nat} (h : Fmap.find t.groups g = none) : t.counted c g = t.slotUsed c g := by
  simp only [State.counted, h]

/-- A group that has issued in this clk, ready anew since clk `n` (R30, R32). -/
def Group.hasIssued (x : Group) (n : Nat) : Group :=
  { x with issued := true, poolHold := none, readySince := n, hrun := if x.wait.isSome then 0 else x.hrun }

theorem counted_of_issued {t : State} {c g : Nat} {x : Group} (h : Fmap.find t.groups g = some x) (hs : x.stall = none) : ∃ n,
    t.counted c g = (t.setGroup g (x.hasIssued n)).slotUsed c g :=
  ⟨max x.readySince ((t.die (dieOfCore c)).ck.toNat + 1), by
    simp only [State.counted, h, hs, Option.isSome_none, Bool.false_eq_true, if_false, Group.hasIssued]⟩

theorem counted_of_stalled {t : State} {c g : Nat} {x : Group} (h : Fmap.find t.groups g = some x) (hs : x.stall ≠ none) : ∃ n,
    t.counted c g = t.setGroup g { x with hrun := 0, readySince := n } :=
  ⟨(t.die (dieOfCore c)).ck.toNat + 1, by simp only [State.counted, h, Option.isSome_iff_ne_none.2 hs, if_true]⟩

/-- One slot of a core used (R30). -/
theorem slotUsed_core (t : State) (c g : Nat) :
    (t.slotUsed c g).core c = { t.core c with slots := (t.core c).slots + 1, guard := (t.core c).guard.filter (fun i => i != g) } ∧
    ∀ e, e ≠ c → (t.slotUsed c g).core e = t.core e :=
  ⟨Fmap.get_insert_same _ _ _ _, fun _ he => Fmap.get_insert_ne _ _ _ he⟩

theorem counted_frame (t : State) (c g : Nat) :
    t.counted c g = { t with groups := (t.counted c g).groups, cores := (t.counted c g).cores } ∧
    ∀ h, h ≠ g → (t.counted c g).group h = t.group h := by
  cases hx : Fmap.find t.groups g with
  | none =>
    rw [counted_of_none hx]
    exact ⟨rfl, fun _ _ => rfl⟩
  | some x =>
    by_cases hs : x.stall = none
    · obtain ⟨n, hn⟩ := counted_of_issued (c := c) hx hs
      rw [hn]
      exact ⟨rfl, fun h hh => Fmap.get_insert_ne _ _ _ hh⟩
    · obtain ⟨n, hn⟩ := counted_of_stalled (c := c) hx hs
      rw [hn]
      exact ⟨rfl, fun h hh => Fmap.get_insert_ne _ _ _ hh⟩

/-! ### The choices of the agenda -/

theorem step_of_event {s : State} {i : Instr} {rest : List Choice} (ha : s.agenda = .event i :: rest) (hw : i.hasWord = false)
    (hi : wf i = true) (hl : ({ s with agenda := rest } : State).lets i = true) : step s = exec i { s with agenda := rest } := by
  simp only [step, ha, runChoice, eventMay, hw, hi, hl, Bool.not_false, Bool.and_self, if_true]

/-- Where nothing is chosen, or a clk, one passes. -/
theorem step_of_tick {s : State} (h : s.agenda = [] ∨ s.agenda.head? = some .clk) : step s = tick s { s with agenda := s.agenda.tail } := by
  cases ha : s.agenda with
  | nil =>
    have hs : s = { s with agenda := [] } := by rw [← ha]
    simp only [step, ha, List.tail_nil]
    rw [← hs]
  | cons c rest =>
    obtain rfl : c = .clk := by simpa [ha] using h
    simp only [step, ha, runChoice, List.tail_cons]

theorem leaveL1_only (s : State) (c l : Nat) : SameButL1 s (s.leaveL1 c l) ∧ s.leaveL1 c l = { s with cores := (s.leaveL1 c l).cores } := by
  unfold State.leaveL1
  split
  · refine ⟨fun e => ?_, rfl⟩
    by_cases he : e = c
    · rw [he, State.eraseL1, State.core, State.setCore, Fmap.get_insert_same]
    · rw [State.eraseL1, State.core, State.setCore, Fmap.get_insert_ne _ _ _ he]
      rfl
  · exact ⟨fun _ => rfl, rfl⟩

/-- Settles O38: `step` is the choice at the head of the agenda, and an issue is the word that the program counter leads to. -/
theorem stepRunsTheDecodedInstruction : Obligations.StepRunsTheDecodedInstruction := by
  unfold Obligations.StepRunsTheDecodedInstruction
  refine ⟨fun s g rest ha => ⟨fun hq => ?_, fun q hq => ⟨fun hd => step_of_issue ha hq (attempt_of_due hd), fun hd => ⟨fun pa cp mir res ht => ?_,
    fun ht => step_of_issue ha hq (attempt_of_miss hd ht), fun c res ht => step_of_issue ha hq (attempt_of_fault hd ht)⟩⟩⟩,
    fun s i rest ha hw hi hl => step_of_event ha hw hi hl, fun s hs => ⟨fun hm => ?_, fun g hm => ?_⟩, fun s c l rest ha => ?_, fun t c g => ?_⟩
  · simp only [step, ha, runChoice, issueStep, hq]
  · have hword := attempt_of_word hd ht
    refine ⟨fun i t hi he => step_of_issue ha hq ?_, fun e he => step_of_issue ha hq ?_⟩
    · simpa only [hi, he] using hword
    · rw [he, State.illegalWord, cur_of_admitted hq] at hword
      exact hword
  · rw [step_of_tick hs, tick, hm]
  · rw [step_of_tick hs, tick, hm]
    simp only [step, runChoice]
  · by_cases hp : s.root.power = .d0
    · obtain ⟨h1, h2⟩ := leaveL1_only { s with agenda := rest } c l
      exact ⟨_, by simp only [step, ha, runChoice, hp, if_true], h1, h2⟩
    · exact ⟨{ s with agenda := rest }, by simp only [step, ha, runChoice, hp, if_false], fun _ => rfl, rfl⟩
  · obtain ⟨hw, ho⟩ := counted_frame t c g
    obtain ⟨hc, hcs⟩ := slotUsed_core t c g
    refine ⟨hw, ho, fun hn => ?_, fun x hx => ⟨fun hs => ?_, fun hs => ?_⟩⟩
    · rw [counted_of_none hn]
      exact ⟨rfl, hc, hcs⟩
    · obtain ⟨n, hn⟩ := counted_of_issued (c := c) hx hs
      obtain ⟨hc, hcs⟩ := slotUsed_core (t.setGroup g (x.hasIssued n)) c g
      have hg : (t.counted c g).group g = x.hasIssued n := by
        rw [hn]
        exact Fmap.get_insert_same _ _ _ _
      exact ⟨by rw [hg]; rfl, by rw [hn]; exact hc, fun e he => by rw [hn]; exact hcs e he⟩
    · obtain ⟨n, hn⟩ := counted_of_stalled (c := c) hx hs
      have hg : (t.counted c g).group g = { x with hrun := 0, readySince := n } := by
        rw [hn]
        exact Fmap.get_insert_same _ _ _ _
      exact ⟨by rw [hg], by rw [hn]; rfl⟩

end Sys2Proof.Machine
end

section
/-! PROOFS. EXIT where a group is listed twice: it finds its own second entry among the waiters that its exit orphans (R28, R188). -/

namespace Sys2Proof.Machine

open Sys2Proof.Claims

/-- A package that lists group 0 twice: first as it issues, and again as it waits at the block-form word at location 0, which names
block 0. -/
def State.doubled : State :=
  { State.reset.storeCells (cellsOf 0 [1]) with
      groups := [(0, Group.fresh), (0, { Group.fresh with wait := some ⟨.barrier 0 1 true false, 0, 0, []⟩ })]
      wgs := [(0, { Wg.none with state := .resident })] }

theorem ready_exit_doubled : Ready .exit State.doubled := by
  constructor <;> decide +kernel

/-- The exited group has the orphan's trap pending. -/
theorem pendTraps_exit_doubled : ∀ t, exec .exit State.doubled = .next t → (t.group 0).pendTraps = [.barrierOrphan] := by
  intro t h
  have he : exec .exit State.doubled = .next ((State.doubled.seen .exit).exitGroup 0) :=
    (show execExit State.doubled = issue _ _ _ from rfl).trans (issue_left ready_exit_doubled (if_neg (by decide +kernel)))
  rw [he] at h
  cases h
  decide +kernel

/-- Refutes O12: in `State.doubled` the group that exits is listed again as a waiter at a barrier that names its lanes, so it has
BARRIER_ORPHAN pending after its exit. -/
theorem not_exit : ¬ Obligations.Exit := by
  intro h
  obtain ⟨t, he, -, hg, -⟩ := h.2 _ ready_exit_doubled rfl (by decide)
  have hp := pendTraps_exit_doubled t he
  rw [show (0 : Nat) = State.doubled.cur from rfl, hg] at hp
  exact absurd hp (by decide)

end Sys2Proof.Machine
end

section
/-! PROOFS. GSPLIT (R18, R19, R23, R173): an instruction that reads no register, the children of a group, and the split. -/

namespace Sys2Proof

/-- The value that a map holds, written again. -/
theorem Fmap.insert_of_find {α : Type} {m : Fmap α} {b k : Nat} {v : α} (h : Fmap.risingFrom b m = true) (hf : Fmap.find m k = some v) :
    Fmap.insert m k v = m := by
  induction m generalizing b with
  | nil => cases hf
  | cons p t ih =>
    simp only [Fmap.risingFrom, Bool.and_eq_true, decide_eq_true_eq] at h
    rw [Fmap.find] at hf
    by_cases hk : p.1 = k
    · rw [if_pos hk] at hf
      obtain rfl : p.2 = v := by simpa using hf
      rw [Fmap.insert, if_neg (by omega), if_pos hk.symm, ← hk]
    · rw [if_neg hk] at hf
      have := Fmap.le_of_mem h.2 (Fmap.mem_of_find hf)
      rw [Fmap.insert, if_neg (by simp at this; omega), if_neg (Ne.symm hk), ih h.2 hf]

/-- What a map finds once its keys have been renumbered by `f`, which sends `k'` and nothing else to `k`. -/
theorem Fmap.find_filterMap {α : Type} (m : Fmap α) (f : Nat → Option Nat) {k k' : Nat} (hk : f k' = some k)
    (hu : ∀ a, f a = some k → a = k') : Fmap.find (m.filterMap (fun p => (f p.1).map (fun j => (j, p.2)))) k = Fmap.find m k' := by
  induction m with
  | nil => rfl
  | cons p t ih =>
    by_cases hp : p.1 = k'
    · rw [List.filterMap_cons, hp, hk, Fmap.find, if_pos hp]
      exact if_pos rfl
    · rw [List.filterMap_cons, Fmap.find, if_neg hp]
      cases hf : f p.1 with
      | none => exact ih
      | some j =>
        have hj : j ≠ k := fun h => hp (hu _ (h ▸ hf))
        exact (if_neg hj).trans ih

end Sys2Proof

namespace Sys2Proof.Machine

open Sys2Proof.Claims

/-! ### Instructions that read no register -/

section
variable {i : Instr} (s : State) (h : (Instr.info i).srcs = [])
include h

theorem State.seen_of_no_srcs : s.seen i = s.setGroup s.cur s.me := by
  have hr : (Instr.info i).reads s.me = [] := by
    rw [Info.reads, h]
    split <;> rfl
  change s.setGroup s.cur (((((Instr.info i).reads s.me).filter _)).foldl _ s.me) = _
  rw [hr]
  rfl

theorem State.reader_of_no_srcs : s.reader i = s.me := by
  rw [State.reader, State.seen_of_no_srcs s h]
  exact State.group_setGroup_same _ _ _

theorem State.seen_group_of_no_srcs (g : Nat) : (s.seen i).group g = s.group g := by
  by_cases hg : g = s.cur
  · rw [hg]
    exact State.reader_of_no_srcs s h
  · exact s.seen_group_ne i hg

theorem State.seen_of_listed (hl : Listed s) : s.seen i = s := by
  rw [State.seen_of_no_srcs s h, State.setGroup, Fmap.insert_of_find hl.1 (find_me_of_listed hl)]

theorem Group.lastReads_of_no_srcs (x : Group) : x.lastReads (Instr.info i) = [] := by
  rw [Group.lastReads, h]
  cases x.hlr.head? <;> rfl

end

/-! ### The status -/

theorem State.futurePending_congr {s t : State} {x y : Group} (he : t.engs = s.engs) (hb : ∀ g, (t.group g).base = (s.group g).base)
    (hx : y.wg = x.wg ∧ y.base = x.base) : t.futurePending y = s.futurePending x := by
  simp only [State.futurePending, he, hb, hx.1, hx.2]

/-- Code 7 of the table of R23. -/
theorem busyFutures_iff (s : State) (x : Group) :
    s.busyFutures x = true ↔ s.futurePending x = true ∨ x.batchOpen = true ∨ x.batches ≠ [] := by
  simp [State.busyFutures, or_assoc]

theorem splitCode_eq (s : State) (x : Group) (n : Nat) : s.splitCode x n = splitStatus s x n := by
  simp only [State.splitCode, splitStatus, Option.isSome_iff_ne_none, busyFutures_iff]

/-! ### A status that is written as the instruction ends -/

/-- The issuing group after a status has been written to register `d`, its latches being dropped. -/
def Group.told (x : Group) (i : Instr) (d : BitVec 6) (id : Nat) (code : Word) : Group :=
  { (x.writeS d.toNat code id none).dropLatches.completed (Instr.info i).word (x.execMask (Instr.info i).pred) (nextPc x.pc) with hlr := [] }

theorem Group.told_ran {i : Instr} (h : (Instr.info i).srcs = []) (x : Group) (d : BitVec 6) (id : Nat) (code : Word) :
    Ran i x x.dropLatches (x.told i d id code) (nextPc x.pc) true { s := [d.toNat] } ∧ (x.told i d id code).readS d.toNat = code := by
  have he : Effect x x.dropLatches (x.writeS d.toNat code id none).dropLatches { s := [d.toNat] } := by
    refine ⟨rfl, rfl, rfl, rfl, fun n hn => ?_, fun _ _ => rfl, fun _ _ => rfl, fun _ => rfl, fun _ => rfl, fun _ => rfl, rfl⟩
    exact (Group.find_writeS x d.toNat n code id none).trans (if_neg (by simpa using hn))
  constructor
  · have hr := he.ran_jump (i := i) (nextPc x.pc)
    rw [Group.lastReads_of_no_srcs h] at hr
    exact hr
  · exact (Group.readS_writeS x d.toNat d.toNat code id none).trans (if_pos rfl)

/-! ### The children of a group -/

/-- A bit of a mask cut out of another. -/
theorem getLsbD_sliceMask (m : Mask) {lo n l : Nat} (hl : l < n) (h : lo + n ≤ 128) : (sliceMask m lo n).getLsbD l = m.getLsbD (lo + l) := by
  have hf : (fullMask n).getLsbD l = true := by
    rw [fullMask, BitVec.getLsbD_ofNat, Nat.testBit_two_pow_sub_one]
    simp [hl, show l < 128 by omega]
  simp [sliceMask, hf]

theorem childKey_of_quarter {lo n r l : Nat} (hlo : lo % 8 = 0) (hn : n % 8 = 0) (hl : l < n) (h : lo + n ≤ 128) :
    childKey lo n (vkey r ((lo + l) / 8)) = some (vkey r (l / 8)) := by
  unfold childKey vkey
  rw [if_pos (by simp only [Bool.and_eq_true, decide_eq_true_eq]; omega)]
  congr 1
  omega

theorem childKey_inj {lo n a b k : Nat} (ha : childKey lo n a = some k) (hb : childKey lo n b = some k) : a = b := by
  unfold childKey at ha hb
  split at ha
  · split at hb
    · next h1 h2 =>
      simp only [Bool.and_eq_true, decide_eq_true_eq, Option.some.injEq] at h1 h2 ha hb
      omega
    · cases hb
  · cases ha

/-- The lane of a child that lane `a` of its parent becomes. -/
def childLane (lo n a : Nat) : Option Nat := if lo ≤ a ∧ a < lo + n then some (a - lo) else none

theorem Group.child_of (x : Group) {j n : Nat} (hn : n % 8 = 0) (h : j * n + n ≤ 128) (since : Nat) :
    ChildOf x { x.child j n with readySince := since } (j * n) n := by
  have hlo : j * n % 8 = 0 := by rw [Nat.mul_mod, hn]; simp
  refine ⟨fun r l hl => ?_, fun k l hk hl => ?_, fun l hl => ?_, ⟨by simp [Group.child], fun k e he => ?_⟩, rfl⟩
  · have := Fmap.find_filterMap x.v (childKey (j * n) n) (childKey_of_quarter (r := r) hlo hn hl h)
      (fun a ha => childKey_inj ha (childKey_of_quarter hlo hn hl h))
    have hm : (j * n + l) % 8 = l % 8 := by omega
    simp only [Group.readV, Group.child, this, hm]
  · simp only [Group.mask, hk, if_false, Group.child, Fmap.get, Fmap.find_mapVals]
    cases Fmap.find x.m k with
    | none => simp
    | some m => exact getLsbD_sliceMask m hl h
  · have := Fmap.find_filterMap x.flags (childLane (j * n) n) (k := l) (k' := j * n + l) (by simp [childLane, hl])
      (fun a ha => by simp only [childLane, Option.ite_none_right_eq_some, Option.some.injEq] at ha; omega)
    rw [Group.flag, Group.flag, Fmap.get, Fmap.get, ← this]
    congr 2
    refine List.filterMap_congr fun p _ => ?_
    unfold childLane
    split <;> simp_all
  · refine ⟨{ e with mask := sliceMask e.mask (j * n) n }, by simp [Group.child, he], rfl, rfl, fun l hl => getLsbD_sliceMask _ hl h⟩

/-! ### The split -/

theorem State.copyStores_of_none {s : State} {g : Nat} (c : Nat) (h : s.storesOut g = false) : s.copyStores g c = s := by
  have : s.stores.filter (fun p => p.2.g = g) = [] := by
    rw [List.filter_eq_nil_iff]
    exact fun p hp => by simpa using List.any_eq_false.1 h p hp
  rw [State.copyStores, this]
  rfl

theorem Fmap.mem_insert {α : Type} {m : Fmap α} {k : Nat} {v : α} {p : Nat × α} (h : p ∈ Fmap.insert m k v) : p ∈ m ∨ p = (k, v) := by
  induction m with
  | nil => exact .inr (List.mem_singleton.1 h)
  | cons q t ih =>
    rw [Fmap.insert] at h
    split at h
    · exact (List.mem_cons.1 h).elim .inr .inl
    · split at h
      · exact (List.mem_cons.1 h).elim .inr (fun h => .inl (List.mem_cons_of_mem _ h))
      · rcases List.mem_cons.1 h with rfl | h
        · exact .inl List.mem_cons_self
        · exact (ih h).imp (List.mem_cons_of_mem _) id

theorem foldl_of_fixed {α β : Type} {f : β → α → β} {l : List α} (h : ∀ p ∈ l, ∀ t, f t p = t) (t : β) : l.foldl f t = t := by
  induction l with
  | nil => rfl
  | cons p ps ih =>
    rw [List.foldl_cons, h p List.mem_cons_self]
    exact ih fun q hq => h q (List.mem_cons_of_mem _ hq)

/-- Where no group waits in a rendezvous, none is turned away from one. -/
theorem State.recheckAlign_of_none {s : State} (k : Nat) (h : ∀ p ∈ s.groups, p.2.rendezvous = none) : s.recheckAlign k = s := by
  refine foldl_of_fixed (fun p hp t => ?_) s
  have hp := h p (State.mem_groupsWhere.1 hp).1
  split
  · next hw => simp [Group.rendezvous, hw] at hp
  · next hw => simp [Group.rendezvous, hw] at hp
  · rfl

/-- Child `j` of a group split into width `n`, ready since clk `since`. -/
def Group.childSince (x : Group) (n since j : Nat) : Group := { x.child j n with readySince := since }

/-- The state `u` once the children of group `x` but for child 0 have their numbers, `m` of them from `t.nextId` on. -/
structure Spawned (t : State) (x : Group) (n since m : Nat) (u : State) : Prop where
  world : u = { t with groups := u.groups, nextId := t.nextId + m }
  child : ∀ j, j < m → u.group (t.nextId + j) = x.childSince n since (j + 1)
  others : ∀ h, h < t.nextId ∨ t.nextId + m ≤ h → u.group h = t.group h
  listed : ∀ p ∈ u.groups, p ∈ t.groups ∨ ∃ j, p.2 = x.childSince n since j

theorem spawned_foldl {t : State} {x : Group} {g n : Nat} (hg : g < t.nextId) (hs : t.storesOut g = false) (m : Nat) :
    Spawned t x n ((t.die (t.dieOf g)).ck.toNat + 1) m ((List.range m).foldl (fun s j =>
      let id := s.nextId
      ({ s.setGroup id { x.child (j + 1) n with readySince := (s.die (s.dieOf g)).ck.toNat + 1 } with nextId := id + 1 }).copyStores
        g id) t) := by
  induction m with
  | zero => exact ⟨rfl, fun j hj => absurd hj (Nat.not_lt_zero j), fun _ _ => rfl, fun p hp => .inl hp⟩
  | succ m ih =>
    rw [List.range_succ, List.foldl_append, List.foldl_cons, List.foldl_nil]
    generalize (List.range m).foldl _ t = u at ih ⊢
    obtain ⟨hw, hc, ho, hl⟩ := ih
    have hid : u.nextId = t.nextId + m := by rw [hw]
    have hst : u.stores = t.stores := by rw [hw]
    have hd : (u.die (u.dieOf g)).ck = (t.die (t.dieOf g)).ck := by
      have hug : u.group g = t.group g := ho g (.inl hg)
      rw [State.dieOf, State.dieOf, State.coreOf, State.coreOf, State.wgOf, State.wgOf, hug, hw]
      rfl
    simp only
    rw [State.copyStores_of_none _ (by rw [State.storesOut]; exact hst ▸ hs), hd, hid]
    refine ⟨?_, fun j hj => ?_, fun h hh => ?_, fun p hp => ?_⟩
    · conv_lhs => rw [hw]
      rfl
    · by_cases hj : j = m
      · rw [hj]
        exact State.group_setGroup_same _ _ _
      · exact (State.group_setGroup_ne _ _ (by omega)).trans (hc j (by omega))
    · exact (State.group_setGroup_ne _ _ (by omega)).trans (ho h (by omega))
    · rcases Fmap.mem_insert hp with h | h
      · exact hl p h
      · exact .inr ⟨m + 1, by rw [h]; rfl⟩

theorem Group.rendezvous_of_wait {x y : Group} (hw : y.wait = x.wait) (hx : x.rendezvous = none) : y.rendezvous = none := by
  unfold Group.rendezvous at hx ⊢
  rw [hw]
  split at hx <;> simp_all

/-- Group `g` of `t` split into `k` children of width `n`, where no group waits in a rendezvous. -/
theorem split_spec {t : State} {g n : Nat} (hg : g < t.nextId) (hs : t.storesOut g = false) (hr : ∀ p ∈ t.groups, p.2.rendezvous = none)
    (hme : (t.group g).rendezvous = none) :
    let x := t.group g
    let k := x.width / n
    let u := t.split g n
    u = { (if x.rdDepth = 0 then t else t.modCnt (t.coreOf g) x.rdPar (· + (k - 1))) with
            groups := u.groups, nextId := t.nextId + (k - 1) } ∧
    u.group g = x.childSince n x.readySince 0 ∧
    (∀ j, j < k - 1 → u.group (t.nextId + j) = x.childSince n ((t.die (t.dieOf g)).ck.toNat + 1) (j + 1)) ∧
    ∀ h, h ≠ g → (h < t.nextId ∨ t.nextId + (k - 1) ≤ h) → u.group h = t.group h := by
  have hsp := spawned_foldl (x := t.group g) (n := n) hg hs ((t.group g).width / n - 1)
  intro x k
  generalize hv : (List.range (k - 1)).foldl (fun s j =>
    let id := s.nextId
    ({ s.setGroup id { x.child (j + 1) n with readySince := (s.die (s.dieOf g)).ck.toNat + 1 } with nextId := id + 1 }).copyStores
      g id) t = v at hsp
  obtain ⟨hw, hc, ho, hl⟩ := hsp
  let v0 := v.setGroup g (x.child 0 n)
  let v1 := if x.rdDepth = 0 then v0 else v0.modCnt (v0.coreOf g) x.rdPar (· + (k - 1))
  have hwait : ∀ p ∈ v1.groups, p.2.rendezvous = none := fun p hp => by
    have hp : p ∈ v0.groups := by
      simp only [v1] at hp
      split at hp <;> exact hp
    rcases Fmap.mem_insert hp with hp | rfl
    · rcases hl p hp with hp | ⟨j, hj⟩
      · exact hr p hp
      · exact Group.rendezvous_of_wait (by rw [hj]; rfl) hme
    · exact Group.rendezvous_of_wait (x := x) rfl hme
  have hu : t.split g n = v1 := by
    have : t.split g n = v1.recheckAlign x.wg := by
      simp only [State.split, v1, v0, ← hv, x, k]
    rw [this, State.recheckAlign_of_none _ hwait]
  have hgroups : v1.groups = v0.groups := by
    simp only [v1]
    split <;> rfl
  have hgroup : ∀ h, v1.group h = v0.group h := fun h => by rw [State.group, hgroups, State.group]
  have hcore : v0.coreOf g = t.coreOf g := by
    rw [State.coreOf, State.coreOf, State.wgOf, State.wgOf, State.group_setGroup_same, State.wg_setGroup, hw]
    rfl
  simp only [hu]
  refine ⟨?_, by rw [hgroup]; exact State.group_setGroup_same _ _ _, fun j hj => ?_, fun h hh hb => ?_⟩
  · simp only [v1, hcore]
    have h0 : v0 = { t with groups := v0.groups, nextId := t.nextId + (k - 1) } := by
      change v.setGroup g _ = _
      conv_lhs => rw [hw]
      rfl
    split
    · exact h0
    · conv_lhs => rw [h0]
      rfl
  · rw [hgroup]
    exact (State.group_setGroup_ne _ _ (by omega)).trans (hc j hj)
  · rw [hgroup]
    exact (State.group_setGroup_ne _ _ hh).trans (ho h hb)

/-- A status written, the instruction ended, and the latches dropped. -/
theorem State.told_eq {i : Instr} (h : (Instr.info i).srcs = []) (s : State) {g : Nat} (x : Group) (hx : s.group g = x) {d : BitVec 6}
    {code : Word} : ((s.putS g d.toNat code).finish g (Instr.info i) (x.execMask (Instr.info i).pred) (nextPc x.pc)).modGroup g
        (fun y => { y.dropLatches with hlr := [] }) =
      s.setGroup g (x.told i d ((freshIds (s.usedEntries (s.coreOf g)) 1).getD 0 0) code) := by
  rw [State.putS_eq, State.finish, State.modGroup_setGroup, State.modGroup_setGroup, Group.lastReads_of_no_srcs h, hx]
  rfl

/-- The state after a GSPLIT of status `code`, the entry of which is `id` (R19, R173). -/
def State.afterSplit (s : State) (f : FmtWd) (id code : Nat) : State :=
  let t := s.setGroup s.cur (s.me.told (.gsplit f) f.d id (BitVec.ofNat 32 code))
  if code = 0 then t.split s.cur (8 * 2 ^ f.w.toNat) else t

/-- Where a GSPLIT has room for its status, it writes the status and then splits its group or goes on (R19, R173). -/
theorem gsplit_eq {f : FmtWd} {s : State} (hr : Ready (.gsplit f) s) (hroom : HasRoom (.gsplit f) s 0 1) :
    ∃ id, exec (.gsplit f) s = .next (s.afterSplit f id (splitStatus s s.me (8 * 2 ^ f.w.toNat))) := by
  have hn : (Instr.info (.gsplit f)).srcs = [] := rfl
  have hme := State.reader_of_no_srcs s hn
  have hcode : (s.seen (.gsplit f)).splitCode s.me (widthOf f.w) = splitStatus s s.me (8 * 2 ^ f.w.toNat) := by
    rw [splitCode_eq]
    simp only [splitStatus, State.futurePending_congr (s := s) (t := s.seen (.gsplit f)) rfl
      (fun g => by rw [State.seen_group_of_no_srcs s hn]) ⟨rfl, rfl⟩, widthOf]
  refine ⟨(freshIds ((s.seen (.gsplit f)).usedEntries ((s.seen (.gsplit f)).coreOf s.cur)) 1).getD 0 0,
    (show execGsplit f s = issue _ _ _ from rfl).trans (issue_left hr ((withRoom_of _ hroom).trans ?_))⟩
  have htold := fun code => State.told_eq hn (s.seen (.gsplit f)) (g := s.cur) (d := f.d) (code := code) s.me hme
  simp only [State.afterSplit, State.seen_me, State.seen_cur, hme, hcode]
  rw [← State.setGroup_setGroup s s.cur s.me, ← State.seen_of_no_srcs s hn, ← htold]
  rfl

/-- What a status written leaves of a group that goes on. -/
theorem Group.told_rest (x : Group) (i : Instr) (d : BitVec 6) (id : Nat) (code : Word) :
    (x.told i d id code).wait = x.wait ∧ (x.told i d id code).width = x.width ∧ (x.told i d id code).rdDepth = x.rdDepth ∧
      (x.told i d id code).rdPar = x.rdPar ∧ (x.told i d id code).wg = x.wg ∧ (x.told i d id code).readySince = x.readySince :=
  ⟨rfl, rfl, rfl, rfl, rfl, rfl⟩

/-- Where no listed group waits in a rendezvous, the issuing one does not. -/
theorem State.me_rendezvous {s : State} (h : ∀ p ∈ s.groups, p.2.rendezvous = none) : s.me.rendezvous = none := by
  cases hf : Fmap.find s.groups s.cur with
  | none => rw [State.me, State.group, Fmap.get, hf]; rfl
  | some y => rw [State.me, State.group_of_find hf]; exact h _ (Fmap.mem_of_find hf)

/-- Lanes of child `j` of `k` are lanes of the group. -/
theorem child_lanes_le {w n j : Nat} (hw : w ≤ 128) (hj : j < w / n) : j * n + n ≤ 128 := by
  have h1 := Nat.mul_le_mul_right n (Nat.succ_le_of_lt hj)
  have h2 := Nat.div_mul_le_self w n
  rw [Nat.succ_mul] at h1
  omega

/-- The issuing group, once it has become `x`, is split into children of width `n`. -/
theorem split_me {s : State} {x : Group} {n : Nat} (hn : n % 8 = 0) (hwait : x.wait = s.me.wait) (hwidth : x.width = s.me.width)
    (hdepth : x.rdDepth = s.me.rdDepth) (hpar : x.rdPar = s.me.rdPar) (hwg : x.wg = s.me.wg) (hsince : x.readySince = s.me.readySince)
    (hw : s.me.width ≤ 128) (hg : s.cur < s.nextId) (hs : s.storesOut s.cur = false) (hren : ∀ p ∈ s.groups, p.2.rendezvous = none) :
    let k := s.me.width / n
    let t := (s.setGroup s.cur x).split s.cur n
    t = { (if s.me.rdDepth = 0 then s else s.modCnt s.myCore s.me.rdPar (· + (k - 1))) with
            groups := t.groups, nextId := s.nextId + (k - 1) } ∧
    (∀ j, j < k → ChildOf x (t.group (if j = 0 then s.cur else s.nextId + j - 1)) (j * n) n) ∧
    (t.group s.cur).readySince = s.me.readySince ∧
    (∀ j, j + 1 < k → (t.group (s.nextId + j)).readySince = (s.die s.myDie).ck.toNat + 1) ∧
    ∀ h, h ≠ s.cur → (h < s.nextId ∨ s.nextId + k ≤ h + 1) → t.group h = s.group h := by
  intro k t
  have hme : x.rendezvous = none := Group.rendezvous_of_wait hwait (State.me_rendezvous hren)
  have hgx : (s.setGroup s.cur x).group s.cur = x := State.group_setGroup_same _ _ _
  have hcore : ∀ h, (s.setGroup s.cur x).coreOf h = s.coreOf h := fun h => State.coreOf_setGroup _ _ _ _ hwg
  obtain ⟨hworld, h0, hj, ho⟩ := split_spec (t := s.setGroup s.cur x) (g := s.cur) (n := n) hg hs
    (fun p hp => (Fmap.mem_insert hp).elim (hren p) (fun h => h ▸ hme)) (hgx.symm ▸ hme)
  simp only [hgx, hwidth, hdepth, hpar, hcore] at hworld h0 hj ho
  have hchild : ∀ j, j < k - 1 → t.group (s.nextId + j) = x.childSince n (((s.setGroup s.cur x).die ((s.setGroup s.cur x).dieOf s.cur)).ck.toNat + 1) (j + 1) := hj
  have hother : ∀ h, h ≠ s.cur → (h < s.nextId ∨ s.nextId + (k - 1) ≤ h) → t.group h = (s.setGroup s.cur x).group h := ho
  refine ⟨?_, fun j hjk => ?_, by rw [h0, ← hsince]; rfl, fun j hjk => ?_,
    fun h hh hb => (hother h hh (by omega)).trans (State.group_setGroup_ne _ _ hh)⟩
  · refine hworld.trans ?_
    split <;> rfl
  · have hle := child_lanes_le hw hjk
    split
    · next h => rw [h0, h]; exact x.child_of hn (h ▸ hle) _
    · next h =>
      obtain ⟨i, rfl⟩ := Nat.exists_eq_succ_of_ne_zero h
      rw [show s.nextId + (i + 1) - 1 = s.nextId + i by omega, hchild i (by omega)]
      exact x.child_of hn hle _
  · rw [hchild j (by omega), State.myDie, State.dieOf, State.dieOf, hcore]
    rfl

/-- Settles O18: a GSPLIT writes its status first, and each child is cut out of the group as that left it. -/
theorem split : Obligations.Split := by
  unfold Obligations.Split
  intro f s hr hroom
  obtain ⟨id, he⟩ := gsplit_eq hr hroom
  have hn : (Instr.info (.gsplit f)).srcs = [] := rfl
  have htold := Group.told_ran hn s.me f.d id
  have hrest := Group.told_rest s.me (.gsplit f) f.d id 0
  simp only [State.reader_of_no_srcs s hn]
  generalize splitStatus s s.me (8 * 2 ^ f.w.toNat) = code at he ⊢
  obtain ⟨hran, hread⟩ := htold (BitVec.ofNat 32 code)
  refine ⟨fun hc => ?_, fun hc hw hg hs hren => ?_⟩
  · rw [State.afterSplit, if_neg hc] at he
    exact ⟨_, ⟨he, rfl, fun h hh => State.group_setGroup_ne _ _ hh, by
      rw [State.reader_of_no_srcs s hn, State.group_setGroup_same]; exact hran⟩, by rw [State.group_setGroup_same]; exact hread⟩
  · rw [State.afterSplit, if_pos hc] at he
    subst hc
    obtain ⟨hwait, hwidth, hdepth, hpar, hwg, hsince⟩ := hrest
    obtain ⟨h1, h2, h3, h4, h5⟩ := split_me (n := 8 * 2 ^ f.w.toNat) (by omega) hwait hwidth hdepth hpar hwg hsince hw hg hs hren
    exact ⟨_, _, he, h1, hran, hread, h2, h3, h4, h5⟩

end Sys2Proof.Machine
end

section
/-! PROOFS. Rendezvous (R20, R21, R23, R62, R173): how a group comes to wait in one, leaves it, and the status that it takes. -/

namespace Sys2Proof

/-- A write to a key that is listed, in a map with rising keys. -/
theorem Fmap.insert_eq_map {α : Type} {m : Fmap α} {b k : Nat} (v : α) (h : Fmap.risingFrom b m = true) (hf : (Fmap.find m k).isSome = true) :
    Fmap.insert m k v = m.map (fun p => if p.1 = k then (k, v) else p) := by
  induction m generalizing b with
  | nil => cases hf
  | cons p t ih =>
    simp only [Fmap.risingFrom, Bool.and_eq_true, decide_eq_true_eq] at h
    rw [Fmap.find] at hf
    by_cases hk : p.1 = k
    · have hrest : t.map (fun p => if p.1 = k then (k, v) else p) = t := by
        rw [List.map_congr_left (g := id) (fun q hq => ?_), List.map_id]
        have := Fmap.le_of_mem h.2 hq
        exact if_neg (by omega)
      rw [Fmap.insert, if_neg (by omega), if_pos hk.symm, List.map_cons, if_pos hk, hrest]
    · rw [if_neg hk] at hf
      obtain ⟨x, hx⟩ := Option.isSome_iff_exists.1 hf
      have := Fmap.le_of_mem h.2 (Fmap.mem_of_find hx)
      rw [Fmap.insert, if_neg (by simp at this; omega), if_neg (Ne.symm hk), List.map_cons, if_neg hk, ih h.2 hf]

end Sys2Proof

namespace Sys2Proof.Machine

open Sys2Proof.Claims

/-! ### Leaving a rendezvous -/

/-- Group `x`, leaving the rendezvous `w` with status `code` in entry `id` of register `d` (R23, R66, R173). -/
def Group.departed (x : Group) (d : BitVec 6) (code id : Nat) (w : Wait) : Group :=
  { ((x.writeS d.toNat (BitVec.ofNat 32 code) id none).endedWait w).dropLatches with hlr := [] }

theorem Group.departed_leaves (x : Group) (d : BitVec 6) (code id : Nat) {w : Wait} (hw : w.frees = []) :
    Leaves x (x.departed d code id w) d.toNat code := by
  have hx : x.departed d code id w = { ({ (x.writeS d.toNat (BitVec.ofNat 32 code) id none).completed w.word w.exec (nextPc x.pc) with
      wait := none } : Group).dropLatches with hlr := [] } := by
    rw [Group.departed, Group.endedWait, hw]
    rfl
  rw [hx]
  refine ⟨(Group.readS_writeS x d.toNat d.toNat _ id none).trans (if_pos rfl), rfl, rfl, rfl, rfl, rfl, fun l hl => ?_,
    rfl, rfl, rfl, rfl, rfl, rfl, rfl, rfl⟩
  rcases List.mem_append.1 hl with hl | hl
  all_goals
    obtain ⟨k, -, rfl⟩ := List.mem_map.1 hl
    rfl

/-- A group that waits in a rendezvous, with the register that takes its status. -/
def Group.meets (x : Group) (d : BitVec 6) : Prop :=
  (∃ n w e, x.wait = some ⟨.fuse n d, w, e, []⟩) ∨ ∃ w e, x.wait = some ⟨.compact d, w, e, []⟩

theorem State.leaveRendezvous_eq {s : State} {g : Nat} {d : BitVec 6} (code : Nat) (h : (s.group g).meets d) :
    ∃ id w, w.frees = [] ∧ s.leaveRendezvous g code = (s.dropHold g).setGroup g ((s.group g).departed d code id w) := by
  have key : ∀ w, (s.group g).wait = some w → (∃ b n, (s.group g).rendezvous = some (b, n, d)) →
      s.leaveRendezvous g code = (s.dropHold g).setGroup g ((s.group g).departed d code
        ((freshIds ((s.dropHold g).usedEntries ((s.dropHold g).coreOf g)) 1).getD 0 0) w) := by
    rintro w hw ⟨b, n, hr⟩
    simp only [State.leaveRendezvous, hr]
    rw [State.putS_eq, State.endWait_of_wait (w := w) (by rw [State.group_setGroup_same]; exact hw), State.modGroup_setGroup,
      State.group_setGroup_same, State.setGroup_setGroup]
    rfl
  rcases h with ⟨n, w, e, h⟩ | ⟨w, e, h⟩
  · exact ⟨_, _, rfl, key _ h ⟨_, _, by rw [Group.rendezvous, h]⟩⟩
  · exact ⟨_, _, rfl, key _ h ⟨_, _, by rw [Group.rendezvous, h]⟩⟩

/-- The groups `gs` have left their rendezvous between `s` and `t` with status `code`, each in its register `d`. -/
structure Departs (s t : State) (gs : List Nat) (d : Nat → BitVec 6) (code : Nat) : Prop where
  world : t = { s with groups := t.groups, pend := t.pend }
  holds : HoldsDropped s t gs
  others : ∀ h, h ∉ gs → t.group h = s.group h
  left : ∀ g ∈ gs, Leaves (s.group g) (t.group g) (d g).toNat code

theorem departs_foldl (d : Nat → BitVec 6) (code : Nat) (gs : List Nat) (s : State) (hn : gs.Nodup) (hm : ∀ g ∈ gs, (s.group g).meets (d g)) :
    Departs s (gs.foldl (fun s g => s.leaveRendezvous g code) s) gs d code := by
  induction gs generalizing s with
  | nil => exact ⟨rfl, fun p => by simp, fun _ _ => rfl, fun _ h => absurd h List.not_mem_nil⟩
  | cons g gs ih =>
    obtain ⟨hg, hgs⟩ := List.nodup_cons.1 hn
    obtain ⟨id, w, hw, hu⟩ := State.leaveRendezvous_eq code (hm g List.mem_cons_self)
    rw [List.foldl_cons, hu]
    have hne : ∀ h, h ≠ g → ((s.dropHold g).setGroup g ((s.group g).departed (d g) code id w)).group h = s.group h :=
      fun h hh => State.group_setGroup_ne _ _ hh
    obtain ⟨h1, h2, h3, h4⟩ := ih ((s.dropHold g).setGroup g ((s.group g).departed (d g) code id w)) hgs
      (fun h hh => by rw [hne h (fun he => hg (he ▸ hh))]; exact hm h (List.mem_cons_of_mem _ hh))
    refine ⟨h1, fun p => ?_, fun h hh => ?_, fun h hh => ?_⟩
    · rw [h2 p]
      change p ∈ s.pend.filter _ ∧ _ ↔ _
      simp only [List.mem_filter, List.mem_cons, Bool.not_eq_true', Bool.and_eq_false_iff, decide_eq_false_iff_not]
      tauto
    · obtain ⟨hhg, hhs⟩ := not_or.1 (fun h' => hh (List.mem_cons.2 h'))
      rw [h3 h hhs, hne h hhg]
    · rcases List.mem_cons.1 hh with rfl | hh
      · rw [h3 _ hg, State.group_setGroup_same]
        exact Group.departed_leaves _ _ _ _ hw
      · have := h4 h hh
        rwa [hne h (fun he => hg (he ▸ hh))] at this

/-! ### The status at issue -/

theorem vals_covering (s : State) (k b n : Nat) : Fmap.vals (s.covering k b n) = partners s k b n := by
  simp only [Fmap.vals, State.covering, State.groupsWhere, Fmap.select, partners]
  congr 1
  refine List.filter_congr fun p _ => ?_
  rw [Bool.eq_iff_iff]
  simp [and_assoc]

theorem any_covering (s : State) (k b n : Nat) (p : Group → Bool) :
    (s.covering k b n).any (fun q => p q.2) = true ↔ ∃ x ∈ partners s k b n, p x = true := by
  rw [← vals_covering, Fmap.vals, List.any_eq_true]
  exact ⟨fun ⟨q, hq, h⟩ => ⟨q.2, List.mem_map_of_mem hq, h⟩, fun ⟨x, hx, h⟩ =>
    have ⟨q, hq, he⟩ := List.mem_map.1 hx
    ⟨q, hq, he ▸ h⟩⟩

theorem all_covering (s : State) (k b n : Nat) (p : Group → Bool) :
    (s.covering k b n).all (fun q => p q.2) = true ↔ ∀ x ∈ partners s k b n, p x = true := by
  rw [← vals_covering, Fmap.vals, List.all_eq_true]
  exact (List.forall_mem_map (f := Prod.snd) (P := fun x => p x = true)).symm

theorem alignedBlock_iff (s : State) (k b n : Nat) (two : Bool) : s.alignedBlock k b n two = true ↔
    ((partners s k b n).length = 2 ∨ (partners s k b n).length = 4 ∧ two = false) ∧
      (∀ p ∈ partners s k b n, p.width * (partners s k b n).length = n) ∧ b + n ≤ (s.wg k).lanes := by
  have hlen : (s.covering k b n).length = (partners s k b n).length := by rw [← vals_covering, Fmap.vals, List.length_map]
  have hall := all_covering s k b n (fun x => x.width * (partners s k b n).length = n)
  simp only [State.alignedBlock, hlen, Bool.and_eq_true, Bool.or_eq_true, decide_eq_true_eq, Bool.not_eq_true', hall, and_assoc]

theorem earlyCode_eq (s : State) (k b n : Nat) (two : Bool) : s.earlyCode k b n two = earlyStatus s k b n two := by
  have hexit := any_covering s k b n (fun x => x.status = .exited)
  have hcomp := any_covering s k b n Group.compacted
  simp only [Group.compacted, Bool.or_eq_true, Option.isSome_iff_ne_none, decide_eq_true_eq] at hexit hcomp
  simp only [State.earlyCode, earlyStatus, Bool.not_eq_true', ← Bool.not_eq_true, alignedBlock_iff, hexit, Group.compacted,
    hcomp]

/-! ### Groups that differ in what they wait for -/

/-- `y` is `x` but for what it waits for. -/
def SameButWait (x y : Group) : Prop := y = { x with wait := y.wait, stall := y.stall }

/-- The lists hold the same groups but for what these wait for. -/
def SameParties (l l' : List Group) : Prop := (∀ x ∈ l, ∃ y ∈ l', SameButWait x y) ∧ ∀ y ∈ l', ∃ x ∈ l, SameButWait x y

theorem SameParties.exists_iff {l l' : List Group} (h : SameParties l l') {P Q : Group → Prop} (hp : ∀ x y, SameButWait x y → (P x ↔ Q y)) :
    (∃ x ∈ l, P x) ↔ ∃ y ∈ l', Q y := by
  constructor
  · rintro ⟨x, hx, hP⟩
    obtain ⟨y, hy, hxy⟩ := h.1 x hx
    exact ⟨y, hy, (hp x y hxy).1 hP⟩
  · rintro ⟨y, hy, hQ⟩
    obtain ⟨x, hx, hxy⟩ := h.2 y hy
    exact ⟨x, hx, (hp x y hxy).2 hQ⟩

theorem SameParties.alike_iff {l l' : List Group} (h : SameParties l l') {α : Type} {f : Group → α} (hf : ∀ x y, SameButWait x y → f x = f y) :
    Alike f l ↔ Alike f l' := by
  constructor
  · intro ha y hy y' hy'
    obtain ⟨x, hx, hxy⟩ := h.2 y hy
    obtain ⟨x', hx', hxy'⟩ := h.2 y' hy'
    rw [← hf x y hxy, ← hf x' y' hxy', ha x hx x' hx']
  · intro ha x hx x' hx'
    obtain ⟨y, hy, hxy⟩ := h.1 x hx
    obtain ⟨y', hy', hxy'⟩ := h.1 x' hx'
    rw [hf x y hxy, hf x' y' hxy', ha y hy y' hy']

theorem allSame_iff {α : Type} [DecidableEq α] (f : Group → α) (l : List Group) : allSame (l.map f) = true ↔ Alike f l := by
  cases l with
  | nil => simp [allSame, Alike]
  | cons x t =>
    simp only [List.map_cons, allSame, List.all_map, List.all_eq_true, Function.comp_apply, decide_eq_true_eq, Alike, List.forall_mem_cons]
    exact ⟨fun h => ⟨⟨trivial, fun y hy => (h y hy).symm⟩, fun y hy => ⟨h y hy, fun z hz => (h y hy).trans (h z hz).symm⟩⟩, fun h y hy => (h.2 y hy).1⟩

/-- The first code of a table, before what comes after the table. -/
theorem code_before (k : Nat) {c : Prop} [Decidable c] {r rest : Nat} (hk : k ≠ 0) :
    (if (if c then k else r) ≠ 0 then (if c then k else r) else rest) = if c then k else if r ≠ 0 then r else rest := by
  by_cases h : c <;> simp [h, hk]

/-- The statuses that GFUSE and GCOMPACT share, as the model finds them of the groups of `l'` in `t` (R23). -/
theorem partnerCode_eq {s t : State} {l l' : List Group} (h : SameParties l l')
    (hf : ∀ x y, SameButWait x y → t.futurePending y = s.futurePending x) (rest : Nat) :
    sharedStatus s l rest = if t.partnerCode l' ≠ 0 then t.partnerCode l' else rest := by
  have hpc := allSame_iff (·.pc) l'
  have hrd := allSame_iff (fun x => (x.rdDepth, x.rdPar)) l'
  have hstk := allSame_iff (·.rstk) l'
  have hpc' := h.alike_iff (f := (·.pc)) fun x y e => by rw [e]
  have hrd' : (Alike (·.rdDepth) l ∧ Alike (·.rdPar) l) ↔ Alike (fun x => (x.rdDepth, x.rdPar)) l' := by
    rw [← h.alike_iff (f := fun x => (x.rdDepth, x.rdPar)) fun x y e => by rw [e]]
    simp only [Alike, Prod.mk.injEq, forall_and]
  have hstk' := h.alike_iff (f := (·.rstk)) fun x y e => by rw [e]
  have hreg := h.exists_iff (P := fun x => x.region ≠ none) (Q := fun x => x.region.isSome = true)
    fun x y e => by rw [e, Option.isSome_iff_ne_none]
  have hbusy := h.exists_iff (P := fun x => s.futurePending x = true ∨ x.batchOpen = true ∨ x.batches ≠ [])
    (Q := fun x => t.busyFutures x = true) fun x y e => by rw [busyFutures_iff, hf x y e, e]
  simp only [sharedStatus, State.partnerCode, hpc', hrd', hstk', hreg, hbusy, ← hpc, ← hrd, ← hstk, List.any_eq_true,
    Bool.not_eq_true', ← Bool.not_eq_true]
  rw [code_before 3, code_before 4, code_before 5, code_before 6, code_before 7]
  all_goals simp

theorem sameParties_pair {a b a' b' : Group} (ha : SameButWait a a') (hb : SameButWait b b') : SameParties [a, b] [a', b'] := by
  refine ⟨fun x hx => ?_, fun y hy => ?_⟩
  · rcases List.mem_pair.1 hx with rfl | rfl
    · exact ⟨a', List.mem_cons_self, ha⟩
    · exact ⟨b', List.mem_cons_of_mem _ List.mem_cons_self, hb⟩
  · rcases List.mem_pair.1 hy with rfl | rfl
    · exact ⟨a, List.mem_cons_self, ha⟩
    · exact ⟨b, List.mem_cons_of_mem _ List.mem_cons_self, hb⟩

/-- The tops of two mask stacks that a GCOMPACT asks of its groups (R21, R23). -/
theorem tops_agree_iff (a b : Group) : (a.mstk.length != b.mstk.length || a.mstk.isEmpty || a.topRecon != b.topRecon) = false ↔
    ∃ e r e' r', a.mstk = e :: r ∧ b.mstk = e' :: r' ∧ r.length = r'.length ∧ e.recon = e'.recon := by
  unfold Group.topRecon
  cases ha : a.mstk with
  | nil => simp
  | cons e r => cases hb : b.mstk with
    | nil => simp
    | cons e' r' => simp

theorem compactCode_eq {s t : State} {a b a' b' : Group} (ha : SameButWait a a') (hb : SameButWait b b')
    (hf : ∀ x y, SameButWait x y → t.futurePending y = s.futurePending x) : t.compactCode a' b' = compactStatus s a b := by
  have htops := tops_agree_iff a' b'
  rw [compactStatus, partnerCode_eq (sameParties_pair ha hb) hf]
  have hm : a.mstk = a'.mstk ∧ b.mstk = b'.mstk := ⟨by rw [ha], by rw [hb]⟩
  have hw : a.width = a'.width ∧ a.curMask = a'.curMask ∧ b.curMask = b'.curMask := ⟨by rw [ha], by rw [ha]; rfl, by rw [hb]; rfl⟩
  have hst : a.stage = a'.stage ∧ b.stage = b'.stage := ⟨by rw [ha], by rw [hb]⟩
  simp only [hm, hw, hst, ← htops, State.compactCode, bne_iff_ne, Bool.not_eq_false]

/-! ### A group that comes to wait -/

/-- The package in which the issuing group waits in a rendezvous. -/
def State.inWait (s : State) (i : Instr) (k : WaitKind) : State := s.setGroup s.cur (s.waiting i k)

/-- The entry of the pool that a waiting group's status takes is a free one. -/
theorem freshIds_one (used : List Nat) : ∃ id, freshIds used 1 = [id] ∧ id ∉ used := by
  obtain ⟨id, hid⟩ := List.length_eq_one_iff.1 (freshIds_length used 1)
  refine ⟨id, hid, ?_⟩
  have hm : id ∈ freshIds used 1 := by rw [hid]; exact List.mem_singleton_self _
  simpa using (List.mem_filter.1 (List.mem_of_mem_take hm)).2

section
variable {s : State} {i : Instr} (h : (Instr.info i).srcs = []) (k : WaitKind)
include h

theorem State.waits_of_no_srcs : s.waits (Instr.info i) k = s.inWait i k := by
  rw [State.waits_eq, State.inWait, State.waiting, waitFor, State.reader_of_no_srcs s h]

theorem State.waiting_same : SameButWait s.me (s.waiting i k) := by
  rw [State.waiting, State.reader_of_no_srcs s h]
  rfl

theorem State.waiting_wait : (s.waiting i k).wait = some ⟨k, (Instr.info i).word, s.me.execMask (Instr.info i).pred, []⟩ := by
  rw [State.waiting, waitFor, State.reader_of_no_srcs s h, Group.lastReads_of_no_srcs h]

omit h in
theorem State.inWait_me : (s.inWait i k).group s.cur = s.waiting i k := State.group_setGroup_same _ _ _

theorem State.inWait_same (g : Nat) : SameButWait (s.group g) ((s.inWait i k).group g) := by
  by_cases hg : g = s.cur
  · rw [hg, State.inWait_me]
    exact State.waiting_same h k
  · rw [State.inWait, State.group_setGroup_ne _ _ hg]
    rfl

omit h in
theorem State.inWait_coreOf (g : Nat) : (s.inWait i k).coreOf g = s.coreOf g :=
  State.coreOf_setGroup _ _ _ _ (State.waiting_rest s i k).1

theorem State.inWait_futurePending (x y : Group) (hxy : SameButWait x y) :
    (s.inWait i k).futurePending y = s.futurePending x := by
  refine State.futurePending_congr rfl (fun g => ?_) ⟨by rw [hxy], by rw [hxy]⟩
  rw [State.inWait_same h k g]

omit h in
theorem State.inWait_groups (hl : Listed s) :
    (s.inWait i k).groups = s.groups.map (fun p => if p.1 = s.cur then (s.cur, s.waiting i k) else p) :=
  Fmap.insert_eq_map _ (rising_of_listed hl) hl.2

/-- What tells nothing of a group's wait finds the same groups. -/
theorem State.inWait_groupsWhere (hl : Listed s) {p : Group → Bool} (hp : ∀ x y, SameButWait x y → p y = p x) :
    (s.inWait i k).groupsWhere p = (s.groupsWhere p).map (fun q => if q.1 = s.cur then (s.cur, s.waiting i k) else q) := by
  rw [State.groupsWhere, State.inWait_groups k hl, State.groupsWhere, Fmap.select, Fmap.select, List.filter_map]
  congr 1
  refine List.filter_congr fun q hq => ?_
  by_cases hc : q.1 = s.cur
  · have hme : s.me = q.2 := by rw [State.me, ← hc]; exact State.group_of_mem (rising_of_listed hl) hq
    simp only [Function.comp_apply, hc, if_true]
    exact hp _ _ (hme ▸ State.waiting_same h k)
  · simp only [Function.comp_apply, hc, if_false]

theorem State.inWait_covering (hl : Listed s) (w b n : Nat) : (s.inWait i k).covering w b n =
    (s.covering w b n).map (fun q => if q.1 = s.cur then (s.cur, s.waiting i k) else q) :=
  State.inWait_groupsWhere h k hl fun x y hxy => by rw [hxy]

theorem State.inWait_sibling (hl : Listed s) (g : Nat) : (s.inWait i k).sibling g = s.sibling g := by
  have hg := State.inWait_same h k (s := s) g
  have hf : ∀ q : Nat × Group, (if q.1 = s.cur then (s.cur, s.waiting i k) else q).1 = q.1 := fun q => by
    split
    · next he => exact he.symm
    · rfl
  have hx : ((s.inWait i k).group g).base = (s.group g).base ∧ ((s.inWait i k).group g).width = (s.group g).width ∧
      ((s.inWait i k).group g).wg = (s.group g).wg := by rw [hg]; exact ⟨rfl, rfl, rfl⟩
  simp only [State.sibling, hx, State.inWait_covering h k hl, List.find?_map, Option.map_map]
  congr 1
  · funext q
    exact hf q
  · congr 1
    funext q
    simp only [Function.comp_apply, hf]

theorem State.inWait_usedEntries (hl : Listed s) (c : Nat) : (s.inWait i k).usedEntries c = s.usedEntries c := by
  rw [State.usedEntries, State.inWait_groups k hl, List.flatMap_map, State.usedEntries]
  congr 1
  refine List.flatMap_congr fun q hq => ?_
  by_cases hc : q.1 = s.cur
  · have hme : s.me = q.2 := by rw [State.me, ← hc]; exact State.group_of_mem (rising_of_listed hl) hq
    have hw := hme ▸ State.waiting_same h k (s := s)
    simp only [hc, if_true]
    rw [hw]
    rfl
  · simp only [hc, if_false]
    rfl

/-- A group that comes to wait in a rendezvous holds an entry for its status (R62, R173). -/
theorem joins_of_left {body : State → Body} (hl : Listed s) (hr : Ready i s) (he : exec i s = issue (Instr.info i) body s)
    (hb : body s = .left ((s.inWait i k).takeHold s.cur)) : Joins i s (s.waiting i k) := by
  obtain ⟨id, hid, hfree⟩ := freshIds_one (s.usedEntries s.myCore)
  have ht : (s.inWait i k).takeHold s.cur = (s.inWait i k).addPend ⟨.status, s.cur, s.me.wg, s.myCore, [], [id]⟩ := by
    rw [State.takeHold, State.inWait_usedEntries h k hl, State.inWait_coreOf, State.inWait_me, (State.waiting_rest s i k).1]
    change State.addPend _ ⟨_, _, _, _, _, freshIds (s.usedEntries s.myCore) 1⟩ = _
    rw [hid]
    rfl
  refine ⟨id, hfree, stays_of_left hr he (s2 := (s.inWait i k).takeHold s.cur) (by rw [State.seen_of_listed s h hl, hb]) ?_ (fun g hg => ?_) ?_⟩
  · rw [ht]
    rfl
  · rw [ht]
    exact State.group_setGroup_ne _ _ hg
  · rw [ht]
    exact State.inWait_me k

/-- Those who leave a rendezvous that one of them has just come to. -/
theorem Departs.of_inWait {t : State} {gs : List Nat} {d : Nat → BitVec 6} {code : Nat} (hd : Departs (s.inWait i k) t gs d code)
    (hc : s.cur ∈ gs) : Departs s t gs d code := by
  obtain ⟨h1, h2, h3, h4⟩ := hd
  refine ⟨h1, h2, fun g hg => ?_, fun g hg => ?_⟩
  · rw [h3 g hg]
    exact State.group_setGroup_ne _ _ fun he => hg (he ▸ hc)
  · have := h4 g hg
    rw [State.inWait_same h k g] at this
    exact this

end

end Sys2Proof.Machine
end

section
/-! PROOFS. GCOMPACT until both groups have arrived (R21, R23, R62, R173). -/

namespace Sys2Proof.Machine

open Sys2Proof.Claims

theorem State.sibling_ne {s : State} {g y : Nat} (h : s.sibling g = some y) : y ≠ g := by
  obtain ⟨p, hp, rfl⟩ := Option.map_eq_some_iff.1 h
  simpa using List.find?_some hp

section
variable {f : FmtWd0} {s : State}

theorem gcompact_srcs (f : FmtWd0) : (Instr.info (.gcompact f)).srcs = [] := rfl

/-- The package in which a GCOMPACT waits. -/
def State.inCompactWait (s : State) (f : FmtWd0) : State := s.inWait (.gcompact f) (.compact f.d)

/-- What a GCOMPACT does where it has room for its status (R21, R23). -/
theorem gcompact_body (hl : Listed s) (hroom : HasRoom (.gcompact f) s 0 1) :
    let n := 2 * s.me.width
    let b := s.me.base / n * n
    let early := earlyStatus s s.me.wg b n true
    let t := s.inCompactWait f
    let body := gcompactBody (Instr.info (.gcompact f)) f s
    (early ≠ 0 → body = .left (t.leaveRendezvous s.cur early)) ∧
    (early = 0 → (∀ y, s.sibling s.cur = some y → (s.group y).inCompact = false) → body = .left (t.takeHold s.cur)) ∧
    ∀ y, early = 0 → s.sibling s.cur = some y → (s.group y).inCompact = true →
      let lower := if s.me.base = b then s.cur else y
      let upper := if s.me.base = b then y else s.cur
      let code := compactStatus s (s.group lower) (s.group upper)
      (code = 0 → body = .left (t.takeHold s.cur)) ∧ (code ≠ 0 → body = .left ((t.leaveRendezvous lower code).leaveRendezvous upper code)) := by
  have hroom' : s.room (s.group s.cur).wg 0 1 = true := by
    have := hroom
    rw [HasRoom, State.seen_of_listed s (gcompact_srcs f) hl, State.reader_of_no_srcs s (gcompact_srcs f)] at this
    exact this
  have hcode : ∀ a b, (s.inCompactWait f).compactCode ((s.inCompactWait f).group a) ((s.inCompactWait f).group b) =
      compactStatus s (s.group a) (s.group b) := fun a b =>
    compactCode_eq (State.inWait_same (gcompact_srcs f) _ a) (State.inWait_same (gcompact_srcs f) _ b)
      (State.inWait_futurePending (gcompact_srcs f) _)
  have hwait : s.waits (Instr.info (.gcompact f)) (.compact f.d) = s.inCompactWait f := State.waits_of_no_srcs (gcompact_srcs f) _
  have hsib : (s.inCompactWait f).sibling s.cur = s.sibling s.cur := State.inWait_sibling (gcompact_srcs f) _ hl _
  have hgroup : ∀ y, s.sibling s.cur = some y → (s.inCompactWait f).group y = s.group y := fun y hy =>
    State.group_setGroup_ne _ _ (State.sibling_ne hy)
  intro n b early t body
  have hbody : body = if s.earlyCode s.me.wg b n true != 0 then _ else _ := withRoom_of _ hroom'
  simp only [earlyCode_eq, hwait, hsib, bne_iff_ne] at hbody
  refine ⟨fun he => by rw [hbody, if_pos he], fun he hy => ?_, fun y he hs hy => ?_⟩
  · rw [hbody, if_neg (not_not.2 he)]
    cases hs : s.sibling s.cur with
    | none => rfl
    | some y => simp only [hgroup y hs, hy y hs, Bool.false_eq_true, if_false]; rfl
  · rw [hbody, if_neg (not_not.2 he)]
    simp only [hs, hgroup y hs, hy, if_true, hcode]
    exact ⟨fun hc => by rw [if_neg (not_not.2 hc)], fun hc => by rw [if_pos hc]⟩

end

/-- The order in which groups leave does not matter to what is left. -/
theorem Departs.perm {s t : State} {gs gs' : List Nat} {d : Nat → BitVec 6} {code : Nat} (h : Departs s t gs d code) (hp : ∀ g, g ∈ gs ↔ g ∈ gs') :
    Departs s t gs' d code := by
  obtain ⟨h1, h2, h3, h4⟩ := h
  exact ⟨h1, fun p => by rw [h2 p, hp], fun g hg => h3 g (fun h => hg ((hp g).1 h)), fun g hg => h4 g ((hp g).2 hg)⟩

theorem inCompactWait_meets (f : FmtWd0) (s : State) : ((s.inCompactWait f).group s.cur).meets f.d :=
  .inr ⟨_, _, by rw [State.inCompactWait, State.inWait_me, State.waiting_wait (gcompact_srcs f)]⟩

/-- A GCOMPACT whose status is decided at issue. -/
theorem gcompact_early {f : FmtWd0} {s : State} (code : Nat) :
    Departs s ((s.inCompactWait f).leaveRendezvous s.cur code) [s.cur] (fun _ => f.d) code :=
  (departs_foldl (fun _ => f.d) code [s.cur] (s.inCompactWait f) (List.nodup_singleton _)
    (by simpa using inCompactWait_meets f s)).of_inWait (gcompact_srcs f) _ (List.mem_singleton_self _)

/-- A GCOMPACT and its waiting sibling, turned away together. -/
theorem gcompact_both {f : FmtWd0} {s : State} {y lower upper : Nat} {d : BitVec 6} {w : Nat} {e : Mask} (code : Nat) (hy : y ≠ s.cur)
    (hw : (s.group y).wait = some ⟨.compact d, w, e, []⟩) (ho : lower = s.cur ∧ upper = y ∨ lower = y ∧ upper = s.cur) :
    Departs s (((s.inCompactWait f).leaveRendezvous lower code).leaveRendezvous upper code) [s.cur, y]
      (fun g => if g = s.cur then f.d else d) code := by
  have hmeets : ∀ g, g = s.cur ∨ g = y → ((s.inCompactWait f).group g).meets (if g = s.cur then f.d else d) := by
    rintro g (rfl | rfl)
    · rw [if_pos rfl]
      exact inCompactWait_meets f s
    · rw [if_neg hy]
      exact .inr ⟨w, e, by rw [State.inCompactWait, State.inWait, State.group_setGroup_ne _ _ hy, hw]⟩
  have hd := departs_foldl (fun g => if g = s.cur then f.d else d) code [lower, upper] (s.inCompactWait f)
    (by rcases ho with ⟨rfl, rfl⟩ | ⟨rfl, rfl⟩ <;> simp [hy, Ne.symm hy])
    (fun g hg => hmeets g (by
      rcases List.mem_pair.1 hg with rfl | rfl <;> rcases ho with ⟨h1, h2⟩ | ⟨h1, h2⟩ <;> simp [h1, h2]))
  refine Departs.of_inWait (gcompact_srcs f) _ (hd.perm fun g => ?_) List.mem_cons_self
  rcases ho with ⟨rfl, rfl⟩ | ⟨rfl, rfl⟩
  · rfl
  · simp [or_comm]

/-- Settles O20: until its sibling has arrived a GCOMPACT waits with an entry held; then the first status that applies is both groups'. -/
theorem compactArrival : Obligations.CompactArrival := by
  unfold Obligations.CompactArrival
  intro f s hr hroom
  have he : exec (.gcompact f) s = issue (Instr.info (.gcompact f)) (gcompactBody (Instr.info (.gcompact f)) f) s := rfl
  have hn := gcompact_srcs f
  have hleft : ∀ t, Listed s → gcompactBody (Instr.info (.gcompact f)) f s = .left t → exec (.gcompact f) s = .next t := fun t hl hb =>
    he.trans (issue_left hr (by rw [State.seen_of_listed s hn hl, hb]))
  refine ⟨fun hc hl => ?_, fun hc hy hl => ?_, fun y d w e hc hy hlive hw hl => ⟨fun h0 => ?_, fun h0 => ?_⟩⟩
  · obtain ⟨h1, h2, h3, h4⟩ := gcompact_early (f := f) _
    exact ⟨_, hleft _ hl ((gcompact_body hl hroom).1 hc), h1, h2, fun h hh => h3 h (by simpa using hh), h4 _ List.mem_cons_self⟩
  · exact joins_of_left hn _ hl hr he ((gcompact_body hl hroom).2.1 hc hy)
  · have hin : (s.group y).inCompact = true := by simp [Group.inCompact, hw, hlive]
    exact joins_of_left hn _ hl hr he (((gcompact_body hl hroom).2.2 y hc hy hin).1 h0)
  · have hin : (s.group y).inCompact = true := by simp [Group.inCompact, hw, hlive]
    have hne := State.sibling_ne hy
    obtain ⟨h1, h2, h3, h4⟩ := gcompact_both (f := f) _ hne hw
      (lower := if s.me.base = s.me.base / (2 * s.me.width) * (2 * s.me.width) then s.cur else y)
      (upper := if s.me.base = s.me.base / (2 * s.me.width) * (2 * s.me.width) then y else s.cur) (by split <;> simp)
    refine ⟨_, hleft _ hl (((gcompact_body hl hroom).2.2 y hc hy hin).2 h0), h1, h2, fun h hh hhy => h3 h (by simp [hh, hhy]), ?_, ?_⟩
    · have := h4 _ List.mem_cons_self
      rwa [if_pos rfl] at this
    · have := h4 y (List.mem_cons_of_mem _ List.mem_cons_self)
      rwa [if_neg hne] at this

end Sys2Proof.Machine
end

section
/-! PROOFS. GFUSE by a group that is noted as waiting in another one: it clashes with itself (R20). -/

namespace Sys2Proof.Machine

open Sys2Proof.Claims

/-- GFUSE of s0 into width 16. -/
def someGfuse : FmtWd := ⟨0, 1⟩

/-- A package with two groups of width 8, of which group 1 waits in a GFUSE into width 16 and group 0, which issues, is noted as waiting
in one into width 32. -/
def State.selfClash : State :=
  { State.reset with
      groups := [(0, { Group.fresh with width := 8, wait := some ⟨.fuse 32 0, 0, 0, []⟩ }),
                 (1, { Group.fresh with base := 8, width := 8, wait := some ⟨.fuse 16 0, 0, 0, []⟩ })]
      wgs := [(0, { Wg.none with state := .resident, lanes := 16, peakS := 64 })] }

theorem ready_gfuse_selfClash : Ready (.gfuse someGfuse) State.selfClash := by
  constructor <;> decide +kernel

theorem gathered_selfClash : Gathered State.selfClash someGfuse [0, 1] where
  two := by decide
  mine := by decide
  once := by decide
  there := by decide
  live := by decide
  bases := fun
    | 0, g, h => by cases h; decide
    | 1, g, h => by cases h; decide
  shape := by decide
  width := by decide
  waiting := by
    intro g hg hne
    obtain rfl : g = 1 := by
      have : g = 0 ∨ g = 1 := by simpa using hg
      exact this.resolve_left hne
    exact ⟨0, 0, 0, rfl⟩
  only := by decide

/-- The wait of group 1 after an outcome. -/
def waitOfOne (o : Out) : Option Wait :=
  match o with
  | .next t => (t.group 1).wait
  | _ => none

/-- Group 1 is still there after the GFUSE of group 0, and still waits. -/
theorem waits_gfuse_selfClash : waitOfOne (execGfuse someGfuse State.selfClash) = some ⟨.fuse 16 0, 0, 0, []⟩ := by
  decide +kernel

/-- Refutes O19: in `State.selfClash` all partners of a GFUSE have arrived and no other group is in a rendezvous, but the group that
issues it takes WIDTH for the wait that is noted of itself, and its partner waits on. -/
theorem not_fuse : ¬ Obligations.Fuse := by
  intro h
  obtain ⟨t, he, -, hleave, hfused⟩ := h.2 someGfuse State.selfClash [0, 1] ready_gfuse_selfClash (by unfold HasRoom; decide +kernel)
    gathered_selfClash ((earlyCode_eq _ _ _ _ _).symm.trans (by decide +kernel)) ⟨by decide, by decide⟩ (by decide)
  have hw := waits_gfuse_selfClash
  rw [show execGfuse someGfuse State.selfClash = .next t from he] at hw
  change (t.group 1).wait = _ at hw
  by_cases hc : fuseStatus State.selfClash ([0, 1].map State.selfClash.group) State.selfClash.myCore (widthOf someGfuse.w)
      (State.selfClash.me.base / widthOf someGfuse.w * widthOf someGfuse.w) = 0
  · obtain ⟨-, -, hgone, -⟩ := hfused hc
    have hnone := hgone 1 (by decide) (by decide)
    rw [State.group, Fmap.get, hnone] at hw
    cases hw
  · obtain ⟨d, -, hl⟩ := hleave hc 1 (by decide)
    obtain ⟨-, hwait, -⟩ := hl
    rw [hwait] at hw
    cases hw

end Sys2Proof.Machine
end

section
/-! PROOFS. A release while the package has booted from die 0 alone (R39, R326): the boot stage is FULL from then on. -/

namespace Sys2Proof.Machine

open Sys2Proof.Claims

/-- A package that has booted from die 0, with the other dies left out, in which core 0 owes a release. -/
def State.firstRelease : State :=
  { State.reset with
      root := { Root.reset with stage := .die0 }
      dies := [(0, { Die.reset with alive := true }), (1, { Die.reset with leftOut := true }), (2, { Die.reset with leftOut := true }),
               (3, { Die.reset with leftOut := true })]
      cores := [(0, { Core.reset with relPending := true })] }

/-- The boot stage after an outcome. -/
def stageOfOut (o : Out) : Option BootStage :=
  match o with
  | .next t => some t.root.stage
  | _ => none

theorem stage_release_firstRelease : stageOfOut (exec (.release 0) State.firstRelease) = some .full := by decide +kernel

theorem joinPending_firstRelease (d : Nat) : (State.firstRelease.die d).joinPending = false := by
  match d with
  | 0 => rfl
  | 1 => rfl
  | 2 => rfl
  | 3 => rfl
  | d + 4 => rfl

/-- Refutes O47: in `State.firstRelease` no die waits to join, and the release brings BOOTSTAT.STAGE from die 0 alone to FULL, while
the statement lets a release change cores and groups only. -/
theorem not_waveProgress : ¬ Obligations.WaveProgress := by
  rintro ⟨-, -, -, -, -, h, -⟩
  obtain ⟨t, he, ht, -⟩ := h State.firstRelease 0 rfl ⟨by decide, rfl, rfl⟩ joinPending_firstRelease (by decide) (by decide)
  have hs := stage_release_firstRelease
  rw [he, ht] at hs
  have hd : BootStage.die0 = .full := Option.some.inj hs
  exact absurd hd (by decide)

end Sys2Proof.Machine
end

section
/-! PROOFS. The completion of a grid that is no node's while a graph of no nodes is in progress (R287, R293): the graph ends with it. -/

namespace Sys2Proof.Machine

/-- The record of a grid with no workgroup left to dispatch or to end. -/
def emptyGrid : LRec :=
  { desc := 0, gx := 0, gy := 0, gz := 0, next := [0, 0, 0, 0], ended := 0, state := .drainingOut, node := none, childLeft := 0, queue := 0
    sig := false, siga := 0, args := 0, cpb := 1, place := 0, rmen := false, rankmap := 0, kern := Kernel.empty, order := 0 }

/-- A package with that record in context 0 and a graph in progress whose every node is done. -/
def State.lastGrid : State :=
  { State.reset with
      ctxs := [(0, { Ctx.reset with recs := [(0, emptyGrid)] })]
      graphs := [{ ctx := 0, queue := 0, first := 0, count := 0, sig := false, siga := 0 }] }

/-- How many graphs are in progress after an outcome. -/
def graphsOfOut (o : Out) : Option Nat :=
  match o with
  | .next t => some t.graphs.length
  | _ => none

theorem graphs_gridCompletion_lastGrid : graphsOfOut (exec (.gridCompletion 0 0) State.lastGrid) = some 0 := by decide +kernel

/-- Refutes O52: in `State.lastGrid` the end of a grid that is no node's finds a graph complete and ends it, while the statement lets
the end of such a grid free its record only. -/
theorem not_dispatchAndCompletion : ¬ Obligations.DispatchAndCompletion := by
  rintro ⟨-, -, -, -, -, h⟩
  obtain ⟨-, h, -⟩ := h State.lastGrid 0 0 emptyGrid rfl
  obtain ⟨he, -⟩ := h ⟨rfl, rfl, rfl⟩ rfl rfl
  have hs := graphs_gridCompletion_lastGrid
  rw [he rfl] at hs
  exact absurd hs (by decide)

end Sys2Proof.Machine
end

section
/-! PROOFS. What an exchange of lanes leaves in a group that receives lanes (R21, R62). -/

namespace Sys2Proof.Machine

open Sys2Proof.Claims

/-! ### Lanes by their moves -/

theorem getLsbD_maskOf (l : List Nat) {i : Nat} (hi : i < 128) : (maskOf l).getLsbD i = decide (i ∈ l) := by
  have key : ∀ m : Mask, (l.foldl (fun m i => m ||| BitVec.ofNat 128 (2 ^ i)) m).getLsbD i = (m.getLsbD i || decide (i ∈ l)) := by
    induction l with
    | nil => simp
    | cons j t ih =>
      intro m
      rw [List.foldl_cons, ih, BitVec.getLsbD_or, BitVec.getLsbD_ofNat, Nat.testBit_two_pow]
      simp [hi, eq_comm, Bool.or_assoc]
  rw [maskOf, key 0]
  simp

theorem movedFrom_of_mem {moves : List (Nat × Nat)} (hn : (moves.map (·.2)).Nodup) {m : Nat × Nat} (hm : m ∈ moves) :
    movedFrom moves m.2 = some m.1 := by
  induction moves with
  | nil => exact absurd hm List.not_mem_nil
  | cons p t ih =>
    obtain ⟨hp, ht⟩ := List.nodup_cons.1 hn
    rcases List.mem_cons.1 hm with rfl | hm
    · simp [movedFrom]
    · have hne : p.2 ≠ m.2 := fun h => hp (List.mem_map.2 ⟨m, hm, h.symm⟩)
      have := ih ht hm
      simpa [movedFrom, hne] using this

theorem movedFrom_of_not {moves : List (Nat × Nat)} {l : Nat} (h : ∀ m ∈ moves, m.2 ≠ l) : movedFrom moves l = none := by
  have : moves.find? (fun m => decide (m.2 = l)) = none := by simpa using h
  rw [movedFrom, this]
  rfl

theorem mem_of_movedFrom {moves : List (Nat × Nat)} {l p : Nat} (h : movedFrom moves l = some p) : (p, l) ∈ moves := by
  obtain ⟨m, hm, rfl⟩ := Option.map_eq_some_iff.1 h
  have hl : m.2 = l := by simpa using List.find?_some hm
  exact hl ▸ List.mem_of_find?_eq_some hm

theorem getLsbD_receivedMask (src dst : Mask) (moves : List (Nat × Nat)) {l : Nat} (hl : l < 128) :
    (receivedMask src dst moves).getLsbD l = match movedFrom moves l with
      | some p => src.getLsbD p
      | none => dst.getLsbD l := by
  rw [receivedMask, getLsbD_maskOf _ hl]
  simp only [List.mem_filter, List.mem_range, hl, true_and]
  cases movedFrom moves l <;> simp

/-! ### Vector registers -/

/-- Slices of zeros put into a vector map. -/
def withZeros (v : Fmap Slice) (l : List (Nat × Nat)) : Fmap Slice :=
  l.foldl (fun v p => Fmap.insert v p.1 ⟨p.2, List.replicate 8 0, 0, 0⟩) v

theorem find_withZeros_out (l : List (Nat × Nat)) (v : Fmap Slice) {k : Nat} (h : k ∉ l.map (·.1)) :
    Fmap.find (withZeros v l) k = Fmap.find v k := by
  induction l generalizing v with
  | nil => rfl
  | cons p t ih =>
    obtain ⟨hp, ht⟩ := not_or.1 (fun h' => h (List.mem_cons.2 h'))
    exact (ih _ ht).trans (Fmap.find_insert_ne _ _ hp)

theorem find_withZeros_in (l : List (Nat × Nat)) (v : Fmap Slice) {k : Nat} (h : k ∈ l.map (·.1)) :
    ∃ id, Fmap.find (withZeros v l) k = some ⟨id, List.replicate 8 0, 0, 0⟩ := by
  induction l generalizing v with
  | nil => exact absurd h List.not_mem_nil
  | cons p t ih =>
    by_cases ht : k ∈ t.map (·.1)
    · exact ih _ ht
    · obtain rfl : k = p.1 := (List.mem_cons.1 h).resolve_right ht
      exact ⟨p.2, (find_withZeros_out t _ ht).trans (Fmap.find_insert_same _ _ _)⟩

theorem mem_newQuarters {src dst : Group} {moves : List (Nat × Nat)} {k : Nat} : k ∈ newQuarters src dst moves ↔
    ∃ n, (∃ p ∈ src.v, p.1 / 16 = n) ∧ ∃ m ∈ moves, (Fmap.find src.v (vkey n (m.1 / 8))).isSome = true ∧
      Fmap.find dst.v (vkey n (m.2 / 8)) = none ∧ vkey n (m.2 / 8) = k := by
  rw [newQuarters, (distinct_nodup _).2, List.mem_flatMap]
  simp only [(distinct_nodup _).2, List.mem_map, List.mem_filterMap, Bool.and_eq_true, Option.isNone_iff_eq_none, Option.ite_none_right_eq_some,
    Option.some.injEq, and_assoc]

theorem find_newQuarters {src dst : Group} {moves : List (Nat × Nat)} {k : Nat} (h : k ∈ newQuarters src dst moves) :
    Fmap.find dst.v k = none := by
  obtain ⟨n, -, m, -, -, hd, rfl⟩ := mem_newQuarters.1 h
  exact hd

/-- A name that the sender holds where a move begins is held by the receiver where the move ends, or gets a slice there. -/
theorem newQuarters_of_held {src dst : Group} {moves : List (Nat × Nat)} {m : Nat × Nat} {r : Nat} (hm : m ∈ moves) (hl : m.1 < 128)
    (hs : (Fmap.find src.v (vkey r (m.1 / 8))).isSome = true) (hd : Fmap.find dst.v (vkey r (m.2 / 8)) = none) :
    vkey r (m.2 / 8) ∈ newQuarters src dst moves := by
  obtain ⟨sl, hsl⟩ := Option.isSome_iff_exists.1 hs
  exact mem_newQuarters.2 ⟨r, ⟨_, Fmap.mem_of_find hsl, vkey_div (by omega)⟩, m, hm, hs, hd, rfl⟩

/-- A slice of the receiving group after the exchange, with the load that it depends on. -/
def receivedAt (src dst : Group) (moves : List (Nat × Nat)) (k : Nat) (sl : Slice) : Slice :=
  { receivedSlice src moves k sl with dep := max dst.lastLoad src.lastLoad }

theorem find_receivedV (src dst : Group) (moves : List (Nat × Nat)) (ids : List Nat) (k : Nat) : Fmap.find (receivedV src dst moves ids) k =
    (Fmap.find (withZeros dst.v ((newQuarters src dst moves).zip ids)) k).map (receivedAt src dst moves k) :=
  Fmap.find_mapVals (receivedAt src dst moves) _ k

section
variable {src dst : Group} {moves : List (Nat × Nat)} {ids : List Nat} (hids : ids.length = (newQuarters src dst moves).length)
include hids

theorem map_fst_zip_newQuarters : ((newQuarters src dst moves).zip ids).map (·.1) = newQuarters src dst moves :=
  List.map_fst_zip hids.ge

theorem Group.readV_receive (hm : ∀ m ∈ moves, m.1 < 128 ∧ m.2 < 128) (r : Nat) {l : Nat} (hl : l < 128) :
    (dst.receive src moves ids).readV r l = match movedFrom moves l with
      | some p => src.readV r p
      | none => dst.readV r l := by
  have hkey : vkey r (l / 8) / 16 = r ∧ 8 * (vkey r (l / 8) % 16) + l % 8 = l := by unfold vkey; omega
  have hnew : ∀ sl : Slice, Fmap.find (receivedV src dst moves ids) (vkey r (l / 8)) =
        some (receivedAt src dst moves (vkey r (l / 8)) sl) →
      dst.readV r l = sl.val.getD (l % 8) 0 →
      (dst.receive src moves ids).readV r l = match movedFrom moves l with
        | some p => src.readV r p
        | none => dst.readV r l := by
    intro sl hf hd
    have hlane : (dst.receive src moves ids).readV r l = (receivedAt src dst moves (vkey r (l / 8)) sl).val.getD (l % 8) 0 := by
      rw [Group.readV]
      change (match Fmap.find (receivedV src dst moves ids) _ with | some sl => _ | none => _) = _
      rw [hf]
    rw [hlane, hd]
    have h8 : l % 8 < 8 := Nat.mod_lt _ (by decide)
    simp only [receivedAt, receivedSlice, List.map_map, List.getD_eq_getElem?_getD, List.getElem?_map, List.getElem?_range h8, Option.map_some,
      Option.getD_some, Function.comp, hkey]
    cases movedFrom moves l <;> rfl
  have hfind := find_receivedV src dst moves ids (vkey r (l / 8))
  by_cases hk : vkey r (l / 8) ∈ newQuarters src dst moves
  · obtain ⟨id, hz⟩ := find_withZeros_in ((newQuarters src dst moves).zip ids) dst.v
      (by rw [map_fst_zip_newQuarters hids]; exact hk)
    rw [hz] at hfind
    refine hnew _ hfind ?_
    rw [Group.readV, find_newQuarters hk]
    exact (List.getD_replicate 0 (Nat.mod_lt l (by decide))).symm
  · rw [find_withZeros_out _ _ (by rw [map_fst_zip_newQuarters hids]; exact hk)] at hfind
    cases hd : Fmap.find dst.v (vkey r (l / 8)) with
    | some sl =>
      rw [hd] at hfind
      exact hnew sl hfind (by rw [Group.readV, hd])
    | none =>
      rw [hd] at hfind
      have hz : (dst.receive src moves ids).readV r l = 0 := by
        rw [Group.readV]
        change (match Fmap.find (receivedV src dst moves ids) _ with | some sl => _ | none => _) = _
        rw [hfind]
        rfl
      rw [hz]
      cases hmv : movedFrom moves l with
      | none => exact (by rw [Group.readV, hd] : dst.readV r l = 0).symm
      | some p =>
        have hmem := mem_of_movedFrom hmv
        cases hs : Fmap.find src.v (vkey r (p / 8)) with
        | none => exact (by rw [Group.readV, hs] : src.readV r p = 0).symm
        | some sl => exact absurd (newQuarters_of_held (m := (p, l)) hmem (hm _ hmem).1 (by rw [hs]; rfl) hd) hk

end

/-! ### Flags and masks -/

theorem get_putMoves_out (src : Group) (moves : List (Nat × Nat)) (fl : Fmap (BitVec 6)) {l : Nat} (h : ∀ m ∈ moves, m.2 ≠ l) :
    Fmap.get 0 (moves.foldl (fun fl p => Fmap.put 0 fl p.2 (src.flag p.1)) fl) l = Fmap.get 0 fl l := by
  induction moves generalizing fl with
  | nil => rfl
  | cons p t ih =>
    rw [List.foldl_cons, ih _ (fun m hm => h m (List.mem_cons_of_mem _ hm)), Fmap.get_put, if_neg (h p List.mem_cons_self).symm]

theorem get_putMoves_in (src : Group) {moves : List (Nat × Nat)} (hn : (moves.map (·.2)).Nodup) (fl : Fmap (BitVec 6)) {m : Nat × Nat}
    (hm : m ∈ moves) : Fmap.get 0 (moves.foldl (fun fl p => Fmap.put 0 fl p.2 (src.flag p.1)) fl) m.2 = src.flag m.1 := by
  induction moves generalizing fl with
  | nil => exact absurd hm List.not_mem_nil
  | cons p t ih =>
    obtain ⟨hp, ht⟩ := List.nodup_cons.1 hn
    rw [List.foldl_cons]
    rcases List.mem_cons.1 hm with rfl | hm
    · rw [get_putMoves_out src t _ (fun q hq he => hp (List.mem_map.2 ⟨q, hq, he⟩)), Fmap.get_put, if_pos rfl]
    · exact ih ht _ hm

theorem Group.mask_receive (src dst : Group) (moves : List (Nat × Nat)) (ids : List Nat) {k : Nat} (h1 : 1 ≤ k) (h7 : k ≤ 7) :
    (dst.receive src moves ids).mask k = receivedMask (src.mask k) (dst.mask k) moves := by
  have key : ∀ (f : Nat → Mask) (m : Fmap Mask), Fmap.get 0 ((List.range 7).foldl (fun m k => Fmap.insert m (k + 1) (f (k + 1))) m) k = f k := by
    intro f m
    simp only [show List.range 7 = [0, 1, 2, 3, 4, 5, 6] from rfl, List.foldl_cons, List.foldl_nil, Fmap.get_insert]
    interval_cases k <;> rfl
  rw [Group.mask, if_neg (by omega)]
  exact key (fun k => receivedMask (src.mask k) (dst.mask k) moves) dst.m

/-! ### The two sides of an exchange -/

/-- Group `z` has the lanes of `y` that `moves` names first where it names them second, and else those of `x`. -/
def Received (x y z : Group) (moves : List (Nat × Nat)) : Prop :=
  let same := fun (l' : Nat) (z' : Group) (l : Nat) => (∀ r, z.readV r l' = z'.readV r l) ∧ z.flag l' = z'.flag l ∧
    ∀ k, 1 ≤ k → k ≤ 7 → (z.mask k).getLsbD l' = (z'.mask k).getLsbD l
  (∀ m ∈ moves, same m.2 y m.1) ∧ ∀ l, l < 128 → (∀ m ∈ moves, m.2 ≠ l) → same l x l

theorem received_receive {x y : Group} {moves : List (Nat × Nat)} {ids : List Nat} (hids : ids.length = (newQuarters y x moves).length)
    (hn : (moves.map (·.2)).Nodup) (hm : ∀ m ∈ moves, m.1 < 128 ∧ m.2 < 128) : Received x y (x.receive y moves ids) moves := by
  refine ⟨fun m hmem => ⟨fun r => ?_, get_putMoves_in y hn x.flags hmem, fun k h1 h7 => ?_⟩,
    fun l hl hout => ⟨fun r => ?_, get_putMoves_out y moves x.flags hout, fun k h1 h7 => ?_⟩⟩
  · rw [Group.readV_receive hids hm r (hm m hmem).2, movedFrom_of_mem hn hmem]
  · rw [Group.mask_receive y x moves ids h1 h7, getLsbD_receivedMask _ _ _ (hm m hmem).2, movedFrom_of_mem hn hmem]
  · rw [Group.readV_receive hids hm r hl, movedFrom_of_not hout]
  · rw [Group.mask_receive y x moves ids h1 h7, getLsbD_receivedMask _ _ _ hl, movedFrom_of_not hout]

theorem Received.congr {x y z z' : Group} {moves : List (Nat × Nat)} (h : Received x y z moves) (hv : z'.v = z.v) (hf : z'.flags = z.flags)
    (hm : z'.m = z.m) : Received x y z' moves := by
  have hr : ∀ r l, z'.readV r l = z.readV r l := fun r l => by rw [Group.readV, Group.readV, hv]
  have hfl : ∀ l, z'.flag l = z.flag l := fun l => by rw [Group.flag, Group.flag, hf]
  have hmk : ∀ k, 1 ≤ k → z'.mask k = z.mask k := fun k hk => by rw [Group.mask, Group.mask, if_neg (by omega), if_neg (by omega), hm]
  obtain ⟨h1, h2⟩ := h
  exact ⟨fun m hmem => ⟨fun r => (hr _ _).trans ((h1 m hmem).1 r), (hfl _).trans (h1 m hmem).2.1,
      fun k hk h7 => by rw [hmk k hk]; exact (h1 m hmem).2.2 k hk h7⟩,
    fun l hl ho => ⟨fun r => (hr _ _).trans ((h2 l hl ho).1 r), (hfl _).trans (h2 l hl ho).2.1,
      fun k hk h7 => by rw [hmk k hk]; exact (h2 l hl ho).2.2 k hk h7⟩⟩

theorem exchanged_of_received {x y x' y' : Group} {moves : List (Nat × Nat)} (hx : Received x y x' moves)
    (hy : Received y x y' (swapped moves)) : Exchanged x y x' y' moves := by
  have hmem : ∀ m ∈ moves, (m.2, m.1) ∈ swapped moves := fun m hm => List.mem_map.2 ⟨m, hm, rfl⟩
  refine ⟨fun m hm => ⟨hx.1 m hm, hy.1 _ (hmem m hm)⟩, fun l hl => ⟨hx.2 l hl, fun ho => hy.2 l hl (fun p hp => ?_)⟩⟩
  obtain ⟨m, hm, rfl⟩ := List.mem_map.1 hp
  exact ho m hm

end Sys2Proof.Machine
end

section
/-! PROOFS. The return of the lanes at the VELSE or VEND that ends a compaction (R21, R62, R171). -/

namespace Sys2Proof.Machine

open Sys2Proof.Claims

/-! ### The pool as an instruction without sources sees it -/

theorem Fmap.mem_insert_of_find {α : Type} {m : Fmap α} {k : Nat} {v : α} (h : Fmap.find m k = some v) (p : Nat × α) :
    p ∈ Fmap.insert m k v ↔ p ∈ m := by
  induction m with
  | nil => simp [Fmap.find] at h
  | cons q t ih =>
    obtain ⟨k', v'⟩ := q
    by_cases he : k' = k
    · obtain rfl : v' = v := by simpa [Fmap.find, he] using h
      simp [Fmap.insert, he]
    · have ht : Fmap.find t k = some v := by simpa [Fmap.find, he] using h
      have hv := Fmap.mem_of_find ht
      by_cases hlt : k < k'
      · rw [Fmap.insert, if_pos hlt, List.mem_cons (a := p)]
        exact ⟨fun h' => h'.elim (fun h' => h' ▸ List.mem_cons_of_mem _ hv) id, .inr⟩
      · rw [Fmap.insert, if_neg hlt, if_neg (Ne.symm he), List.mem_cons, List.mem_cons, ih ht]

theorem length_distinct_congr {l l' : List Nat} (h : ∀ a, a ∈ l ↔ a ∈ l') : (distinct l).length = (distinct l').length :=
  ((List.perm_ext_iff_of_nodup (distinct_nodup l).1 (distinct_nodup l').1).2
    (fun a => by rw [(distinct_nodup l).2, (distinct_nodup l').2, h])).length_eq

theorem State.room_congr {s t : State} (hg : ∀ p, p ∈ t.groups ↔ p ∈ s.groups) (hp : t.pend = s.pend) (hw : t.wgs = s.wgs) (k nv ns : Nat) :
    t.room k nv ns = s.room k nv ns := by
  have hv : ∀ j, (t.slicesOf j).length = (s.slicesOf j).length := fun j =>
    length_distinct_congr fun a => by simp only [List.mem_append, List.mem_flatMap, hg, hp]
  have he : ∀ j, (t.entriesOf j).length = (s.entriesOf j).length := fun j =>
    length_distinct_congr fun a => by simp only [List.mem_append, List.mem_flatMap, hg, hp]
  simp only [State.room, State.vfree, State.sfree, State.wgsOn, State.endedOn, State.wg, hw, hv, he]
  rfl

/-! ### Both sides -/

theorem nodup_swapped {moves : List (Nat × Nat)} : (swapped moves).map (·.2) = moves.map (·.1) := by
  simp [swapped, List.map_map, Function.comp_def]

/-- What an exchange leaves of its two groups, and of everything else. -/
theorem State.exchange_spec (s : State) {a b : Nat} {moves : List (Nat × Nat)} (h1 : (moves.map (·.1)).Nodup)
    (h2 : (moves.map (·.2)).Nodup) (hm : ∀ m ∈ moves, m.1 < 128 ∧ m.2 < 128) : ∃ i j,
      s.exchange a b moves = (s.setGroup a ((s.group a).receive (s.group b) moves i)).setGroup b
        ((s.group b).receive (s.group a) (swapped moves) j) ∧
      Received (s.group a) (s.group b) ((s.group a).receive (s.group b) moves i) moves ∧
      Received (s.group b) (s.group a) ((s.group b).receive (s.group a) (swapped moves) j) (swapped moves) := by
  have hlen : (freshIds (s.usedSlices (s.coreOf a)) (s.exchangeNeed a b moves)).length = s.exchangeNeed a b moves := freshIds_length _ _
  refine ⟨_, _, rfl, received_receive ?_ h2 hm, received_receive ?_ (by rwa [nodup_swapped]) (fun m hmem => ?_)⟩
  · rw [List.length_take, hlen, State.exchangeNeed]
    omega
  · rw [List.length_drop, hlen, State.exchangeNeed]
    omega
  · obtain ⟨p, hp, rfl⟩ := List.mem_map.1 hmem
    exact ⟨(hm p hp).2, (hm p hp).1⟩

/-- Group `z`, which held a compaction, after its lanes have returned: `m` is what is left of its top mask. -/
def Group.released (z : Group) (m : Mask) : Group := { z.dropLatches.nextInterval.setTop m with holder := none, hlr := [] }

/-- Group `z`, which was parked, woken at `pc` with the top mask `m`. -/
def Group.woken (z : Group) (m : Mask) (pc : Dword) : Group :=
  { z.dropLatches.nextInterval.setTop m with parked := none, pc := pc, hlr := [], hrun := 0 }

theorem Group.setTop_eq (x : Group) (m : Mask) : x.setTop m = { x with mstk := (x.setTop m).mstk } := by
  unfold Group.setTop
  split <;> rfl

theorem Group.setTop_mstk {x : Group} {e : MaskEntry} {rest : List MaskEntry} (h : x.mstk = e :: rest) (m : Mask) :
    (x.setTop m).mstk = { e with mask := m } :: rest := by
  rw [Group.setTop, h]

theorem Group.released_eq (z : Group) (m : Mask) : z.released m =
    { z.dropLatches with interval := z.interval + 1, mstk := (z.setTop m).mstk, holder := none, hlr := [] } := by
  rw [Group.released, Group.setTop_eq]
  rw [show (z.dropLatches.nextInterval.setTop m).mstk = (z.setTop m).mstk by unfold Group.setTop; cases hz : z.mstk <;> simp [Group.dropLatches, Group.nextInterval, hz]]
  rfl

theorem Group.woken_eq (z : Group) (m : Mask) (pc : Dword) : z.woken m pc =
    { z.dropLatches with interval := z.interval + 1, mstk := (z.setTop m).mstk, parked := none, pc := pc, hlr := [], hrun := 0 } := by
  rw [Group.woken, Group.setTop_eq]
  rw [show (z.dropLatches.nextInterval.setTop m).mstk = (z.setTop m).mstk by unfold Group.setTop; cases hz : z.mstk <;> simp [Group.dropLatches, Group.nextInterval, hz]]
  rfl


/-- The group that ends a compaction, and its partner, after the lanes have returned. -/
structure Returned (s t : State) (h : Compaction) (x y : Group) : Prop where
  world : t = { s with groups := t.groups }
  me : t.group s.cur = x.released (s.me.curMask &&& ~~~ maskOf (h.moves.map (·.2)))
  partner : t.group h.partner =
    y.woken (receivedMask s.me.curMask (s.group h.partner).curMask (swapped h.moves)) s.me.trapPc
  others : ∀ k, k ≠ s.cur → k ≠ h.partner → t.group k = s.group k

theorem endCompaction_eq {s : State} {h : Compaction} (hh : s.me.holder = some h) (hlevel : h.level = s.me.mstk.length)
    (hb : h.partner ≠ s.cur) (hout : s.resultsOut s.cur = false) (h1 : (h.moves.map (·.1)).Nodup) (h2 : (h.moves.map (·.2)).Nodup)
    (hm : ∀ m ∈ h.moves, m.1 < 128 ∧ m.2 < 128) (hroom : s.room s.me.wg (s.exchangeNeed s.cur h.partner h.moves) 0 = true)
    (k : State → Body) : ∃ i j t, endCompaction s k = k t ∧
      Returned s t h (s.me.receive (s.group h.partner) h.moves i) ((s.group h.partner).receive s.me (swapped h.moves) j) ∧
      Received s.me (s.group h.partner) (s.me.receive (s.group h.partner) h.moves i) h.moves ∧
      Received (s.group h.partner) s.me ((s.group h.partner).receive s.me (swapped h.moves) j) (swapped h.moves) := by
  obtain ⟨i, j, he, hx, hy⟩ := s.exchange_spec (a := s.cur) (b := h.partner) h1 h2 hm
  have hhold : (s.group s.cur).holder = some h := hh
  have hlev : (h.level != (s.group s.cur).mstk.length) = false := bne_eq_false_iff_eq.2 hlevel
  refine ⟨i, j, ((s.setGroup s.cur (s.me.receive (s.group h.partner) h.moves i)).setGroup h.partner
      (((s.group h.partner).receive s.me (swapped h.moves) j).woken
        (receivedMask s.me.curMask (s.group h.partner).curMask (swapped h.moves)) s.me.trapPc)).modGroup s.cur
      (fun z => z.released (s.me.curMask &&& ~~~ maskOf (h.moves.map (·.2)))), ?_, ⟨?_, ?_, ?_, ?_⟩, hx, hy⟩
  · simp only [endCompaction, hhold, hlev, hout, show s.room (s.group s.cur).wg _ 0 = true from hroom, Bool.not_true, Bool.false_eq_true,
      if_false, he, State.modGroup_setGroup]
    rfl
  · rfl
  · rw [State.group_modGroup_same, State.group_setGroup_ne _ _ hb.symm, State.group_setGroup_same]
  · rw [State.group_modGroup_ne _ _ hb, State.group_setGroup_same]
  · intro k hk hkb
    rw [State.group_modGroup_ne _ _ hk, State.group_setGroup_ne _ _ hkb, State.group_setGroup_ne _ _ hk]

theorem Returned.topReturned {s t : State} {h : Compaction} {x y : Group} (hr : Returned s t h x y) (hy : y.mstk = (s.group h.partner).mstk)
    (h1 : (h.moves.map (·.1)).Nodup) (hm : ∀ m ∈ h.moves, m.1 < 128 ∧ m.2 < 128) :
    TopReturned (s.group h.partner) (t.group h.partner) s.me.curMask h.moves := by
  have hmstk : (t.group h.partner).mstk = (y.setTop (receivedMask s.me.curMask (s.group h.partner).curMask (swapped h.moves))).mstk := by
    rw [hr.partner, Group.woken_eq]
  refine ⟨fun h0 => ?_, fun e rest he => ?_⟩
  · rw [hmstk, Group.setTop, hy, h0]
    exact hy.trans h0
  · have hcur : (s.group h.partner).curMask = e.mask := by rw [Group.curMask, he]
    rw [Group.setTop_mstk (hy.trans he), hcur] at hmstk
    refine ⟨_, hmstk, rfl, fun p hp => ?_, fun l hl ho => ?_⟩
    · have hsw : (p.2, p.1) ∈ swapped h.moves := List.mem_map.2 ⟨p, hp, rfl⟩
      rw [getLsbD_receivedMask _ _ _ (hm p hp).1, movedFrom_of_mem (by rwa [nodup_swapped]) hsw]
    · rw [getLsbD_receivedMask _ _ _ hl, movedFrom_of_not fun m hmem => ?_]
      obtain ⟨p, hp, rfl⟩ := List.mem_map.1 hmem
      exact ho p hp

/-! ### VELSE and VEND -/

/-- Group `z` after a VELSE or VEND, with mask stack `l`: the instruction's update of the signature, and then that with the current
mask (R317). -/
def Group.reconverged (z : Group) (l : List MaskEntry) (word : Nat) (m : Mask) (pc : Dword) : Group :=
  let y := { z with mstk := l, pc := pc, hlr := [], bundle := none, stall := none }
  { y with sig := sigMask (sigStep z.sig word m) y.curMask }

theorem reconverge_eq {i : Instr} (hi : (Instr.info i).srcs = []) {t : State} (m : Mask) (pc : Dword) (hh : t.me.hlr = []) :
    reconverge (Instr.info i) t m pc = .left (t.setGroup t.cur (t.me.reconverged t.me.mstk (Instr.info i).word m pc)) := by
  have hcomp : (t.me.freeRegs (t.me.lastReads (Instr.info i))).completed (Instr.info i).word m pc =
      { t.me with sig := sigStep t.me.sig (Instr.info i).word m, pc := pc, bundle := none, stall := none, hlr := [] } := by
    rw [Group.lastReads_of_no_srcs hi, show t.me.freeRegs [] = t.me from rfl, Group.completed, hh]
    simp
  change Body.left ((t.modGroup t.cur _).modGroup t.cur _) = _
  rw [State.modGroup_modGroup, State.modGroup_eq]
  have : (t.group t.cur) = t.me := rfl
  simp only [this, hcomp]
  rfl

/-- An instruction that ends a compaction and goes on with the mask stack `l` at `pc` (R21, R62, R171). -/
def EndsWith (i : Instr) (s : State) (h : Compaction) (m : Mask) (l : List MaskEntry) (pc : Dword) : Prop :=
  let x := s.me
  let y := s.group h.partner
  let kept := m &&& ~~~ maskOf (h.moves.map (·.2))
  let loads := max x.lastLoad y.lastLoad
  ∃ t, exec i s = .next t ∧ t = { s with groups := t.groups } ∧ (∀ k, k ≠ s.cur → k ≠ h.partner → t.group k = s.group k) ∧
    Exchanged x y (t.group s.cur) (t.group h.partner) h.moves ∧ TopReturned y (t.group h.partner) m h.moves ∧
    (let z := t.group s.cur
     z = { x.dropLatches with
             holder := none, interval := x.interval + 1, lastLoad := loads, past := z.past, v := z.v, m := z.m, flags := z.flags
             mstk := l, pc := pc, sig := sigMask (sigStep x.sig (Instr.info i).word (kept &&& fullMask x.width)) z.curMask
             hlr := [], bundle := none, stall := none }) ∧
    let z := t.group h.partner
    z = { y.dropLatches with
            parked := none, pc := x.trapPc, interval := y.interval + 1, lastLoad := loads, past := z.past, v := z.v, m := z.m
            flags := z.flags, mstk := z.mstk, hlr := [], hrun := 0 }

section
variable {i : Instr} {s : State} {h : Compaction} {top : MaskEntry} {rest : List MaskEntry} (hi : (Instr.info i).srcs = [])
  (hr : Ready i s) (hstk : s.me.mstk = top :: rest) (hh : s.me.holder = some h) (hlevel : h.level = s.me.mstk.length)
  (hb : h.partner ≠ s.cur) (hout : s.resultsOut s.cur = false) (h1 : (h.moves.map (·.1)).Nodup) (h2 : (h.moves.map (·.2)).Nodup)
  (hm : ∀ m ∈ h.moves, m.1 < 128 ∧ m.2 < 128) (hroom : s.room s.me.wg (s.exchangeNeed s.cur h.partner h.moves) 0 = true)
include hi hr hstk hh hlevel hb hout h1 h2 hm hroom

theorem endsWith_of {body k : State → Body} {l : List MaskEntry} {pc : Dword} (he : exec i s = issue (Instr.info i) body s)
    (hbody : body (s.seen i) = endCompaction (s.seen i) k)
    (hk : ∀ t : State, t.cur = s.cur → t.me.mstk = { top with mask := top.mask &&& ~~~ maskOf (h.moves.map (·.2)) } :: rest → t.me.pc = s.me.pc →
      t.me.width = s.me.width → t.me.hlr = [] → k t = .left (t.setGroup t.cur (t.me.reconverged l (Instr.info i).word
        (top.mask &&& ~~~ maskOf (h.moves.map (·.2)) &&& fullMask s.me.width) pc))) : EndsWith i s h top.mask l pc := by
  have hg := State.seen_group_of_no_srcs s hi
  have hme : (s.seen i).me = s.me := hg s.cur
  have hfind : Fmap.find s.groups s.cur = some s.me := by
    cases hf : Fmap.find s.groups s.cur with
    | some x => rw [State.me, State.group_of_find hf]
    | none =>
      rw [State.me, State.group, Fmap.get, hf] at hh
      exact absurd hh (by simp [Group.fresh])
  have hgroups : ∀ p, p ∈ (s.seen i).groups ↔ p ∈ s.groups := by
    rw [State.seen_groups, State.reader_of_no_srcs s hi]
    exact Fmap.mem_insert_of_find hfind
  have hcur : s.me.curMask = top.mask := by rw [Group.curMask, hstk]
  have hneed : s.room s.me.wg ((s.seen i).exchangeNeed s.cur h.partner h.moves) 0 = true := by
    simpa only [State.exchangeNeed, hg] using hroom
  obtain ⟨a, b, t, ht, hret, hx, hy⟩ := endCompaction_eq (s := s.seen i) (hme.symm ▸ hh) (hme.symm ▸ hlevel) hb hout h1 h2 hm
    (by rw [State.room_congr hgroups rfl rfl, hme]; exact hneed) k
  have htop := hret.topReturned rfl h1 hm
  obtain ⟨hw, hz, hp, ho⟩ := hret
  simp only [hme, hg, hcur, State.seen_cur] at hx hy hz hp ho htop
  have htcur : t.cur = s.cur := by rw [hw]; rfl
  have hmz : t.me = t.group s.cur := by rw [State.me, htcur]
  have hz' := hz.trans (Group.released_eq _ _)
  have hp' := hp.trans (Group.woken_eq _ _ _)
  have hkt := hk t htcur (by rw [hmz, hz']; exact Group.setTop_mstk (x := s.me.receive _ _ a) hstk _) (by rw [hmz, hz']; rfl) (by rw [hmz, hz']; rfl) (by rw [hmz, hz'])
  rw [hmz, htcur] at hkt
  refine ⟨_, he.trans (issue_left hr (hbody.trans (ht.trans hkt))), ?_, fun k hkc hkp => ?_, ?_, ?_, ?_, ?_⟩
  · rw [hw]
    rfl
  · rw [State.group_setGroup_ne _ _ hkc, ho k hkc hkp]
  · rw [State.group_setGroup_same, State.group_setGroup_ne _ _ hb]
    exact exchanged_of_received (hx.congr (by rw [hz']; rfl) (by rw [hz']; rfl) (by rw [hz']; rfl))
      (hy.congr (by rw [hp']; rfl) (by rw [hp']; rfl) (by rw [hp']; rfl))
  · rw [State.group_setGroup_ne _ _ hb]
    exact htop
  · simp only [State.group_setGroup_same]
    rw [hz']
    rfl
  · simp only [State.group_setGroup_ne _ _ hb]
    rw [hp', Nat.max_comm]
    rfl

end

end Sys2Proof.Machine
end

section
/-! PROOFS. VELSE and VEND at the level of a compaction, and the exchange that begins one (R21, R62, R171). -/

namespace Sys2Proof.Machine

open Sys2Proof.Claims

theorem frozenTop_eq {x : Group} (h : ¬ frozen x) : x.frozenTop = false := by
  rw [Group.frozenTop]
  cases hr : x.region with
  | none => rfl
  | some r => simpa using fun hle => h ⟨r, hr, hle⟩

theorem parentMask_eq (x : Group) : x.parentMask = below x := rfl

/-- What VELSE does once no compaction ends at it, on the entry `top` of the mask stack (R168). -/
def velseRest (top : MaskEntry) (s : State) : Body :=
  let x := s.me
  let m := x.parentMask &&& ~~~ x.curMask
  reconverge (Instr.info .velse)
    (s.modGroup s.cur (fun y => { y with mstk := (match y.mstk with | e :: rest => { e with mask := m, resume := 0 } :: rest | [] => []) }))
    (x.execMask 0) (if m = 0 then top.recon else nextPc x.pc)

/-- What VEND does once no compaction ends at it, on the entry `top` above `rest` (R170). -/
def vendRest (top : MaskEntry) (rest : List MaskEntry) (s : State) : Body :=
  let x := s.me
  if top.resume.getLsbD 0 && x.curMask != 0 then reconverge (Instr.info .vend) s (x.execMask 0) (top.resume - 1)
  else reconverge (Instr.info .vend) (s.modGroup s.cur (fun y => { y with mstk := rest })) (x.execMask 0) (nextPc x.pc)

/-- A reconvergence after a change of the mask stack. -/
theorem reconverge_of_mstk {i : Instr} (hi : (Instr.info i).srcs = []) {t : State} {f : Group → Group} {l : List MaskEntry}
    (hf : f t.me = { t.me with mstk := l }) (m : Mask) (pc : Dword) (hh : t.me.hlr = []) :
    reconverge (Instr.info i) (t.modGroup t.cur f) m pc = .left (t.setGroup t.cur (t.me.reconverged l (Instr.info i).word m pc)) := by
  have hme : (t.modGroup t.cur f).me = { t.me with mstk := l } := (State.group_modGroup_same _ _ _).trans hf
  rw [reconverge_eq hi m pc (by rw [hme]; exact hh), hme, State.modGroup_eq]
  change Body.left ((t.setGroup t.cur _).setGroup t.cur _) = _
  rw [State.setGroup_setGroup]
  rfl

section
variable {s : State} {h : Compaction} {top : MaskEntry} {rest : List MaskEntry}
  (hstk : s.me.mstk = top :: rest) (hf : ¬ frozen s.me) (hh : s.me.holder = some h) (hlevel : h.level = s.me.mstk.length)
  (hb : h.partner ≠ s.cur) (hout : s.resultsOut s.cur = false) (h1 : (h.moves.map (·.1)).Nodup) (h2 : (h.moves.map (·.2)).Nodup)
  (hm : ∀ m ∈ h.moves, m.1 < 128 ∧ m.2 < 128) (hroom : s.room s.me.wg (s.exchangeNeed s.cur h.partner h.moves) 0 = true)
include hstk hf hh hlevel hb hout h1 h2 hm hroom

theorem velse_ends (hr : Ready .velse s) (h0 : top.resume ≠ 0) (hpc : top.resume = s.me.pc) :
    let other := below s.me &&& ~~~ (top.mask &&& ~~~ maskOf (h.moves.map (·.2)))
    EndsWith .velse s h top.mask ({ top with mask := other, resume := 0 } :: rest) (if other = 0 then top.recon else nextPc s.me.pc) := by
  have hme : (s.seen .velse).me = s.me := State.seen_group_of_no_srcs s rfl s.cur
  have hcond : (top.resume = 0 || top.resume != s.me.pc) = false := by rw [← hpc]; simpa using h0
  refine endsWith_of rfl hr hstk hh hlevel hb hout h1 h2 hm hroom (show exec .velse s = execVelse s from rfl) (k := velseRest top)
    ?_ fun t htc hts htp htw hth => ?_
  · simp only [hme, hstk, hcond, frozenTop_eq hf, Bool.false_eq_true, if_false]
    rfl
  · have hcur : t.me.curMask = top.mask &&& ~~~ maskOf (h.moves.map (·.2)) := by rw [Group.curMask, hts]
    have hbelow : t.me.parentMask = below s.me := by
      rw [parentMask_eq, below, below, hts, hstk, htw]
      cases rest <;> rfl
    rw [velseRest, reconverge_of_mstk rfl (by rw [hts]) _ _ hth]
    simp only [hcur, hbelow, htp, Group.execMask, show t.me.mask 0 = fullMask s.me.width by rw [← htw]; rfl]

theorem vend_ends (hr : Ready .vend s) (hpc : top.recon = s.me.pc) :
    let kept := top.mask &&& ~~~ maskOf (h.moves.map (·.2))
    let repeats := top.resume.getLsbD 0 = true ∧ kept ≠ 0
    EndsWith .vend s h top.mask (if repeats then { top with mask := kept } :: rest else rest)
      (if repeats then top.resume - 1 else nextPc s.me.pc) := by
  have hme : (s.seen .vend).me = s.me := State.seen_group_of_no_srcs s rfl s.cur
  have hcond : (s.me.pc != top.recon) = false := by simp [hpc]
  refine endsWith_of rfl hr hstk hh hlevel hb hout h1 h2 hm hroom (show exec .vend s = execVend s from rfl) (k := vendRest top rest)
    ?_ fun t htc hts htp htw hth => ?_
  · simp only [hme, hstk, hcond, frozenTop_eq hf, Bool.false_eq_true, if_false]
    rfl
  · have hcur : t.me.curMask = top.mask &&& ~~~ maskOf (h.moves.map (·.2)) := by rw [Group.curMask, hts]
    have hexec : t.me.execMask 0 = top.mask &&& ~~~ maskOf (h.moves.map (·.2)) &&& fullMask s.me.width := by
      rw [Group.execMask, hcur, ← htw]
      rfl
    rw [vendRest]
    simp only [hcur, hexec, htp, Bool.and_eq_true, bne_iff_ne]
    split
    · rw [reconverge_eq rfl _ _ hth, hts]
    · rw [reconverge_of_mstk rfl rfl _ _ hth]

end

/-! ### The exchange that begins a compaction -/

theorem nodup_zip (a b : List Nat) : (a.Nodup → ((a.zip b).map (·.1)).Nodup) ∧ (b.Nodup → ((a.zip b).map (·.2)).Nodup) := by
  induction a generalizing b with
  | nil => simp
  | cons x a ih => cases b with
    | nil => simp
    | cons y b =>
      refine ⟨fun h => ?_, fun h => ?_⟩
      all_goals
        obtain ⟨hx, ht⟩ := List.nodup_cons.1 h
        refine List.nodup_cons.2 ⟨fun hm => ?_, ?_⟩
      · obtain ⟨p, hp, hpx⟩ := List.mem_map.1 hm
        exact hx ((show p.1 = x from hpx) ▸ (List.of_mem_zip hp).1)
      · exact (ih b).1 ht
      · obtain ⟨p, hp, hpx⟩ := List.mem_map.1 hm
        exact hx ((show p.2 = y from hpx) ▸ (List.of_mem_zip hp).2)
      · exact (ih b).2 ht

theorem compactMoves_lanes (x y : Group) (hw : x.width ≤ 128) : ((compactMoves x y).map (·.1)).Nodup ∧ ((compactMoves x y).map (·.2)).Nodup ∧
    ∀ m ∈ compactMoves x y, m.1 < 128 ∧ m.2 < 128 := by
  refine ⟨(nodup_zip _ _).1 (lanesOf_nodup _), (nodup_zip _ _).2 (List.nodup_range.filter _), fun m hm => ?_⟩
  obtain ⟨h1, h2⟩ := List.of_mem_zip (a := m.1) (b := m.2) hm
  have hr : m.1 ∈ List.range 128 := (List.mem_filter.1 h1).1
  have hf : m.2 ∈ List.range x.width := (List.mem_filter.1 h2).1
  exact ⟨List.mem_range.1 hr, lt_of_lt_of_le (List.mem_range.1 hf) hw⟩

theorem compactCode_self (s : State) (a b : Group) : s.compactCode a b = compactStatus s a b :=
  compactCode_eq rfl rfl fun x y h => State.futurePending_congr rfl (fun _ => rfl) ⟨by rw [h], by rw [h]⟩

/-- Both groups of a GCOMPACT that passes every check have a mask stack (R21). -/
theorem mstk_of_compactStatus {s : State} {a b : Group} (h : compactStatus s a b = 0) : ∃ e r, a.mstk = e :: r := by
  by_contra hn
  have hno : ¬ ∃ e r e' r', a.mstk = e :: r ∧ b.mstk = e' :: r' ∧ r.length = r'.length ∧ e.recon = e'.recon :=
    fun ⟨e, r, _, _, he, _⟩ => hn ⟨e, r, he⟩
  rw [compactStatus, if_pos hno, sharedStatus] at h
  split_ifs at h

theorem Group.meets.congr {x y : Group} {d : BitVec 6} (h : x.meets d) (hw : y.wait = x.wait) : y.meets d := by
  rwa [Group.meets, hw]

theorem Group.departed_eq (x : Group) (d : BitVec 6) (code id : Nat) {w : Wait} (hw : w.frees = []) : x.departed d code id w =
    { x.dropLatches with
        s := (x.writeS d.toNat (BitVec.ofNat 32 code) id none).s, sig := sigStep x.sig w.word w.exec, pc := nextPc x.pc, bundle := none
        stall := none, wait := none, hlr := [] } := by
  rw [Group.departed, Group.endedWait, hw]
  rfl

/-- Groups have left rendezvous between `s` and `t`, and none but those of `gs`. -/
structure LeftBy (gs : List Nat) (s t : State) : Prop where
  world : t = { s with groups := t.groups, pend := t.pend }
  fewer : ∀ p ∈ t.pend, p ∈ s.pend
  results : ∀ p ∈ s.pend, p.2.kind ≠ .status → p ∈ t.pend
  others : ∀ h, h ∉ gs → t.group h = s.group h
  rising : Fmap.risingFrom 0 s.groups = true → Fmap.risingFrom 0 t.groups = true

theorem LeftBy.refl (gs : List Nat) (s : State) : LeftBy gs s s := ⟨rfl, fun _ => id, fun _ h _ => h, fun _ _ => rfl, id⟩

theorem LeftBy.trans {gs : List Nat} {s t u : State} (h1 : LeftBy gs s t) (h2 : LeftBy gs t u) : LeftBy gs s u := by
  obtain ⟨a1, b1, c1, d1, e1⟩ := h1
  obtain ⟨a2, b2, c2, d2, e2⟩ := h2
  exact ⟨by rw [a2, a1], fun p hp => b1 p (b2 p hp), fun p hp hk => c2 p (c1 p hp hk) hk, fun h hh => (d2 h hh).trans (d1 h hh), e2 ∘ e1⟩

theorem leftBy_setGroup (s : State) {gs : List Nat} {g : Nat} (v : Group) (hg : g ∈ gs) : LeftBy gs s (s.setGroup g v) :=
  ⟨rfl, fun _ => id, fun _ h _ => h, fun _ hh => State.group_setGroup_ne _ _ (fun he => hh (he ▸ hg)),
    Fmap.risingFrom_insert v (Nat.zero_le _)⟩

theorem leftBy_leaveRendezvous (s : State) {gs : List Nat} {g : Nat} (code : Nat) (hg : g ∈ gs) : LeftBy gs s (s.leaveRendezvous g code) := by
  unfold State.leaveRendezvous
  split
  · exact .refl gs s
  · next d _ =>
    have hdrop : LeftBy gs s (s.dropHold g) :=
      ⟨rfl, fun p hp => (List.mem_filter.1 hp).1, fun p hp hk => List.mem_filter.2 ⟨hp, by simp [hk]⟩, fun _ _ => rfl, id⟩
    have hend : ∀ u : State, LeftBy gs u (u.endWait g) := fun u => by
      unfold State.endWait
      split
      · exact .refl gs u
      · exact leftBy_setGroup u _ hg
    exact (hdrop.trans ((leftBy_setGroup _ _ hg).trans (hend _))).trans (leftBy_setGroup _ _ hg)

theorem leftBy_foldl (gs : List Nat) (code : Nat) (l : List (Nat × Group)) (s : State) (hl : ∀ p ∈ l, p.1 ∈ gs) :
    LeftBy gs s (l.foldl (fun s p => s.leaveRendezvous p.1 code) s) := by
  induction l generalizing s with
  | nil => exact .refl gs s
  | cons p l ih =>
    exact (leftBy_leaveRendezvous s code (hl p List.mem_cons_self)).trans (ih _ (fun q hq => hl q (List.mem_cons_of_mem _ hq)))

/-! ### The two groups after the exchange -/

/-- Group `x` as the holder of a compaction with its partner `b`, after it has received its lanes. -/
def Group.holding (z x : Group) (b : Nat) (moves : List (Nat × Nat)) : Group :=
  { z.setTop (x.curMask ||| maskOf (moves.map (·.2))) with holder := some ⟨x.mstk.length, b, moves⟩ }

theorem Group.holding_eq (z x : Group) (b : Nat) (moves : List (Nat × Nat)) : z.holding x b moves =
    { z with mstk := (z.setTop (x.curMask ||| maskOf (moves.map (·.2)))).mstk, holder := some ⟨x.mstk.length, b, moves⟩ } := by
  rw [Group.holding, Group.setTop_eq]

/-- What the exchange that completes a GCOMPACT leaves of groups `a` and `b` before any other group is turned away. -/
structure Compacted (s t : State) (a b : Nat) (moves : List (Nat × Nat)) (da db : BitVec 6) : Prop where
  left : LeftBy [a, b] s t
  holder : ∃ i id w, w.frees = [] ∧ t.group a =
    (((((s.group a).receive (s.group b) moves i).holding (s.group a) b moves).departed da 0 id w)).nextInterval
  received : Received (s.group a) (s.group b) (t.group a) moves
  parked : ∃ j id w, w.frees = [] ∧ t.group b =
    { (((s.group b).receive (s.group a) (swapped moves) j).departed db 0 id w).nextInterval with parked := some a }
  sent : Received (s.group b) (s.group a) (t.group b) (swapped moves)

/-- The exchange of a GCOMPACT before other groups are turned away. -/
def State.compactPair (s : State) (a b : Nat) : State :=
  let moves := compactMoves (s.group a) (s.group b)
  let t := (s.exchange a b moves).modGroup a (fun z => z.holding (s.group a) b moves)
  (((t.leaveRendezvous a 0).leaveRendezvous b 0).modGroup a Group.nextInterval).modGroup b (fun z => { z.nextInterval with parked := some a })

theorem State.compact_eq (s : State) (a b : Nat) : s.compact a b =
    (s.compactPair a b).resolveRendezvous (s.group a).wg (s.group a).base (2 * (s.group a).width) 13 := rfl

/-- Two groups leave their rendezvous, one after the other. -/
theorem leave_pair {u : State} {a b : Nat} {da db : BitVec 6} (code : Nat) (hab : a ≠ b) (ha : (u.group a).meets da) (hb : (u.group b).meets db) :
    ∃ ia wa ib wb, wa.frees = [] ∧ wb.frees = [] ∧
      ((u.leaveRendezvous a code).leaveRendezvous b code).group a = (u.group a).departed da code ia wa ∧
      ((u.leaveRendezvous a code).leaveRendezvous b code).group b = (u.group b).departed db code ib wb := by
  have hub : (u.leaveRendezvous a code).group b = u.group b :=
    (leftBy_leaveRendezvous u code (List.mem_singleton_self a)).others b (by simpa using hab.symm)
  obtain ⟨ia, wa, hwa, hua⟩ := State.leaveRendezvous_eq code ha
  obtain ⟨ib, wb, hwb, hv⟩ := State.leaveRendezvous_eq (s := u.leaveRendezvous a code) code (hub.symm ▸ hb)
  refine ⟨ia, wa, ib, wb, hwa, hwb, ?_, ?_⟩
  · rw [hv, State.group_setGroup_ne _ _ hab]
    change (u.leaveRendezvous a code).group a = _
    rw [hua, State.group_setGroup_same]
  · rw [hv, State.group_setGroup_same, hub]

theorem compacted_pair {s : State} {a b : Nat} {da db : BitVec 6} (hab : a ≠ b) (hw : (s.group a).width ≤ 128) (ha : (s.group a).meets da)
    (hb : (s.group b).meets db) : Compacted s (s.compactPair a b) a b (compactMoves (s.group a) (s.group b)) da db := by
  obtain ⟨h1, h2, hm⟩ := compactMoves_lanes (s.group a) (s.group b) hw
  obtain ⟨i, j, he, hx, hy⟩ := s.exchange_spec (a := a) (b := b) h1 h2 hm
  generalize hmoves : compactMoves (s.group a) (s.group b) = moves at *
  generalize hX : (s.group a).receive (s.group b) moves i = X at *
  generalize hY : (s.group b).receive (s.group a) (swapped moves) j = Y at *
  have hH := Group.holding_eq X (s.group a) b moves
  have hta : (((s.setGroup a X).setGroup b Y).modGroup a (fun z => z.holding (s.group a) b moves)).group a = X.holding (s.group a) b moves := by
    rw [State.group_modGroup_same, State.group_setGroup_ne _ _ hab, State.group_setGroup_same]
  have htb : (((s.setGroup a X).setGroup b Y).modGroup a (fun z => z.holding (s.group a) b moves)).group b = Y := by
    rw [State.group_modGroup_ne _ _ hab.symm, State.group_setGroup_same]
  obtain ⟨ia, wa, ib, wb, hwa, hwb, hga, hgb⟩ := leave_pair (a := a) (b := b) 0 hab
    (by rw [hta]; exact ha.congr (by rw [hH, ← hX]; rfl)) (by rw [htb]; exact hb.congr (by rw [← hY]; rfl))
  rw [hta] at hga
  rw [htb] at hgb
  have ham : a ∈ [a, b] := List.mem_cons_self
  have hbm : b ∈ [a, b] := List.mem_cons_of_mem _ List.mem_cons_self
  have ht : s.compactPair a b = ((((((s.setGroup a X).setGroup b Y).modGroup a (fun z => z.holding (s.group a) b moves)).leaveRendezvous a
      0).leaveRendezvous b 0).modGroup a Group.nextInterval).modGroup b (fun z => { z.nextInterval with parked := some a }) := by
    rw [State.compactPair, hmoves, he]
  have hza : (s.compactPair a b).group a = ((X.holding (s.group a) b moves).departed da 0 ia wa).nextInterval := by
    rw [ht, State.group_modGroup_ne _ _ hab, State.group_modGroup_same, hga]
  have hzb : (s.compactPair a b).group b = { (Y.departed db 0 ib wb).nextInterval with parked := some a } := by
    rw [ht, State.group_modGroup_same, State.group_modGroup_ne _ _ hab.symm, hgb]
  refine ⟨?_, ⟨i, ia, wa, hwa, hX ▸ hza⟩, ?_, ⟨j, ib, wb, hwb, hY ▸ hzb⟩, ?_⟩
  · rw [ht]
    exact ((((((leftBy_setGroup _ _ ham).trans (leftBy_setGroup _ _ hbm)).trans (leftBy_setGroup _ _ ham)).trans
      (leftBy_leaveRendezvous _ 0 ham)).trans (leftBy_leaveRendezvous _ 0 hbm)).trans (leftBy_setGroup _ _ ham)).trans (leftBy_setGroup _ _ hbm)
  · rw [hza, Group.departed_eq _ _ _ _ hwa, hH]
    exact hx.congr rfl rfl rfl
  · rw [hzb, Group.departed_eq _ _ _ _ hwb]
    exact hy.congr rfl rfl rfl

/-- The groups turned away from their rendezvous on lanes [b, b + n) of workgroup `k` wait there. -/
theorem leftBy_resolveRendezvous (u : State) (k b n code : Nat) (hr : Fmap.risingFrom 0 u.groups = true) : ∃ gs,
    LeftBy gs u (u.resolveRendezvous k b n code) ∧ ∀ h ∈ gs, ∃ b' n' d, (u.group h).rendezvous = some (b', n', d) ∧ (u.group h).wg = k ∧
      (u.group h).status = .live ∧ b' < b + n ∧ b < b' + n' := by
  refine ⟨_, leftBy_foldl _ code _ u fun p hp => List.mem_map.2 ⟨p, hp, rfl⟩, fun h hh => ?_⟩
  obtain ⟨p, hp, rfl⟩ := List.mem_map.1 hh
  obtain ⟨hp, hc⟩ := List.mem_filter.1 hp
  rw [← State.group_of_mem hr hp] at hc
  simp only [Bool.and_eq_true, decide_eq_true_eq] at hc
  obtain ⟨⟨hk, hlive⟩, hm⟩ := hc
  cases hrd : (u.group p.1).rendezvous with
  | none => simp [hrd] at hm
  | some q =>
    obtain ⟨b', n', d⟩ := q
    simp only [hrd, Bool.and_eq_true, decide_eq_true_eq] at hm
    exact ⟨b', n', d, rfl, hk, hlive, hm.1, hm.2⟩

theorem rendezvous_of_no_wait {x : Group} (h : x.wait = none) : x.rendezvous = none := by rw [Group.rendezvous, h]

/-- The latches of a departed group are invalid. -/
theorem dropLatches_invalid (x : Group) : ∀ l ∈ x.dropLatches.sk ++ x.dropLatches.vk, l.valid = false := by
  intro l hl
  rcases List.mem_append.1 hl with hl | hl
  all_goals
    obtain ⟨k, -, rfl⟩ := List.mem_map.1 hl
    rfl

theorem exec_compactionExchange {s : State} {a b : Nat} {da db : BitVec 6} {w w' : Nat} {e e' : Mask} (hsib : s.sibling a = some b)
    (hla : (s.group a).status = .live) (hlb : (s.group b).status = .live) (hwa : (s.group a).wait = some ⟨.compact da, w, e, []⟩)
    (hwb : (s.group b).wait = some ⟨.compact db, w', e', []⟩) (hbase : (s.group a).base < (s.group b).base)
    (hres : (s.wgOf a).state = .resident) (hcode : compactStatus s (s.group a) (s.group b) = 0) (hva : s.vectorLoadsOut a = false)
    (hvb : s.vectorLoadsOut b = false) (hma : s.matrixBusy a = false) (hmb : s.matrixBusy b = false)
    (hroom : s.room (s.group a).wg (s.exchangeNeed a b (compactMoves (s.group a) (s.group b))) 0 = true) :
    exec (.compactionExchange a) s = .next (s.compact a b) := by
  have ha : (s.group a).inCompact = true := by simp [Group.inCompact, hwa, hla]
  have hb : (s.group b).inCompact = true := by simp [Group.inCompact, hwb, hlb]
  have hr : (s.wg (s.group a).wg).state = .resident := hres
  change execCompactionExchange a s = _
  simp [execCompactionExchange, hsib, ha, hb, hbase, hr, compactCode_self, hcode, hva, hvb, hma, hmb, hroom]

/-- What a party to an exchange has become: it has gone on, told OK in register `d`, with invalid latches and its own return stack and
scalars. -/
structure ToldOk (x y : Group) (d : BitVec 6) : Prop where
  wait : y.wait = none
  ok : y.readS d.toNat = 0
  pc : y.pc = nextPc x.pc
  rstk : y.rstk = x.rstk
  scalars : ∀ n, n ≠ d.toNat → Fmap.find y.s n = Fmap.find x.s n
  latches : ∀ l ∈ y.sk ++ y.vk, l.valid = false

theorem ToldOk.congr {x y z : Group} {d : BitVec 6} (h : ToldOk x y d) (hw : z.wait = y.wait) (hs : z.s = y.s) (hp : z.pc = y.pc)
    (hr : z.rstk = y.rstk) (hl : z.sk = y.sk ∧ z.vk = y.vk) : ToldOk x z d := by
  obtain ⟨h1, h2, h3, h4, h5, h6⟩ := h
  exact ⟨hw.trans h1, by rwa [Group.readS, hs], hp.trans h3, hr.trans h4, by rwa [hs], by rwa [hl.1, hl.2]⟩

theorem toldOk_departed {x z : Group} (d : BitVec 6) (id : Nat) {w : Wait} (hw : w.frees = []) (hs : x.s = z.s) (hp : x.pc = z.pc)
    (hr : x.rstk = z.rstk) : ToldOk z (x.departed d 0 id w) d := by
  rw [Group.departed_eq _ _ _ _ hw]
  refine ⟨rfl, (Group.readS_writeS x d.toNat d.toNat 0 id none).trans (if_pos rfl), congrArg nextPc hp, hr, fun n hn => ?_,
    dropLatches_invalid x⟩
  exact (Group.find_writeS x d.toNat n 0 id none).trans ((if_neg hn).trans (by rw [hs]))

theorem Compacted.told {s t : State} {a b : Nat} {moves : List (Nat × Nat)} {da db : BitVec 6} (h : Compacted s t a b moves da db) :
    ToldOk (s.group a) (t.group a) da ∧ ToldOk (s.group b) (t.group b) db := by
  obtain ⟨-, ⟨i, ia, va, hva, hga⟩, -, ⟨j, ib, vb, hvb, hgb⟩, -⟩ := h
  have hH := Group.holding_eq ((s.group a).receive (s.group b) moves i) (s.group a) b moves
  rw [hga, hgb]
  exact ⟨(toldOk_departed da ia hva (by rw [hH]; rfl) (by rw [hH]; rfl) (by rw [hH]; rfl)).congr rfl rfl rfl rfl ⟨rfl, rfl⟩,
    (toldOk_departed (x := (s.group b).receive (s.group a) (swapped moves) j) (z := s.group b) db ib hvb rfl rfl rfl).congr rfl rfl rfl rfl ⟨rfl, rfl⟩⟩

theorem Compacted.parties {s t : State} {a b : Nat} {moves : List (Nat × Nat)} {da db : BitVec 6} {e : MaskEntry} {r : List MaskEntry}
    (h : Compacted s t a b moves da db) (hstk : (s.group a).mstk = e :: r) :
    (t.group a).holder = some ⟨(s.group a).mstk.length, b, moves⟩ ∧ (t.group b).parked = some a ∧
      (t.group a).curMask = (s.group a).curMask ||| maskOf (moves.map (·.2)) ∧ (t.group b).mstk = (s.group b).mstk := by
  obtain ⟨-, ⟨i, ia, va, hva, hga⟩, -, ⟨j, ib, vb, hvb, hgb⟩, -⟩ := h
  have ha := Group.departed_eq (((s.group a).receive (s.group b) moves i).holding (s.group a) b moves) da 0 ia hva
  have hb := Group.departed_eq ((s.group b).receive (s.group a) (swapped moves) j) db 0 ib hvb
  have hH := Group.holding_eq ((s.group a).receive (s.group b) moves i) (s.group a) b moves
  have hm : (t.group a).mstk = { e with mask := (s.group a).curMask ||| maskOf (moves.map (·.2)) } :: r := by
    rw [hga, ha, hH]
    exact Group.setTop_mstk (x := (s.group a).receive _ _ i) hstk _
  refine ⟨by rw [hga, ha]; rfl, by rw [hgb], ?_, by rw [hgb, hb]; rfl⟩
  rw [Group.curMask, hm]

theorem Compacted.exchanged {s t : State} {a b : Nat} {moves : List (Nat × Nat)} {da db : BitVec 6} (h : Compacted s t a b moves da db) :
    Exchanged (s.group a) (s.group b) (t.group a) (t.group b) moves := exchanged_of_received h.received h.sent

/-- Settles O21: what each group receives in the lanes that move, at the exchange and at the return, and what else each becomes. -/
theorem compactedLanes : Obligations.CompactedLanes := by
  unfold Obligations.CompactedLanes
  refine ⟨?_, ?_⟩
  · intro a b s da db w w' e e' hsib hla hlb hwa hwb hbase hres hcode hva hvb hma hmb hw hab hrise moves hroom
    have hp := compacted_pair hab hw (.inr ⟨w, e, hwa⟩ : (s.group a).meets da) (.inr ⟨w', e', hwb⟩ : (s.group b).meets db)
    obtain ⟨top, rest, hstk⟩ := mstk_of_compactStatus hcode
    obtain ⟨hta, htb⟩ := hp.told
    obtain ⟨h1, h2, h3, h4⟩ := hp.parties hstk
    obtain ⟨gs, hl, hgs⟩ := leftBy_resolveRendezvous (s.compactPair a b) (s.group a).wg (s.group a).base (2 * (s.group a).width) 13
      (hp.left.rising hrise)
    rw [← State.compact_eq] at hl
    have hno : ∀ g, ((s.compactPair a b).group g).wait = none → (s.compact a b).group g = (s.compactPair a b).group g := fun g hg =>
      hl.others g fun hm => by
        obtain ⟨b', n', d, hrd, -⟩ := hgs g hm
        rw [rendezvous_of_no_wait hg] at hrd
        cases hrd
    have hga := hno a hta.wait
    have hgb := hno b htb.wait
    refine ⟨_, exec_compactionExchange hsib hla hlb hwa hwb hbase hres hcode hva hvb hma hmb hroom, by rw [hl.world, hp.left.world],
      fun p hp' => hp.left.fewer p (hl.fewer p hp'), fun p hp' hk => hl.results p (hp.left.results p hp' hk) hk, ?_⟩
    rw [hga, hgb]
    refine ⟨h1, h2, hta.wait, htb.wait, hta.ok, htb.ok, h3, h4, ?_, hp.exchanged, fun h hha hhb hout => ?_⟩
    · intro p hpm
      rcases List.mem_pair.1 hpm with rfl | rfl
      · exact hga.symm ▸ ⟨hta.pc, hta.rstk, hta.scalars, hta.latches⟩
      · exact hgb.symm ▸ ⟨htb.pc, htb.rstk, htb.scalars, htb.latches⟩
    · have hsame := hp.left.others h (by simp [hha, hhb])
      refine (hl.others h fun hm => ?_).trans hsame
      obtain ⟨b', n', d, hrd, hk, hlive, h5, h6⟩ := hgs h hm
      rw [hsame] at hrd hk hlive
      have := hout b' n' d hrd hk hlive
      omega
  · intro i hi s h top rest hr hstk hpc hf hh hlevel hb hout h1 h2 hm hroom
    obtain rfl | rfl : i = .velse ∨ i = .vend := by simpa using hi
    · obtain ⟨h0, hp⟩ := hpc
      exact velse_ends hstk hf hh hlevel hb hout h1 h2 hm hroom hr h0 hp
    · exact vend_ends hstk hf hh hlevel hb hout h1 h2 hm hroom hr hpc

end Sys2Proof.Machine
end

section
/-! PROOFS. The weights of the arbiter and its starvation guard (R30, R33). -/

namespace Sys2Proof.Machine

open Sys2Proof.Claims

/-! ### Lists in rising order of a key -/

theorem mem_insertBy {α : Type} (key : α → Nat) (x a : α) (l : List α) : a ∈ insertBy key x l ↔ a = x ∨ a ∈ l := by
  induction l with
  | nil => simp [insertBy]
  | cons y t ih =>
    unfold insertBy
    split
    · simp
    · rw [List.mem_cons, ih, List.mem_cons]
      tauto

theorem pairwise_insertBy {α : Type} (key : α → Nat) (x : α) {l : List α} (h : l.Pairwise (fun a b => key a ≤ key b)) :
    (insertBy key x l).Pairwise (fun a b => key a ≤ key b) := by
  induction l with
  | nil => simp [insertBy]
  | cons y t ih =>
    obtain ⟨hy, ht⟩ := List.pairwise_cons.1 h
    unfold insertBy
    split
    · next hlt =>
      refine List.pairwise_cons.2 ⟨fun b hb => ?_, h⟩
      rcases List.mem_cons.1 hb with rfl | hb
      · exact hlt.le
      · exact hlt.le.trans (hy b hb)
    · next hle =>
      refine List.pairwise_cons.2 ⟨fun b hb => ?_, ih ht⟩
      rcases (mem_insertBy key x b t).1 hb with rfl | hb
      · exact Nat.le_of_not_lt hle
      · exact hy b hb

theorem sortBy_spec {α : Type} (key : α → Nat) (l : List α) :
    (∀ a, a ∈ sortBy key l ↔ a ∈ l) ∧ (sortBy key l).Pairwise (fun a b => key a ≤ key b) := by
  have h : ∀ m : List α, m.Pairwise (fun a b => key a ≤ key b) →
      (∀ a, a ∈ l.foldl (fun m x => insertBy key x m) m ↔ a ∈ m ∨ a ∈ l) ∧
        (l.foldl (fun m x => insertBy key x m) m).Pairwise (fun a b => key a ≤ key b) := by
    induction l with
    | nil => exact fun m hm => ⟨fun a => by simp, hm⟩
    | cons x t ih =>
      intro m hm
      obtain ⟨h1, h2⟩ := ih _ (pairwise_insertBy key x hm)
      refine ⟨fun a => ?_, h2⟩
      rw [List.foldl_cons, h1, mem_insertBy, List.mem_cons]
      tauto
  obtain ⟨h1, h2⟩ := h [] List.Pairwise.nil
  exact ⟨fun a => by rw [sortBy, h1]; simp, h2⟩

/-- Of a list in rising order the first `n` are the lowest. -/
theorem take_lowest {α : Type} {key : α → Nat} {l : List α} (h : l.Pairwise (fun a b => key a ≤ key b)) (n : Nat) {a : α} (ha : a ∈ l) :
    a ∈ l.take n ∨ (l.take n).length = n ∧ ∀ b ∈ l.take n, key b ≤ key a := by
  rw [← List.take_append_drop n l] at h ha
  rcases List.mem_append.1 ha with ha | ha
  · exact .inl ha
  · have hlen : 0 < (l.drop n).length := List.length_pos_of_mem ha
    rw [List.length_drop] at hlen
    exact .inr ⟨by rw [List.length_take]; omega, fun b hb => (List.pairwise_append.1 h).2.2 b hb a ha⟩

/-! ### The guard -/

/-- Groups changed one after another, each to what a second change leaves as it is. -/
theorem foldl_modGroup {f : Group → Group} (hf : ∀ x, f (f x) = f x) (l : List Nat) (s : State) :
    let t := l.foldl (fun t g => t.modGroup g f) s
    t = { s with groups := t.groups } ∧ ∀ g, t.group g = if g ∈ l then f (s.group g) else s.group g := by
  induction l generalizing s with
  | nil => exact ⟨rfl, fun g => by simp⟩
  | cons k l ih =>
    obtain ⟨h1, h2⟩ := ih (s.modGroup k f)
    refine ⟨h1, fun g => ?_⟩
    rw [List.foldl_cons, h2]
    by_cases hg : g = k
    · subst hg
      rw [State.group_modGroup_same]
      simp [hf]
    · rw [State.group_modGroup_ne _ _ hg]
      simp [hg]

theorem mem_overdue {s : State} {c g : Nat} : g ∈ s.overdue c ↔
    g ∈ s.residents c ∧ s.unblocked g = true ∧ (s.group g).readySince + 512 ≤ (s.die (c / 12)).ck.toNat := by
  rw [State.overdue, (sortBy_spec _ _).1, List.mem_filter, Bool.and_eq_true, decide_eq_true_eq]
  rfl

theorem guarded_of_overdue {s : State} {c : Nat} (h : s.overdue c ≠ []) :
    let t := s.guarded c
    t = { s with cores := t.cores, groups := t.groups } ∧ t.core c = { s.core c with guard := (s.overdue c).take 16 } ∧
      ∀ g, t.group g = if g ∈ s.residents c then { s.group g with hrun := 0 } else s.group g := by
  have hl : ((s.overdue c).take issueSlots).isEmpty = false := by
    rw [List.isEmpty_eq_false_iff]
    simp [issueSlots, h]
  obtain ⟨h1, h2⟩ := foldl_modGroup (f := fun x => { x with hrun := 0 }) (fun _ => rfl) (s.residents c)
    (s.setCore c { s.core c with guard := (s.overdue c).take issueSlots })
  have he : s.guarded c = (s.residents c).foldl (fun t g => t.modGroup g (fun x => { x with hrun := 0 }))
      (s.setCore c { s.core c with guard := (s.overdue c).take issueSlots }) := by
    simp only [State.guarded, hl, Bool.false_eq_true, if_false]
    rfl
  rw [he]
  refine ⟨by rw [h1]; rfl, ?_, h2⟩
  rw [h1]
  exact Fmap.get_insert_same _ _ _ _

theorem guard_outcome (s : State) (c : Nat) :
    (s.overdue c = [] → exec (.starvationGuard c) s = .next (s.setCore c { s.core c with guard := [] })) ∧
    (s.overdue c ≠ [] → ∃ t, exec (.starvationGuard c) s = .next t ∧ t = { s with cores := t.cores, groups := t.groups } ∧
      (t.core c) = { s.core c with guard := (t.core c).guard } ∧ (t.core c).guard.length ≤ 16 ∧ (t.core c).guard ≠ [] ∧
      (∀ g ∈ (t.core c).guard, (s.group g).readySince + 512 ≤ (s.die (c / 12)).ck.toNat ∧ s.unblocked g = true) ∧
      (t.core c).guard.Pairwise (fun g h => (s.group g).readySince ≤ (s.group h).readySince) ∧
      (∀ g ∈ s.residents c, s.unblocked g = true → (s.group g).readySince + 512 ≤ (s.die (c / 12)).ck.toNat →
        g ∈ (t.core c).guard ∨
          (t.core c).guard.length = 16 ∧ ∀ h ∈ (t.core c).guard, (s.group h).readySince ≤ (s.group g).readySince) ∧
      (∀ g ∈ s.residents c, t.group g = { s.group g with hrun := 0 }) ∧ ∀ g, g ∉ s.residents c → t.group g = s.group g) := by
  refine ⟨fun h => ?_, fun h => ?_⟩
  · change Host.Outcome.next (s.guarded c) = _
    simp only [State.guarded, h, List.take_nil, List.isEmpty_nil, if_true]
  · obtain ⟨h1, h2, h3⟩ := guarded_of_overdue h
    have hsorted : (s.overdue c).Pairwise (fun g h => (s.group g).readySince ≤ (s.group h).readySince) := (sortBy_spec _ _).2
    refine ⟨s.guarded c, rfl, h1, by rw [h2], ?_⟩
    rw [h2]
    refine ⟨List.length_take_le _ _, by simp [h], fun g hg => ?_, hsorted.sublist (List.take_sublist _ _), fun g hg hu hr => ?_,
      fun g hg => by rw [h3, if_pos hg], fun g hg => by rw [h3, if_neg hg]⟩
    · obtain ⟨-, hu, hr⟩ := mem_overdue.1 (List.mem_of_mem_take hg)
      exact ⟨hr, hu⟩
    · exact take_lowest hsorted 16 (mem_overdue.2 ⟨hg, hu, hr⟩)

/-! ### The weights -/

theorem find_foldl_insert {α : Type} (l : List (Nat × α)) {k : Nat} {v : α} (hl : ∀ p ∈ l, p.1 = k → p.2 = v) (m : Fmap α)
    (h : (∃ p ∈ l, p.1 = k) ∨ Fmap.find m k = some v) : Fmap.find (l.foldl (fun m p => Fmap.insert m p.1 p.2) m) k = some v := by
  induction l generalizing m with
  | nil => simpa using h
  | cons q t ih =>
    have ht : ∀ p ∈ t, p.1 = k → p.2 = v := fun p hp => hl p (List.mem_cons_of_mem _ hp)
    rw [List.foldl_cons]
    refine ih ht _ ?_
    by_cases hq : q.1 = k
    · exact .inr (by rw [hq, Fmap.find_insert_same, hl q List.mem_cons_self hq])
    · rcases h with ⟨p, hp, hk⟩ | h
      · exact .inl ⟨p, (List.mem_cons.1 hp).resolve_left (fun e => hq (e ▸ hk)), hk⟩
      · exact .inr (by rw [Fmap.find_insert_ne _ _ (Ne.symm hq), h])

theorem shareOf_eq (inQ outQ : Option (Nat × Nat)) : ((weightOf inQ outQ : Nat) : Int) = shareOf inQ outQ := by
  have hp : ∀ q, occTerm q = (match q with | some (occ, cap) => ((8 * occ / cap : Nat) : Int) | none => 0) := fun q => by
    cases q <;> rfl
  rw [weightOf, Int.toNat_of_nonneg (le_trans (by decide) (le_max_left _ _)), hp, hp]
  rfl

theorem mem_wgsOn {s : State} {c : Nat} {p : Nat × Wg} : p ∈ s.wgsOn c ↔ p ∈ s.wgs ∧ p.2.core = c ∧ p.2.state.onCore = true := by
  simp [State.wgsOn, Fmap.select]

/-- The weight of a stage of a workgroup on core `c`, as the queues are now. -/
theorem find_weightsNow {s : State} {c k j : Nat} {w : Wg} (hr : Fmap.risingFrom 0 s.wgs = true)
    (h8 : ∀ p ∈ s.wgs, p.2.kern.stages.length ≤ 8) (hk : Fmap.find s.wgs k = some w) (hc : w.core = c) (hw : w.state = .resident)
    (hj : j ∈ w.stageNumbers) : Fmap.find (s.weightsNow c) (8 * k + j) = some (s.stageWeight w j) := by
  have hlt : ∀ p ∈ s.wgs, ∀ i ∈ p.2.stageNumbers, i < 8 := fun p hp i hi => by
    unfold Wg.stageNumbers at hi
    split at hi
    · rw [List.mem_singleton.1 hi]
      decide
    · exact lt_of_lt_of_le (List.mem_range.1 hi) (h8 p hp)
  have hkw := Fmap.mem_of_find hk
  refine find_foldl_insert _ (fun p hp hpk => ?_) [] (.inl ⟨(candidateKey k j, s.stageWeight w j), ?_, rfl⟩)
  · obtain ⟨q, hq, hp⟩ := List.mem_flatMap.1 hp
    obtain ⟨i, hi, rfl⟩ := List.mem_map.1 hp
    obtain ⟨hqs, -⟩ := mem_wgsOn.1 hq
    have hi8 := hlt q hqs i hi
    have hj8 := hlt _ hkw j hj
    have heq : 8 * q.1 + i = 8 * k + j := hpk
    have hqk : q.1 = k := by omega
    have hij : i = j := by omega
    have hqf := Fmap.find_of_mem hr hqs
    rw [hqk, hk] at hqf
    rw [hij, ← Option.some.inj hqf]
  · exact List.mem_flatMap.2 ⟨(k, w), mem_wgsOn.2 ⟨hkw, hc, by rw [hw]; rfl⟩, List.mem_map.2 ⟨j, hj, rfl⟩⟩

theorem weights_outcome (s : State) (c : Nat) (h0 : (s.die (c / 12)).ck.toNat % 64 = 0) (hr : Fmap.risingFrom 0 s.wgs = true)
    (h8 : ∀ p ∈ s.wgs, p.2.kern.stages.length ≤ 8) :
    ∃ t, exec (.weightRecomputation c) s = .next t ∧ t = { s with cores := t.cores } ∧ (∀ e, e ≠ c → t.core e = s.core e) ∧
      (let k := s.core c
       let k' := t.core c
       let same := ∀ j ∈ k.cands, Fmap.get 8 k.weights j = Fmap.get 8 k'.weights j
       (same → k' = { k with weights := k'.weights }) ∧ (¬ same → k' = { k with weights := k'.weights, issues := [], cands := [] })) ∧
      ∀ k w, Fmap.find s.wgs k = some w → w.core = c → w.state = .resident →
        (w.kern.stages = [] → Fmap.find (t.core c).weights (8 * k) = some 8) ∧
        ∀ j, j < w.kern.stages.length → (Fmap.find (t.core c).weights (8 * k + j)).map (fun n => (n : Int)) =
          some (shareOf (if j = 0 then none else s.stageQueue w (j - 1)) (s.stageQueue w j)) := by
  have he : s.reweigh c = s.setCore c ((s.core c).reweighed (s.weightsNow c)) := by
    rw [State.reweigh, if_neg (by simpa [dieOfCore] using h0)]
  have hc : (s.reweigh c).core c = (s.core c).reweighed (s.weightsNow c) := by
    rw [he]
    exact Fmap.get_insert_same _ _ _ _
  have hws : ((s.core c).reweighed (s.weightsNow c)).weights = s.weightsNow c := by
    unfold Core.reweighed
    split <;> rfl
  refine ⟨s.reweigh c, rfl, by rw [he]; rfl, fun e hne => ?_, ?_, fun k w hk hwc hwr => ⟨fun hs => ?_, fun j hj => ?_⟩⟩
  · rw [he]
    exact Fmap.get_insert_ne _ _ _ hne
  · have hall : ((s.core c).cands.all (fun j => (s.core c).weight j = weightIn (s.weightsNow c) j)) = true ↔
        ∀ j ∈ (s.core c).cands, Fmap.get 8 (s.core c).weights j = Fmap.get 8 (s.weightsNow c) j := by
      simp only [List.all_eq_true, decide_eq_true_eq]
      rfl
    rw [hc]
    dsimp only
    rw [hws, ← hall]
    exact ⟨fun h => by rw [Core.reweighed, if_pos h], fun h => by rw [Core.reweighed, if_neg h]⟩
  · have := find_weightsNow (j := 0) hr h8 hk hwc hwr (by simp [Wg.stageNumbers, hs])
    rw [hc, hws, show 8 * k = 8 * k + 0 from rfl, this]
    simp [State.stageWeight, hs]
  · have hne : w.kern.stages ≠ [] := List.ne_nil_of_length_pos (Nat.zero_lt_of_lt hj)
    rw [hc, hws, find_weightsNow hr h8 hk hwc hwr (by simpa [Wg.stageNumbers, hne] using hj)]
    simp [State.stageWeight, hne, shareOf_eq]

end Sys2Proof.Machine
end

section
/-! PROOFS. Eviction and resumption of a workgroup (R63, R64). -/

namespace Sys2Proof.Machine

open Sys2Proof.Claims

/-! ### What an eviction writes -/

theorem mem_wholeUnits {ws : List Host.Cell} {u : Nat} (h : u ∈ wholeUnits ws) {i : Nat} (hi : i < 8) : ∃ w ∈ ws, w.1 = 8 * u + i := by
  have := List.all_eq_true.1 (List.mem_filter.1 h).2 i (List.mem_range.2 hi)
  simpa using this

theorem get_foldl_erase (l : List Nat) (m : Fmap Bool) {u : Nat} (h : u ∉ l) : Fmap.get false (l.foldl Fmap.erase m) u = Fmap.get false m u := by
  induction l generalizing m with
  | nil => rfl
  | cons v t ih =>
    obtain ⟨hv, ht⟩ := not_or.1 (fun h' => h (List.mem_cons.2 h'))
    rw [List.foldl_cons, ih _ ht, Fmap.get, Fmap.get, Fmap.find_erase, if_neg hv]

/-- A store of cells leaves the poison of a unit of which it does not write every byte. -/
theorem State.poison_storeCells (s : State) (ws : List Host.Cell) {u i : Nat} (hi : i < 8) (h : ∀ w ∈ ws, w.1 ≠ 8 * u + i) :
    Fmap.get false (s.storeCells ws).poison u = Fmap.get false s.poison u := by
  simp only [State.storeCells]
  split
  · next he => rw [List.isEmpty_iff.1 he]
  · refine get_foldl_erase _ _ fun hm => ?_
    obtain ⟨w, hw, he⟩ := mem_wholeUnits hm hi
    exact h w hw he

/-- What the hardware writes into an area lies in it (R64, R298). -/
theorem State.areaWritten_fillArea (s : State) (k d : Nat) (area : Dword) {units : Nat} (hu : units ≤ areaSize area) :
    AreaWritten s (s.fillArea k d area units) k d area := by
  have hcells : ∀ place, place ≤ areaSize area - units → ∀ f : Nat → Byte, ∀ w ∈ (List.range (65536 * units)).filterMap (fun i =>
      match s.ctxTarget k d (BitVec.ofNat 64 (area.toNat / 65536 % 17592186044416 * 65536 + 65536 * place + i)) .store with
      | .memory pa _ _ _ => if (s.die (paDie pa)).lost then none else some (pa, f i)
      | _ => none), InArea s k d area w.1 := by
    intro place hp f w hw
    obtain ⟨i, hi, hc⟩ := List.mem_filterMap.1 hw
    have hi := List.mem_range.1 hi
    have hsize : areaSize area = area.toNat % 65536 := rfl
    refine ⟨65536 * place + i, by omega, ?_⟩
    rw [← Nat.add_assoc]
    split at hc
    · next pa _ _ _ ht =>
      split at hc
      · cases hc
      · rw [← Option.some.inj hc]
        exact congrArg Target.loc? ht
    · cases hc
  have hplace : Config.areaPlace s.free % (areaSize area + 1 - units) ≤ areaSize area - units := by
    have := Nat.mod_lt (Config.areaPlace s.free) (show 0 < areaSize area + 1 - units by omega)
    omega
  have hw := hcells _ hplace (Config.areaByte s.free)
  exact ⟨fun a ha => State.byteAt_storeCells_ne _ _ a fun w hm he => ha (he ▸ hw w hm),
    fun u hn => State.poison_storeCells s.drawn _ (i := 0) (by decide) fun w hm he => hn 0 (by decide) (he ▸ hw w hm)⟩

theorem areaWritten_congr {s s' t t' : State} {k d : Nat} {area : Dword} (h : AreaWritten s t k d area)
    (hs : s.mem = s'.mem ∧ s.poison = s'.poison) (hc : ∀ va, s.ctxTarget k d va .store = s'.ctxTarget k d va .store)
    (ht : t'.mem = t.mem ∧ t'.poison = t.poison) : AreaWritten s' t' k d area := by
  have hin : ∀ a, InArea s k d area a → InArea s' k d area a := fun a ⟨i, hi, he⟩ => ⟨i, hi, by rw [← hc]; exact he⟩
  refine ⟨fun a ha => ?_, fun u hu => ?_⟩
  · rw [State.byteAt, State.byteAt, ht.1, ← hs.1]
    exact h.1 a (fun hi => ha (hin a hi))
  · rw [ht.2, ← hs.2]
    exact h.2 u (fun b hb hi => hu b hb (hin _ hi))

/-! ### Eviction -/

theorem State.ctxTarget_modGroupsOf (s : State) (j : Nat) (f : Group → Group) (k d : Nat) (va : Dword) (a : Acc) :
    (s.modGroupsOf j f).ctxTarget k d va a = s.ctxTarget k d va a := rfl

theorem State.group_modGroupsOf (s : State) (k : Nat) (f : Group → Group) (g : Nat) :
    (s.modGroupsOf k f).group g = s.group g ∨ (s.group g).wg = k ∧ (s.modGroupsOf k f).group g = f (s.group g) := by
  have hm : Fmap.find (s.modGroupsOf k f).groups g = (Fmap.find s.groups g).map (fun x => if x.wg = k then f x else x) :=
    Fmap.find_mapVals (fun _ (x : Group) => if x.wg = k then f x else x) s.groups g
  rw [State.group, State.group, Fmap.get, Fmap.get, hm]
  cases Fmap.find s.groups g with
  | none => exact .inl rfl
  | some x =>
    by_cases hx : x.wg = k
    · exact .inr ⟨hx, by simp [hx]⟩
    · exact .inl (by simp [hx])

/-- A live group as an eviction leaves it (R192). -/
def Group.offCore (x : Group) : Group := if x.status = .live then x.descheduled else x

theorem Group.offCore_registers (x : Group) : x.offCore.v = x.v ∧ x.offCore.s = x.s ∧ x.offCore.m = x.m := by
  unfold Group.offCore Group.descheduled
  split
  · dsimp only
    split <;> exact ⟨rfl, rfl, rfl⟩
  · exact ⟨rfl, rfl, rfl⟩

/-- A workgroup evicted where its spill area has room (R64). -/
structure Evicted (s t : State) (k : Nat) : Prop where
  world : t = { s with groups := t.groups, wgs := t.wgs, mem := t.mem, poison := t.poison, free := s.free + 1 }
  area : AreaWritten s t (s.wg k).ctx ((s.wg k).core / 12) (Fmap.get 0 (s.ctx (s.wg k).ctx).spill ((s.wg k).core / 12))
  wg : t.wg k = { s.wg k with state := .evicted, excessV := (s.slicesOf k).length - (s.wg k).resV
                              excessS := (s.entriesOf k).length - (s.wg k).resS }
  wgs : ∀ m, m ≠ k → t.wg m = s.wg m
  others : ∀ g, (s.group g).wg ≠ k → t.group g = s.group g
  registers : ∀ g, (t.group g).v = (s.group g).v ∧ (t.group g).s = (s.group g).s ∧ (t.group g).m = (s.group g).m

theorem evicted_of_fits {s : State} {k : Nat} (h : s.spillFits k = true) : Evicted s (s.evict k) k := by
  have hfit : s.spillNeed k ≤ areaSize (Fmap.get 0 (s.ctx (s.wg k).ctx).spill (dieOfCore (s.wg k).core)) := by
    have : s.spillUsed _ _ + s.spillNeed k ≤ areaSize _ := of_decide_eq_true h
    omega
  have ht : s.evict k = ((s.modGroupsOf k Group.offCore).fillArea (s.wg k).ctx (dieOfCore (s.wg k).core)
      (Fmap.get 0 (s.ctx (s.wg k).ctx).spill (dieOfCore (s.wg k).core)) (s.spillNeed k)).setWg k
        { s.wg k with state := .evicted, excessV := (s.slicesOf k).length - (s.wg k).resV, excessS := (s.entriesOf k).length - (s.wg k).resS } := by
    rw [State.evict, h]
    rfl
  have hg : ∀ g, (s.evict k).group g = (s.modGroupsOf k Group.offCore).group g := fun g => by rw [ht]; rfl
  refine ⟨by rw [ht]; rfl, ?_, by rw [ht]; exact Fmap.get_insert_same _ _ _ _, fun m hm => by rw [ht]; exact Fmap.get_insert_ne _ _ _ hm,
    fun g hne => ?_, fun g => ?_⟩
  · exact areaWritten_congr ((s.modGroupsOf k Group.offCore).areaWritten_fillArea _ _ _ hfit) ⟨rfl, rfl⟩ (fun _ => rfl)
      (by rw [ht]; exact ⟨rfl, rfl⟩)
  · rw [hg]
    exact (s.group_modGroupsOf k Group.offCore g).resolve_right (fun h => hne h.1)
  · rw [hg]
    rcases s.group_modGroupsOf k Group.offCore g with h | ⟨-, h⟩
    · exact h ▸ ⟨rfl, rfl, rfl⟩
    · exact h ▸ Group.offCore_registers _

end Sys2Proof.Machine
end

section
/-! PROOFS. What leaving a wait does to other groups (R174, R178, R233). -/

namespace Sys2Proof.Machine

open Sys2Proof.Claims

/-- Between `s` and `t` groups that meet `p` have changed, but for their regions and workgroups, and with them no more than cores, what is
in flight and memory. -/
structure Disturbed (s t : State) (p : Nat → Prop) : Prop where
  world : t = { s with groups := t.groups, cores := t.cores, pend := t.pend, mem := t.mem, poison := t.poison }
  others : ∀ h, ¬ p h → t.group h = s.group h
  region : ∀ h, (t.group h).region = (s.group h).region
  wg : ∀ h, (t.group h).wg = (s.group h).wg

theorem Disturbed.refl (s : State) (p : Nat → Prop) : Disturbed s s p := ⟨rfl, fun _ _ => rfl, fun _ => rfl, fun _ => rfl⟩

theorem Disturbed.trans {s t u : State} {p q : Nat → Prop} (h1 : Disturbed s t p) (h2 : Disturbed t u q) (h : ∀ g, q g → p g) :
    Disturbed s u p := by
  obtain ⟨a1, b1, c1, d1⟩ := h1
  obtain ⟨a2, b2, c2, d2⟩ := h2
  exact ⟨by rw [a2, a1], fun g hg => (b2 g (fun hq => hg (h g hq))).trans (b1 g hg), fun g => (c2 g).trans (c1 g),
    fun g => (d2 g).trans (d1 g)⟩

theorem Disturbed.mono {s t : State} {p q : Nat → Prop} (h : Disturbed s t p) (hpq : ∀ g, p g → q g) : Disturbed s t q :=
  (Disturbed.refl s q).trans h hpq

theorem disturbed_setGroup (s : State) {g : Nat} {y : Group} (hr : y.region = (s.group g).region) (hw : y.wg = (s.group g).wg) :
    Disturbed s (s.setGroup g y) (· = g) := by
  refine ⟨rfl, fun h hh => State.group_setGroup_ne _ _ hh, fun h => ?_, fun h => ?_⟩
  all_goals
    by_cases hh : h = g
    · subst hh
      rw [State.group_setGroup_same]
      assumption
    · rw [State.group_setGroup_ne _ _ hh]

theorem disturbed_modGroup (s : State) (g : Nat) {f : Group → Group} (hr : ∀ x, (f x).region = x.region) (hw : ∀ x, (f x).wg = x.wg) :
    Disturbed s (s.modGroup g f) (· = g) := disturbed_setGroup s (hr _) (hw _)

theorem disturbed_storeCells (s : State) (ws : List Host.Cell) (p : Nat → Prop) : Disturbed s (s.storeCells ws) p :=
  ⟨rfl, fun _ _ => rfl, fun _ => rfl, fun _ => rfl⟩

/-- A group that waits. -/
def State.waits_ (s : State) (g : Nat) : Prop := (s.group g).wait ≠ none

theorem Disturbed.still {s t : State} {p : Nat → Prop} (h : Disturbed s t p) {g : Nat} (hg : t.waits_ g) : s.waits_ g ∨ p g := by
  by_contra hn
  obtain ⟨h1, h2⟩ := not_or.1 hn
  exact h1 (by rwa [State.waits_, ← h.others g h2])

theorem Group.freeRegs_region (x : Group) (l : List (Nat × Nat)) : (x.freeRegs l).region = x.region ∧ (x.freeRegs l).wg = x.wg := by
  rw [Group.freeRegs_eq]
  exact ⟨rfl, rfl⟩

theorem disturbed_endWait (s : State) (g : Nat) : Disturbed s (s.endWait g) (· = g) := by
  unfold State.endWait
  split
  · exact .refl _ _
  · next w _ => exact disturbed_setGroup s (Group.freeRegs_region _ w.frees).1 (Group.freeRegs_region _ w.frees).2

/-- What one service of a queue can do: a group that waits there goes on, or back to its bundle. -/
theorem disturbed_serveOne {s t : State} {loc : Nat} (h : s.serveOne loc = some t) : Disturbed s t s.waits_ := by
  have hmod : ∀ (u : State) (g : Nat) {f : Group → Group}, s.waits_ g → (∀ x, (f x).region = x.region) → (∀ x, (f x).wg = x.wg) →
      Disturbed u (u.modGroup g f) s.waits_ := fun u g _ hg hr hw => (disturbed_modGroup u g hr hw).mono (by rintro _ rfl; exact hg)
  have hend : ∀ (u : State) (g : Nat), s.waits_ g → Disturbed u (u.endWait g) s.waits_ := fun u g hg =>
    (disturbed_endWait u g).mono (by rintro _ rfl; exact hg)
  have hput : ∀ (u : State) (g n : Nat) (m : Mask) (f : Nat → Word), s.waits_ g → Disturbed u (u.putV g n m f) s.waits_ := fun u g n m f hg =>
    Disturbed.mono (disturbed_setGroup u rfl rfl) (by rintro _ rfl; exact hg)
  simp only [State.serveOne, Option.or_eq_some_iff, Option.bind_eq_some_iff] at h
  rcases h with ⟨g, -, h⟩ | ⟨-, g, -, h⟩
  · split at h
    · next hw =>
      have hg : s.waits_ g := by rw [State.waits_, hw]; simp
      split at h
      · cases h
      · split at h
        · cases h
          exact hmod s g hg (fun _ => rfl) (fun _ => rfl)
        · cases h
          exact (((disturbed_storeCells s _ _).trans (hput _ g _ _ _ hg) fun _ => id).trans (hend _ g hg) fun _ => id).trans
            (hmod _ g hg (fun _ => rfl) (fun _ => rfl)) fun _ => id
    · cases h
  · split at h
    · next hw =>
      have hg : s.waits_ g := by rw [State.waits_, hw]; simp
      split at h
      · cases h
        exact ((disturbed_storeCells s _ _).trans (hend _ g hg) fun _ => id).trans (hmod _ g hg (fun _ => rfl) (fun _ => rfl)) fun _ => id
      · cases h
    · cases h

theorem disturbed_serve (s : State) (loc fuel : Nat) : Disturbed s (s.serve loc fuel) s.waits_ := by
  induction fuel generalizing s with
  | zero => exact .refl _ _
  | succ n ih =>
    unfold State.serve
    split
    · next t ht =>
      have h1 := disturbed_serveOne ht
      exact h1.trans (ih t) fun g hg => (h1.still hg).elim id id
    · exact .refl _ _

theorem disturbed_withdraw (s : State) (g : Nat) : Disturbed s (s.withdraw g) (· = g) := by
  have hbar : ∀ loc lanes, Disturbed s (s.withdrawBar loc lanes) (· = g) := fun loc lanes => by
    unfold State.withdrawBar State.setBar
    split
    · exact .refl _ _
    · split <;> exact disturbed_storeCells _ _ _
  have hdrop : ∀ u : State, Disturbed u ((u.dropHold g).modGroup g (fun x => { x with wait := none })) (· = g) := fun u => by
    obtain ⟨a, b, c, d⟩ := disturbed_setGroup (u.dropHold g) (g := g) (y := { u.group g with wait := none }) rfl rfl
    exact ⟨by rw [State.modGroup_eq]; exact a, b, c, d⟩
  unfold State.withdraw
  split
  · exact (hbar _ _).trans (hdrop _) fun _ => id
  · exact hdrop s

theorem withdraw_wait (s : State) (g : Nat) : ((s.withdraw g).group g).wait = none := by
  unfold State.withdraw
  rw [State.group_modGroup_same]

theorem disturbed_leaveWait (s : State) (g : Nat) :
    Disturbed s (s.leaveWait g) (fun h => h = g ∨ s.waits_ h) ∧ ((s.leaveWait g).group g).wait = none := by
  have h1 := (disturbed_withdraw s g).mono (q := fun h => h = g ∨ s.waits_ h) fun _ => Or.inl
  have hserve : ∀ loc, Disturbed s ((s.withdraw g).serveAll loc) (fun h => h = g ∨ s.waits_ h) ∧ (((s.withdraw g).serveAll loc).group g).wait = none :=
    fun loc => by
      have h2 := disturbed_serve (s.withdraw g) loc (((s.withdraw g).pushWaiters loc).length + ((s.withdraw g).popWaiters loc).length)
      refine ⟨h1.trans h2 fun h hh => ((disturbed_withdraw s g).still hh).symm, ?_⟩
      rw [show (s.withdraw g).serveAll loc = (s.withdraw g).serve loc _ from rfl, h2.others g (fun hw => hw (withdraw_wait s g))]
      exact withdraw_wait s g
  unfold State.leaveWait
  split
  · exact hserve _
  · exact hserve _
  · exact ⟨h1, withdraw_wait s g⟩

/-! ### Termination -/

theorem disturbed_raiseAsync (s : State) (g : Nat) (t : Trap) : Disturbed s (s.raiseAsync g t) (fun h => h = g ∨ s.waits_ h) := by
  have hset : ∀ u : State, Disturbed u (u.modGroup g (fun y =>
      { y with pendTraps := if y.pendTraps.contains t then y.pendTraps else y.pendTraps ++ [t] })) (fun h => h = g ∨ s.waits_ h) := fun u =>
    Disturbed.mono (disturbed_modGroup u g (fun _ => rfl) (fun _ => rfl)) fun _ => Or.inl
  unfold State.raiseAsync
  dsimp only
  split
  · exact (((disturbed_leaveWait s g).1).trans ((disturbed_modGroup _ g (f := Group.toBoundary) (fun _ => rfl) (fun _ => rfl)).mono fun _ => Or.inl)
      fun _ => id).trans (hset _) fun _ => id
  · exact hset s

theorem wgs_foldl {α : Type} {f : State → α → State} (h : ∀ s a, (f s a).wgs = s.wgs) (l : List α) (s : State) : (l.foldl f s).wgs = s.wgs := by
  induction l generalizing s with
  | nil => rfl
  | cons a l ih => exact (ih _).trans (h s a)

theorem State.wgs_orphanCluster (s : State) (k : Nat) : (s.orphanCluster k).wgs = s.wgs :=
  wgs_foldl (fun s _ => wgs_foldl (fun s g => by rw [(disturbed_raiseAsync s g .peerExited).world]) _ s) _ s

theorem State.terminate_state {s : State} {k : Nat} (h : (s.wg k).state ≠ .ended) : ((s.terminate k).wg k).state = .terminated := by
  unfold State.terminate
  dsimp only
  split
  · next hc =>
    simpa [h] using hc
  · rw [State.wg, State.wgs_orphanCluster]
    exact congrArg Wg.state (Fmap.get_insert_same _ _ _ _)

theorem State.wgs_ctxWrite {s t : State} {k d : Nat} {va : Dword} {bs : List Byte} (h : s.ctxWrite k d va bs = some t) : t.wgs = s.wgs := by
  unfold State.ctxWrite at h
  split at h
  · rw [← Option.some.inj h]
    rfl
  · cases h

theorem State.wgs_record (s : State) (k kind sub core acc wg addr arg : Nat) : (s.record k kind sub core acc wg addr arg).wgs = s.wgs := by
  unfold State.record
  extract_lets c lost bs
  split
  · rfl
  · cases ht : s.ctxWrite k 0 (ringSlot c.fq c.fqTail) bs with
    | none => rfl
    | some t =>
      have hw := State.wgs_ctxWrite ht
      dsimp only
      split
      · exact hw
      · exact hw

theorem State.poolKill_state {s : State} {k : Nat} (h : (s.wg k).state ≠ .ended) : ((s.poolKill k).wg k).state = .terminated :=
  State.terminate_state (by rw [State.wg, State.wgs_record]; exact h)

end Sys2Proof.Machine
end

section
/-! PROOFS. The rollback of a starved core's workgroup, and the resumption of an evicted cluster (R63, R64). -/

namespace Sys2Proof.Machine

open Sys2Proof.Claims

/-! ### Rollback -/

/-- A group at the entry of its region `r`, stalled until the pool has what its rollback freed (R64, R314). -/
structure RolledBack (y : Group) (r : Region) : Prop where
  pc : y.pc = r.restart
  hold : y.poolHold ≠ none
  v : y.v = r.v
  s : y.s = r.s
  wait : y.wait = none

theorem State.rereader_groups (s : State) (c d0 : Nat) (p0 : Bool) (d1 : Nat) (p1 : Bool) :
    s.rereader c d0 p0 d1 p1 = { s with cores := (s.rereader c d0 p0 d1 p1).cores } := by
  unfold State.rereader State.modCnt
  dsimp only
  split <;> split <;> rfl

theorem disturbed_rereader (s : State) (c d0 : Nat) (p0 : Bool) (d1 : Nat) (p1 : Bool) (p : Nat → Prop) :
    Disturbed s (s.rereader c d0 p0 d1 p1) p := by
  have hg : ∀ h, (s.rereader c d0 p0 d1 p1).group h = s.group h := fun h => by rw [State.rereader_groups]; rfl
  exact ⟨by rw [State.rereader_groups], fun h _ => hg h, fun h => by rw [hg], fun h => by rw [hg]⟩

theorem starveRollback_eq {s : State} {g : Nat} {r : Region} (h : (s.group g).region = some r) : ∃ u n, s.starveRollback g =
      u.modGroup g (fun y => { y.restored r with rollbackDue := false, poolHold := some n, stall := some (.pool 0 0) }) ∧
    Disturbed s u (fun j => j = g ∨ s.waits_ j) ∧ (u.group g).wait = none := by
  obtain ⟨h1, h2⟩ := disturbed_leaveWait s g
  have h3 := disturbed_rereader (s.leaveWait g) ((s.leaveWait g).coreOf g) ((s.leaveWait g).group g).rdDepth ((s.leaveWait g).group g).rdPar
    r.rdDepth r.rdPar
  refine ⟨_, s.rollbackFrees g, ?_, h1.trans (h3 _) fun _ => id, ?_⟩
  · unfold State.starveRollback State.rollbackNow
    rw [h]
    dsimp only
    rw [State.modGroup_modGroup]
  · rw [(h3 (fun _ => False)).others g id]
    exact h2

theorem starveRollback_of_none {s : State} {g : Nat} (h : (s.group g).region = none) : Disturbed s (s.starveRollback g) (fun j => j = g ∨ s.waits_ j) := by
  unfold State.starveRollback State.rollbackNow
  rw [h]
  exact Disturbed.mono (disturbed_modGroup s g (fun _ => rfl) (fun _ => rfl)) fun _ => Or.inl

theorem disturbed_starveRollback (s : State) (g : Nat) : Disturbed s (s.starveRollback g) (fun j => j = g ∨ s.waits_ j) := by
  cases hr : (s.group g).region with
  | none => exact starveRollback_of_none hr
  | some r =>
    obtain ⟨u, n, he, hu, -⟩ := starveRollback_eq hr
    rw [he]
    exact hu.trans (Disturbed.mono (disturbed_modGroup u g (fun _ => rfl) (fun _ => rfl)) fun _ => Or.inl) fun _ => id

theorem starveRollback_rolledBack {s : State} {g : Nat} {r : Region} (h : (s.group g).region = some r) :
    RolledBack ((s.starveRollback g).group g) r := by
  obtain ⟨u, n, he, -, hw⟩ := starveRollback_eq h
  rw [he, State.group_modGroup_same]
  exact ⟨rfl, by simp, rfl, rfl, hw⟩

/-- Groups rolled back one after another: each stays at its region's entry while those after it are rolled back. -/
theorem rollbacks_foldl (l : List Nat) (s : State) : Disturbed s (l.foldl State.starveRollback s) (fun h => h ∈ l ∨ s.waits_ h) ∧
    ∀ g r, (s.group g).region = some r → g ∈ l ∨ RolledBack (s.group g) r → RolledBack ((l.foldl State.starveRollback s).group g) r := by
  induction l generalizing s with
  | nil => exact ⟨.refl _ _, fun g r _ h => h.resolve_left List.not_mem_nil⟩
  | cons k l ih =>
    have h1 := disturbed_starveRollback s k
    obtain ⟨h2, h3⟩ := ih (s.starveRollback k)
    refine ⟨(h1.mono fun h hh => hh.imp (fun e : h = k => e ▸ List.mem_cons_self) id).trans h2 fun h hh => ?_, fun g r hr hg => ?_⟩
    · rcases hh with hh | hh
      · exact .inl (List.mem_cons_of_mem _ hh)
      · exact (h1.still hh).elim .inr fun h' => h'.imp (fun e : h = k => e ▸ List.mem_cons_self) id
    · refine h3 g r ((h1.region g).trans hr) ?_
      by_cases hgk : g = k
      · exact .inr (by rw [hgk] at hr ⊢; exact starveRollback_rolledBack hr)
      · rcases hg with hg | hg
        · exact .inl ((List.mem_cons.1 hg).resolve_left hgk)
        · refine .inr ?_
          rw [h1.others g (by simp [hgk, State.waits_, hg.wait])]
          exact hg

/-- The workgroups on a core, those dispatched last first. -/
theorem newestFirst_pairwise (s : State) (c : Nat) : (s.newestFirst c).Pairwise (fun a b => (s.wg b).order ≤ (s.wg a).order) :=
  List.pairwise_reverse.2 (sortBy_spec _ _).2

/-- The groups of workgroup `k` on core `c` that a rollback would help. -/
def State.helped (s : State) (c k : Nat) : List Nat := (s.residents c).filter (fun g => (s.group g).wg = k && s.rollbackHelps g)

theorem mem_helped {s : State} {c k g : Nat} : g ∈ s.helped c k ↔ g ∈ s.residents c ∧ (s.group g).wg = k ∧ s.rollbackHelps g = true := by
  simp [State.helped]

theorem execStarvationResolution_eq (s : State) (c : Nat) (h : s.starved c = true) : exec (.starvationResolution c) s = .next
    (match (s.newestFirst c).find? (fun k => !(s.helped c k).isEmpty) with
      | some k => (s.helped c k).foldl State.starveRollback s
      | none =>
        match s.newestFirst c with
        | [] => s
        | [k] => s.poolKill k
        | k :: _ :: _ => ((s.otherMembers k).foldl (fun t m => t.setWg m { t.wg m with state := .evicting }) s).evict k) := by
  change execStarvationResolution c s = _
  simp only [execStarvationResolution, h, Bool.not_true, Bool.false_eq_true, if_false]
  rfl

/-- The workgroup rolled back is, of those that a rollback would help, the one dispatched last. -/
theorem find_helped {s : State} {c k g : Nat} (hk : k ∈ s.newestFirst c) (hg : g ∈ s.helped c k)
    (hlast : ∀ h ∈ s.residents c, s.rollbackHelps h = true → (s.group h).wg = k ∨ (s.wg (s.group h).wg).order < (s.wg k).order) :
    (s.newestFirst c).find? (fun k => !(s.helped c k).isEmpty) = some k := by
  have hkh : (!(s.helped c k).isEmpty) = true := by simpa using List.ne_nil_of_mem hg
  obtain ⟨j, hj⟩ := Option.isSome_iff_exists.1 ((List.find?_isSome (p := fun k => !(s.helped c k).isEmpty)).2 ⟨k, hk, hkh⟩)
  have hp := List.find?_some hj
  obtain ⟨-, as, bs, hl, has⟩ := List.find?_eq_some_iff_append.1 hj
  have hne : s.helped c j ≠ [] := by simpa using hp
  obtain ⟨h, hh⟩ := List.exists_mem_of_ne_nil _ hne
  obtain ⟨hr, hw, hb⟩ := mem_helped.1 hh
  rw [hj]
  congr 1
  rcases hlast h hr hb with he | hlt
  · exact hw ▸ he
  · rw [hw] at hlt
    rw [hl] at hk
    rcases List.mem_append.1 hk with hk | hk
    · have := has k hk
      rw [hkh] at this
      exact absurd this (by decide)
    · rcases List.mem_cons.1 hk with hk | hk
      · exact hk.symm
      · have hpw := newestFirst_pairwise s c
        rw [hl] at hpw
        have := (List.pairwise_cons.1 (List.pairwise_append.1 hpw).2.1).1 k hk
        omega

theorem rollback_outcome {s : State} {c k g : Nat} (hs : s.starved c = true) (hk : k ∈ s.newestFirst c) (hg : g ∈ s.residents c)
    (hw : (s.group g).wg = k) (hb : s.rollbackHelps g = true)
    (hlast : ∀ h ∈ s.residents c, s.rollbackHelps h = true → (s.group h).wg = k ∨ (s.wg (s.group h).wg).order < (s.wg k).order) :
    ∃ t, exec (.starvationResolution c) s = .next t ∧
      ∀ r, (s.group g).region = some r → (t.group g).pc = r.restart ∧ (t.group g).poolHold ≠ none ∧
        (t.group g).v = r.v ∧ (t.group g).s = r.s ∧ ∀ h, (s.group h).wg ≠ k → (s.group h).wait = none → t.group h = s.group h := by
  have hgh := mem_helped.2 ⟨hg, hw, hb⟩
  obtain ⟨h1, h2⟩ := rollbacks_foldl (s.helped c k) s
  refine ⟨(s.helped c k).foldl State.starveRollback s, by rw [execStarvationResolution_eq s c hs, find_helped hk hgh hlast], fun r hr => ?_⟩
  obtain ⟨hpc, hhold, hv, hsc, -⟩ := h2 g r hr (.inl hgh)
  refine ⟨hpc, hhold, hv, hsc, fun h hne hwait => h1.others h ?_⟩
  rintro (hm | hm)
  · exact hne (mem_helped.1 hm).2.1
  · exact hm hwait

/-! ### Resumption -/

/-- A workgroup goes on on its core (R64, R118). -/
def State.goneOn (s : State) (m : Nat) : State :=
  (s.setWg m { s.wg m with state := .resident, excessV := 0, excessS := 0 }).resynced m

/-- A resumption adds nothing to what the groups of a workgroup know together. -/
theorem State.get_pastOf_goneOn (s : State) (m j a : Nat) : Fmap.get 0 ((s.goneOn m).pastOf j) a = Fmap.get 0 (s.pastOf j) a := by
  obtain ⟨-, h1, h2⟩ := s.latestOf_pastOf j a
  obtain ⟨-, k1, k2⟩ := (s.goneOn m).latestOf_pastOf j a
  have hmem : ∀ p : Nat × Group, p ∈ s.groups → (p.1, if p.2.wg = m then { p.2 with past := s.pastOf m } else p.2) ∈ (s.goneOn m).groups :=
    fun p hp => List.mem_map.2 ⟨p, hp, rfl⟩
  refine le_antisymm ?_ ?_
  · rcases k2 with k2 | ⟨p, hp, k2⟩
    · rw [k2]
      exact Nat.zero_le _
    · obtain ⟨hp, hj⟩ := State.mem_groupsWhere.1 hp
      obtain ⟨q, hq, rfl⟩ := List.mem_map.1 hp
      rw [k2]
      by_cases hqm : q.2.wg = m
      · have hjm : m = j := by simpa [hqm] using hj
        simp only [hqm, if_true, hjm]
        exact le_refl _
      · have hqj : q.2.wg = j := by simpa [hqm] using hj
        simp only [hqm, if_false]
        exact h1 q (State.mem_groupsWhere.2 ⟨hq, by simpa using hqj⟩)
  · rcases h2 with h2 | ⟨q, hq, h2⟩
    · rw [h2]
      exact Nat.zero_le _
    · obtain ⟨hq, hj⟩ := State.mem_groupsWhere.1 hq
      have hqj : q.2.wg = j := by simpa using hj
      have := k1 _ (State.mem_groupsWhere.2 ⟨hmem q hq, by by_cases hqm : q.2.wg = m <;> simp [hqm, ← hqj]⟩)
      by_cases hqm : q.2.wg = m
      · rw [hqj] at hqm
        simpa [hqj, hqm] using this
      · rw [h2]
        simpa [hqm] using this

/-- Workgroups `ms` have gone on between `s` and `t`: their groups know what any of them knew. -/
structure WentOn (s t : State) (ms : List Nat) : Prop where
  world : t = { s with wgs := t.wgs, groups := t.groups }
  wgs : ∀ m, t.wg m = if m ∈ ms then { s.wg m with state := .resident, excessV := 0, excessS := 0 } else s.wg m
  groups : ∀ g x, Fmap.find s.groups g = some x → ∃ past, Fmap.find t.groups g = some (if x.wg ∈ ms then { x with past := past } else x) ∧
    ∀ a, Fmap.get 0 past a = Fmap.get 0 (s.pastOf x.wg) a

theorem wentOn_foldl (ms : List Nat) (s : State) : WentOn s (ms.foldl State.goneOn s) ms := by
  induction ms generalizing s with
  | nil => exact ⟨rfl, fun m => by simp, fun g x hx => ⟨s.pastOf x.wg, by simpa using hx, fun _ => rfl⟩⟩
  | cons m ms ih =>
    obtain ⟨h1, h2, h3⟩ := ih (s.goneOn m)
    have hwg : ∀ j, (s.goneOn m).wg j = if j = m then { s.wg m with state := .resident, excessV := 0, excessS := 0 } else s.wg j := fun j =>
      Fmap.get_insert _ _ _ _ _
    refine ⟨h1, fun j => ?_, fun g x hx => ?_⟩
    · rw [List.foldl_cons, h2, hwg]
      by_cases hj : j = m
      · subst hj
        simp
      · simp [hj]
    · have hf : Fmap.find (s.goneOn m).groups g = some (if x.wg = m then { x with past := s.pastOf m } else x) := by
        have := Fmap.find_mapVals (fun _ (x : Group) => if x.wg = m then { x with past := s.pastOf m } else x) s.groups g
        rw [hx] at this
        exact this
      obtain ⟨past, hp, hget⟩ := h3 g _ hf
      by_cases hm : x.wg ∈ ms
      · refine ⟨past, ?_, fun a => ?_⟩
        · rw [List.foldl_cons, hp]
          by_cases hxm : x.wg = m
          · subst hxm
            simp [hm]
          · simp [hxm, hm]
        · rw [hget, State.get_pastOf_goneOn]
          by_cases hxm : x.wg = m <;> simp [hxm]
      · refine ⟨s.pastOf x.wg, ?_, fun _ => rfl⟩
        rw [List.foldl_cons, hp]
        by_cases hxm : x.wg = m
        · subst hxm
          simp [hm]
        · simp [hxm, hm]

theorem WentOn.learns {s t : State} {ms : List Nat} (h : WentOn s t ms) {g : Nat} {x : Group} (hx : Fmap.find s.groups g = some x) :
    (x.wg ∉ ms → t.group g = x) ∧
      (x.wg ∈ ms → t.group g = { x with past := (t.group g).past } ∧ Learns s g (Fmap.get 0 x.past) (t.group g)) := by
  obtain ⟨past, hp, hget⟩ := h.groups g x hx
  have ht := State.group_of_find hp
  refine ⟨fun hm => by rw [ht, if_neg hm], fun hm => ?_⟩
  rw [if_pos hm] at ht
  rw [ht]
  refine ⟨rfl, fun hr _ a => ?_⟩
  obtain ⟨-, h1, h2⟩ := s.latestOf_pastOf x.wg a
  have hwg : (s.group g).wg = x.wg := by rw [State.group_of_find hx]
  have hin : ∀ p ∈ s.groups, p.2.wg = x.wg → p ∈ s.groupsWhere (fun y => y.wg = x.wg) := fun p hp hw =>
    State.mem_groupsWhere.2 ⟨hp, by simpa using hw⟩
  have hown := h1 _ (hin _ (Fmap.mem_of_find hx) rfl)
  dsimp only
  rw [hget, hwg]
  refine ⟨hown, fun p hp => h1 p (hin p hp.1 hp.2.2), ?_⟩
  rcases h2 with h2 | ⟨p, hp, h2⟩
  · exact .inl (by rw [h2] at hown ⊢; exact (Nat.le_zero.1 hown).symm)
  · obtain ⟨hps, hpw⟩ := State.mem_groupsWhere.1 hp
    by_cases hpg : p.1 = g
    · have := Fmap.find_of_mem hr hps
      rw [hpg, hx] at this
      exact .inl (by rw [h2, ← Option.some.inj this])
    · exact .inr ⟨p, ⟨hps, hpg, by simpa using hpw⟩, h2⟩

theorem resume_outcome {s : State} {k : Nat} (hk : (s.wg k).state = .evicted) :
    let ms := (s.wg k).members.filter (fun m => (s.wg m).state.holdsSlots)
    ((∀ m ∈ ms, (s.wg m).state = .evicted ∧ (s.wg m).resV + (s.wg m).excessV ≤ s.vfree (s.wg m).core ∧
        (s.wg m).resS + (s.wg m).excessS ≤ s.sfree (s.wg m).core) →
      ∃ t, exec (.evictionResume k) s = .next t ∧ t = { s with wgs := t.wgs, groups := t.groups } ∧
        (∀ g x, Fmap.find s.groups g = some x → (x.wg ∉ ms → t.group g = x) ∧
          (x.wg ∈ ms → t.group g = { x with past := (t.group g).past } ∧ Learns s g (Fmap.get 0 x.past) (t.group g))) ∧
        (∀ m ∈ ms, t.wg m = { s.wg m with state := .resident, excessV := 0, excessS := 0 }) ∧ ∀ m, m ∉ ms → t.wg m = s.wg m) ∧
    ((∃ m ∈ ms, (s.wg m).state ≠ .evicted) → exec (.evictionResume k) s = .next s) := by
  intro ms
  have hexec : exec (.evictionResume k) s = .next (if ms.all (fun m => (s.wg m).state = .evicted && s.resumeFits m) then
      ms.foldl State.goneOn s else s) := by
    change execEvictionResume k s = _
    simp only [execEvictionResume, hk, decide_true, Bool.true_and]
    rfl
  refine ⟨fun h => ?_, fun ⟨m, hm, hne⟩ => ?_⟩
  · have hall : ms.all (fun m => (s.wg m).state = .evicted && s.resumeFits m) = true := by
      simpa [State.resumeFits] using h
    rw [if_pos hall] at hexec
    have ht := wentOn_foldl ms s
    exact ⟨_, hexec, ht.world, fun g x hx => ht.learns hx, fun m hm => by rw [ht.wgs, if_pos hm], fun m hm => by rw [ht.wgs, if_neg hm]⟩
  · have hall : ms.all (fun m => (s.wg m).state = .evicted && s.resumeFits m) = false := by
      rw [List.all_eq_false]
      exact ⟨m, hm, by simp [hne]⟩
    rw [hexec, hall]
    rfl

/-! ### The statement -/

theorem helped_of_none {s : State} {c : Nat} (h : ∀ g ∈ s.residents c, s.rollbackHelps g = false) :
    (s.newestFirst c).find? (fun k => !(s.helped c k).isEmpty) = none := by
  rw [List.find?_eq_none]
  intro k _
  have : s.helped c k = [] := List.filter_eq_nil_iff.2 fun g hg => by simp [h g hg]
  simp [this]

theorem state_of_newestFirst {s : State} {c k : Nat} (hr : Fmap.risingFrom 0 s.wgs = true) (hk : k ∈ s.newestFirst c) : (s.wg k).state ≠ .ended := by
  have hk : k ∈ Fmap.keys (s.wgsOn c) := (sortBy_spec _ _).1 k |>.1 (List.mem_reverse.1 hk)
  obtain ⟨p, hp, rfl⟩ := List.mem_map.1 hk
  obtain ⟨hm, -, hon⟩ := mem_wgsOn.1 hp
  rw [State.wg, Fmap.get_of_mem _ hr hm]
  intro he
  rw [he] at hon
  exact absurd hon (by decide)

theorem otherMembers_of_none {s : State} {k : Nat} (h : ∀ m ∈ (s.wg k).members, m ≠ k → (s.wg m).state ≠ .resident) : s.otherMembers k = [] :=
  List.filter_eq_nil_iff.2 fun m hm => by simpa using h m hm

theorem memberEviction_eq {s : State} {k : Nat} (hk : (s.wg k).state = .evicting) (hw : s.workOut (fun j => j = k) = false) :
    exec (.memberEviction k) s = .next (s.evict k) := by
  change execMemberEviction k s = _
  simp [execMemberEviction, hk, hw]

theorem execStarvationResolution_of_not {s : State} {c : Nat} (h : s.starved c = false) : exec (.starvationResolution c) s = .next s := by
  change execStarvationResolution c s = _
  simp [execStarvationResolution, h]

/-- With no rollback that helps, the only workgroup ends. -/
theorem starvation_only {s : State} {c k : Nat} (h : s.starved c = true) (hno : ∀ g ∈ s.residents c, s.rollbackHelps g = false)
    (hr : Fmap.risingFrom 0 s.wgs = true) (hk : s.newestFirst c = [k]) :
    ∃ t, exec (.starvationResolution c) s = .next t ∧ (t.wg k).state = .terminated := by
  refine ⟨s.poolKill k, ?_, State.poolKill_state (state_of_newestFirst hr (hk ▸ List.mem_singleton_self k))⟩
  rw [execStarvationResolution_eq s c h, helped_of_none hno, hk]

/-- With no rollback that helps, and no other member of its cluster resident, the newest workgroup that may be spilled is evicted. -/
theorem starvation_evicts {s : State} {c k j : Nat} {l : List Nat} (h : s.starved c = true)
    (hno : ∀ g ∈ s.residents c, s.rollbackHelps g = false) (hk : s.newestFirst c = k :: j :: l)
    (hm : ∀ m ∈ (s.wg k).members, m ≠ k → (s.wg m).state ≠ .resident) : exec (.starvationResolution c) s = .next (s.evict k) := by
  rw [execStarvationResolution_eq s c h, helped_of_none hno, hk]
  dsimp only
  rw [otherMembers_of_none hm, List.foldl_nil]

/-- Another member of an evicted cluster ends where its spill area is too small. -/
theorem memberEviction_ends {s : State} {k : Nat} (hk : (s.wg k).state = .evicting) (hw : s.workOut (fun j => j = k) = false)
    (hfit : s.spillFits k = false) : ∃ t, exec (.memberEviction k) s = .next t ∧ (t.wg k).state = .terminated := by
  have he : s.evict k = s.poolKill k := by simp [State.evict, hfit]
  refine ⟨s.poolKill k, he ▸ memberEviction_eq hk hw, State.poolKill_state ?_⟩
  rw [hk]
  decide

/-- Settles O51, part by part: rollback, eviction, resumption, weights and the guard. -/
theorem starvationAndArbitration : Obligations.StarvationAndArbitration := by
  refine ⟨fun s c => ⟨execStarvationResolution_of_not, fun h k g hk hg hw hb hlast => rollback_outcome h hk hg hw hb hlast, fun h hno hr =>
    ⟨fun k hk => starvation_only h hno hr hk, fun k j l hk hfit hm => ?_⟩⟩, fun s k hk hw => ⟨fun hfit => ?_, memberEviction_ends hk hw⟩,
    fun s k hk => resume_outcome hk, weights_outcome, guard_outcome⟩
  · obtain ⟨h1, h2, h3, h4, h5, h6⟩ := evicted_of_fits hfit
    exact ⟨s.evict k, starvation_evicts h hno hk hm, h1, h2, h3, h4, h5, h6⟩
  · obtain ⟨h1, h2, h3, h4, -, -⟩ := evicted_of_fits hfit
    exact ⟨s.evict k, memberEviction_eq hk hw, h1, h2, by rw [h3], h4⟩

end Sys2Proof.Machine
end

section
/-! PROOFS. The arbiter's shares and deadlines are those of R30 (log 67). -/

namespace Sys2Proof.Machine

open Sys2Proof.Claims

theorem Core.share_eq (k : Core) (cs : List Nat) (j : Nat) : k.share cs j = takenBy k cs j := rfl

theorem Core.weight_eq (k : Core) (j : Nat) : k.weight j = Claims.weightOf k j := rfl

theorem Core.total_eq (k : Core) (cs : List Nat) : k.total cs = weightSum k cs := rfl

theorem Core.slotsOf_eq (k : Core) (cs : List Nat) : k.slotsOf cs = slotsTaken k cs := by
  rw [Core.slotsOf, Fmap.vals, List.map_map]
  rfl

theorem Core.excess_eq (k : Core) (cs : List Nat) (j : Nat) : k.excess cs j = Claims.excess k cs j := by
  rw [Core.excess, Core.slotsOf_eq, Core.share_eq, Core.weight_eq, Core.total_eq, Claims.excess]
  push_cast
  rfl

theorem Core.evenly_iff (k : Core) (cs : List Nat) (j : Nat) : k.evenly cs j = true ↔ Even k cs j := by
  simp only [Core.evenly, Claims.Even, Core.excess_eq, Core.share_eq, Core.total_eq, Bool.and_eq_true, decide_eq_true_eq, List.all_eq_true,
    Bool.or_eq_true]
  exact and_congr_right fun _ => forall₂_congr fun i _ => or_iff_not_imp_left

theorem Core.mem_behind (k : Core) (cs : List Nat) (j : Nat) : j ∈ cs.filter (k.behind cs) ↔ Behind k cs j := by
  simp only [List.mem_filter, Core.behind, Core.excess_eq, decide_eq_true_eq, Behind]

theorem Core.mem_due (k : Core) (cs : List Nat) (j : Nat) : j ∈ k.due cs ↔ Due k cs j := by
  have heven : ∀ i, i ∈ (cs.filter (k.behind cs)).filter (k.evenly cs) ↔ Behind k cs i ∧ Even k cs i := fun i => by
    rw [List.mem_filter, Core.mem_behind, Core.evenly_iff]
  unfold Core.due Due
  dsimp only
  split
  · next h =>
    have hno : ∀ i, Behind k cs i → ¬ Even k cs i := fun i hb he => by
      have := (heven i).2 ⟨hb, he⟩
      rw [List.isEmpty_iff.1 h] at this
      exact List.not_mem_nil this
    rw [Core.mem_behind]
    exact ⟨fun hb => ⟨hb, .inr hno⟩, fun hd => hd.1⟩
  · next h =>
    obtain ⟨i, hi⟩ := List.exists_mem_of_ne_nil _ (fun he => h (List.isEmpty_iff.2 he))
    rw [heven]
    exact ⟨fun hd => ⟨hd.1, .inl hd.2⟩, fun hd => ⟨hd.1, hd.2.resolve_right fun hno => hno i ((heven i).1 hi).1 ((heven i).1 hi).2⟩⟩

theorem weightOf_pos {k : Core} (h : ∀ p ∈ k.weights, 0 < p.2) (j : Nat) : 0 < Claims.weightOf k j := by
  rw [Claims.weightOf, Fmap.get]
  cases hf : Fmap.find k.weights j with
  | none => decide
  | some w => exact h _ (Fmap.mem_of_find hf)

/-- A quotient rounded up, in natural numbers and in rationals. -/
theorem ceil_div_eq (a w : Nat) (hw : 0 < w) : (((a + w - 1) / w : Nat) : Int) = ⌈(a : ℚ) / (w : ℚ)⌉ := by
  have hq : (0 : ℚ) < w := by exact_mod_cast hw
  have h1 := Nat.div_mul_le_self (a + w - 1) w
  have h2 := Nat.lt_mul_div_succ (a + w - 1) hw
  rw [Nat.mul_add, Nat.mul_comm] at h2
  generalize (a + w - 1) / w = q at h1 h2 ⊢
  refine (Int.ceil_eq_iff.2 ⟨?_, ?_⟩).symm
  · rw [lt_div_iff₀ hq]
    have : q * w < a + w := by omega
    have : (q : ℚ) * w < a + w := by exact_mod_cast this
    push_cast
    linarith
  · rw [div_le_iff₀ hq]
    have : a ≤ q * w := by omega
    exact_mod_cast this

theorem Core.deadline_eq {k : Core} (h : ∀ p ∈ k.weights, 0 < p.2) (cs : List Nat) (j : Nat) :
    (k.deadline cs j : Int) = lastSlot k cs j := by
  have := ceil_div_eq ((k.share cs j).slots.succ * k.total cs) (k.weight j) (weightOf_pos h j)
  rw [Core.deadline, this, lastSlot, Core.share_eq, Core.total_eq, Core.weight_eq]
  push_cast
  rfl

theorem Core.shareTurn_iff {k : Core} (h : ∀ p ∈ k.weights, 0 < p.2) (cs : List Nat) (j : Nat) : k.shareTurn cs j = true ↔ Turn k cs j := by
  simp only [Core.shareTurn, Turn, Bool.and_eq_true, List.contains_iff_mem, Core.mem_due, List.all_eq_true, Bool.or_eq_true,
    decide_eq_true_eq, Core.excess_eq, ← Core.deadline_eq h, Nat.cast_lt, Nat.cast_inj]

/-! ### Somebody is due -/

/-- Candidates without repeats took no more slots than were taken. -/
theorem sum_slots_le (m : Fmap Share) (cs : List Nat) (h : cs.Nodup) :
    (cs.map (fun j => (Fmap.get ⟨0, 0, 0⟩ m j).slots)).sum ≤ (m.map (·.2.slots)).sum := by
  rw [← List.sum_toFinset _ h]
  induction m with
  | nil => exact (Finset.sum_eq_zero fun _ _ => rfl).le
  | cons p t ih =>
    calc ∑ j ∈ cs.toFinset, (Fmap.get ⟨0, 0, 0⟩ (p :: t) j).slots
        ≤ ∑ j ∈ cs.toFinset, ((if p.1 = j then p.2.slots else 0) + (Fmap.get ⟨0, 0, 0⟩ t j).slots) := by
          refine Finset.sum_le_sum fun j _ => ?_
          by_cases hj : p.1 = j <;> simp [Fmap.get, Fmap.find, hj]
      _ = (if p.1 ∈ cs.toFinset then p.2.slots else 0) + ∑ j ∈ cs.toFinset, (Fmap.get ⟨0, 0, 0⟩ t j).slots := by
          rw [Finset.sum_add_distrib, Finset.sum_ite_eq]
      _ ≤ p.2.slots + (t.map (·.2.slots)).sum := Nat.add_le_add (by split <;> omega) ih

/-- Of candidates that all have a weight, one is behind its share. -/
theorem exists_behind {k : Core} (h : ∀ p ∈ k.weights, 0 < p.2) {cs : List Nat} (hn : cs.Nodup) (hne : cs ≠ []) : ∃ j, Behind k cs j := by
  by_contra hno
  have hle : ∀ j ∈ cs, Claims.weightOf k j * (slotsTaken k cs + 1) ≤ (takenBy k cs j).slots * weightSum k cs := fun j hj => by
    by_contra hlt
    refine hno ⟨j, hj, ?_⟩
    have : ((takenBy k cs j).slots : Int) * weightSum k cs < Claims.weightOf k j * (slotsTaken k cs + 1) := by
      exact_mod_cast Nat.lt_of_not_le hlt
    rw [Claims.excess]
    omega
  have hsum := List.sum_le_sum hle
  rw [List.sum_map_mul_right, List.sum_map_mul_right] at hsum
  have hslots : (cs.map (fun j => (takenBy k cs j).slots)).sum ≤ slotsTaken k cs := sum_slots_le _ cs hn
  have hpos : 0 < weightSum k cs := List.sum_pos _ (fun x hx => by
    obtain ⟨j, -, rfl⟩ := List.mem_map.1 hx
    exact weightOf_pos h j) (by simpa using hne)
  have hall := Nat.mul_le_mul_right (weightSum k cs) hslots
  have hw : (cs.map (Claims.weightOf k)).sum = weightSum k cs := rfl
  rw [hw, Nat.mul_add, Nat.mul_comm] at hsum
  omega

theorem exists_turn {k : Core} (h : ∀ p ∈ k.weights, 0 < p.2) {cs : List Nat} (hn : cs.Nodup) (hne : cs ≠ []) : ∃ j, Turn k cs j := by
  have hdue : ∃ j, Due k cs j := by
    by_cases he : ∃ i, Behind k cs i ∧ Even k cs i
    · obtain ⟨i, hb, he⟩ := he
      exact ⟨i, hb, .inl he⟩
    · obtain ⟨i, hb⟩ := exists_behind h hn hne
      exact ⟨i, hb, .inr fun j hj hej => he ⟨j, hj, hej⟩⟩
  obtain ⟨j, hj⟩ := hdue
  obtain ⟨i, hi, hmin⟩ := (k.due cs).toFinset.exists_min_image (fun j => toLex (lastSlot k cs j, Claims.excess k cs j))
    ⟨j, List.mem_toFinset.2 ((k.mem_due cs j).2 hj)⟩
  refine ⟨i, (k.mem_due cs i).1 (List.mem_toFinset.1 hi), fun e he => ?_⟩
  exact Prod.Lex.toLex_le_toLex.1 (hmin e (List.mem_toFinset.2 ((k.mem_due cs e).2 he)))

/-! ### Candidates -/

theorem insertBy_perm {α : Type} (key : α → Nat) (x : α) (l : List α) : (insertBy key x l).Perm (x :: l) := by
  induction l with
  | nil => exact .refl _
  | cons y t ih =>
    unfold insertBy
    split
    · exact .refl _
    · exact (ih.cons y).trans (.swap x y t)

theorem sortBy_perm {α : Type} (key : α → Nat) (l : List α) : (sortBy key l).Perm l := by
  have h : ∀ m : List α, (l.foldl (fun m x => insertBy key x m) m).Perm (m ++ l) := by
    induction l with
    | nil => exact fun m => by simp
    | cons x t ih => exact fun m => (ih _).trans (((insertBy_perm key x m).append_right t).trans List.perm_middle.symm)
  simpa [sortBy] using h []

theorem State.mem_candidatesOf {s : State} {l : List Nat} {j : Nat} : j ∈ s.candidatesOf l ↔ ∃ h ∈ l, s.keyOf h = j := by
  rw [State.candidatesOf, (sortBy_spec _ _).1, (distinct_nodup _).2, List.mem_map]

theorem State.candidatesOf_nodup (s : State) (l : List Nat) : (s.candidatesOf l).Nodup := (sortBy_perm _ _).nodup_iff.2 (distinct_nodup _).1

theorem State.candidatesOf_pairwise (s : State) (l : List Nat) : (s.candidatesOf l).Pairwise (· < ·) :=
  ((sortBy_spec id _).2.and (s.candidatesOf_nodup l)).imp fun ⟨hle, hne⟩ => Nat.lt_of_le_of_ne hle hne

theorem State.exists_candidate_turn (s : State) {k : Core} (h : ∀ p ∈ k.weights, 0 < p.2) {l : List Nat} {g : Nat} (hg : g ∈ l) :
    ∃ h ∈ l, Turn k (s.candidatesOf l) (s.keyOf h) := by
  obtain ⟨j, hj⟩ := exists_turn h (s.candidatesOf_nodup l) (List.ne_nil_of_mem (State.mem_candidatesOf.2 ⟨g, hg, rfl⟩))
  obtain ⟨i, hi, rfl⟩ := State.mem_candidatesOf.1 hj.1.1.1
  exact ⟨i, hi, hj⟩

end Sys2Proof.Machine
end

section
/-! PROOFS. Which group has the next slot of a core, and what it takes with it (R30 to R33, log 67). -/

namespace Sys2Proof.Machine

open Sys2Proof.Claims

/-- A ready group of core `c` that has not issued in this clk. -/
def State.Left (s : State) (c h : Nat) : Prop := (h ∈ s.residents c ∧ s.ready h = true) ∧ (s.group h).issued = false

theorem State.mem_readyOn {s : State} {c h : Nat} : h ∈ s.readyOn c ↔ h ∈ s.residents c ∧ s.ready h = true := List.mem_filter

theorem State.mem_unissued {s : State} {l : List Nat} {h : Nat} : h ∈ s.unissued l ↔ h ∈ l ∧ (s.group h).issued = false := by
  simp [State.unissued]

theorem State.mem_left {s : State} {c h : Nat} : h ∈ s.unissued (s.readyOn c) ↔ s.Left c h := by
  rw [State.mem_unissued, State.mem_readyOn]
  rfl

/-- Whether group `g` comes before or with group `h` in one candidate, spelled out (R31, R32). -/
theorem State.comesFirst_iff {s : State} {g h : Nat} : s.comesFirst g h = true ↔
    0 < (s.group g).hrun ∧ (s.group h).hrun = 0 ∨ (0 < (s.group g).hrun ↔ 0 < (s.group h).hrun) ∧
      ((s.group g).readySince < (s.group h).readySince ∨ (s.group g).readySince = (s.group h).readySince ∧
        ((s.group g).base < (s.group h).base ∨ (s.group g).base = (s.group h).base ∧
          (s.wg (s.group g).wg).order ≤ (s.wg (s.group h).wg).order)) := by
  rcases Nat.eq_zero_or_pos (s.group g).hrun with hg | hg <;> rcases Nat.eq_zero_or_pos (s.group h).hrun with hh | hh <;>
    simp [State.comesFirst, Group.running, hg, hh, Nat.ne_of_gt]

/-- What orders the groups of one candidate. -/
def State.rank (s : State) (g : Nat) : Nat ×ₗ Nat ×ₗ Nat ×ₗ Nat :=
  toLex (if 0 < (s.group g).hrun then 0 else 1, toLex ((s.group g).readySince, toLex ((s.group g).base, (s.wg (s.group g).wg).order)))

theorem State.comesFirst_iff_rank {s : State} {g h : Nat} : s.comesFirst g h = true ↔ s.rank g ≤ s.rank h := by
  simp only [State.comesFirst_iff, State.rank, Prod.Lex.toLex_le_toLex]
  rcases Nat.eq_zero_or_pos (s.group g).hrun with hg | hg <;> rcases Nat.eq_zero_or_pos (s.group h).hrun with hh | hh <;>
    simp [hg, hh, Nat.ne_of_gt]

/-! ### The branches of `hasTurn` -/

/-- The groups left of candidates whose turn it is. -/
def State.turns (s : State) (k : Core) (ready : List Nat) : List Nat :=
  (s.unissued ready).filter (fun h => k.shareTurn (s.candidatesOf ready) (s.keyOf h))

/-- The groups left that are in a run. -/
def State.runs (s : State) (ready : List Nat) : List Nat := (s.unissued ready).filter (fun h => (s.group h).running)

theorem State.mem_turns {s : State} {k : Core} (hk : ∀ p ∈ k.weights, 0 < p.2) {l : List Nat} {h : Nat} :
    h ∈ s.turns k l ↔ h ∈ s.unissued l ∧ Turn k (s.candidatesOf l) (s.keyOf h) := by
  rw [State.turns, List.mem_filter, Core.shareTurn_iff hk]

section
variable {s : State} {k : Core} {g : Nat} (hk : s.core (s.coreOf g) = k) (l : List Nat)

include hk

theorem State.hasTurn_of_guard {h : Nat} {t : List Nat} (he : k.guard.filter (s.unissued l).contains = h :: t) :
    s.hasTurn l g = true ↔ g = h := by
  simp [State.hasTurn, hk, he]

theorem State.hasTurn_of_runs (he : k.guard.filter (s.unissued l).contains = [])
    (hr : s.turns k l = [] ∨ 16 ≤ k.slots + (s.runs l).length) : s.hasTurn l g = true ↔ 0 < (s.group g).hrun := by
  have hc : ((s.turns k l).isEmpty || decide (16 ≤ k.slots + (s.runs l).length)) = true := by simpa using hr
  rw [State.turns, State.runs] at hc
  simp only [State.hasTurn, hk, he, hc, if_true]
  exact decide_eq_true_iff

theorem State.hasTurn_of_turns (he : k.guard.filter (s.unissued l).contains = []) (ht : s.turns k l ≠ [])
    (hr : k.slots + (s.runs l).length < 16) : s.hasTurn l g = true ↔
      g ∈ s.turns k l ∧ ∀ h ∈ s.turns k l, s.keyOf h = s.keyOf g → s.comesFirst g h = true := by
  have hc : ((s.turns k l).isEmpty || decide (16 ≤ k.slots + (s.runs l).length)) = false := by
    simpa using ⟨ht, hr⟩
  rw [State.turns, State.runs] at hc
  simp only [State.hasTurn, hk, he, hc, Bool.false_eq_true, if_false, Bool.and_eq_true, List.contains_iff_mem, List.all_eq_true,
    Bool.or_eq_true, bne_iff_ne, State.turns]
  exact and_congr_right fun _ => forall₂_congr fun _ _ => or_iff_not_imp_left.trans (by rw [not_not])

end

theorem filter_guard_eq_nil {s : State} {l guard : List Nat} (h : ∀ i ∈ guard, i ∉ s.unissued l) :
    guard.filter (s.unissued l).contains = [] :=
  List.filter_eq_nil_iff.2 fun i hi => by simpa using h i hi

/-! ### The slot goes to one of the groups left -/

/-- Some group left has the turn, where a slot is owed to one, or each candidate has one left. -/
theorem State.exists_hasTurn {s : State} {c : Nat} {l : List Nat} (hl : ∀ h ∈ l, s.coreOf h = c) (hslots : (s.core c).slots < 16)
    (hk : ∀ p ∈ (s.core c).weights, 0 < p.2) (hne : l ≠ [])
    (h : (∃ h ∈ s.unissued l, h ∈ (s.core c).guard ∨ 0 < (s.group h).hrun) ∨ ∀ h ∈ l, ∃ i ∈ s.unissued l, s.keyOf i = s.keyOf h) :
    ∃ g ∈ s.unissued l, s.hasTurn l g = true := by
  have hcore : ∀ h ∈ s.unissued l, s.core (s.coreOf h) = s.core c := fun h hh => by rw [hl h (State.mem_unissued.1 hh).1]
  cases hg : (s.core c).guard.filter (s.unissued l).contains with
  | cons g t =>
    have hm : g ∈ (s.core c).guard.filter (s.unissued l).contains := hg ▸ List.mem_cons_self
    have hu : g ∈ s.unissued l := by simpa using (List.mem_filter.1 hm).2
    exact ⟨g, hu, (State.hasTurn_of_guard (hcore g hu) l hg).2 rfl⟩
  | nil =>
    have hno : ∀ h ∈ s.unissued l, h ∉ (s.core c).guard := fun h hu hh => by
      have : h ∈ (s.core c).guard.filter (s.unissued l).contains := List.mem_filter.2 ⟨hh, by simpa using hu⟩
      rw [hg] at this
      exact List.not_mem_nil this
    by_cases hr : s.turns (s.core c) l = [] ∨ 16 ≤ (s.core c).slots + (s.runs l).length
    · suffices ∃ g ∈ s.unissued l, 0 < (s.group g).hrun by
        obtain ⟨g, hu, hrun⟩ := this
        exact ⟨g, hu, (State.hasTurn_of_runs (hcore g hu) l hg hr).2 hrun⟩
      rcases h with ⟨h, hu, hh⟩ | hall
      · exact ⟨h, hu, hh.resolve_left (hno h hu)⟩
      · rcases hr with ht | hr
        · obtain ⟨g, hgl⟩ := List.exists_mem_of_ne_nil _ hne
          obtain ⟨h, hh, hturn⟩ := s.exists_candidate_turn hk hgl
          obtain ⟨i, hi, hkey⟩ := hall h hh
          have : i ∈ s.turns (s.core c) l := (State.mem_turns hk).2 ⟨hi, hkey ▸ hturn⟩
          rw [ht] at this
          exact absurd this List.not_mem_nil
        · obtain ⟨g, hgr⟩ := List.exists_mem_of_length_pos (l := s.runs l) (by omega)
          obtain ⟨hu, hrun⟩ := List.mem_filter.1 hgr
          exact ⟨g, hu, of_decide_eq_true hrun⟩
    · obtain ⟨ht, hr⟩ := not_or.1 hr
      obtain ⟨h, hh⟩ := List.exists_mem_of_ne_nil _ ht
      obtain ⟨g, hg', hmin⟩ := ((s.turns (s.core c) l).filter (fun i => s.keyOf i = s.keyOf h)).toFinset.exists_min_image s.rank
        ⟨h, by simpa using hh⟩
      obtain ⟨hgt, hkey⟩ := List.mem_filter.1 (List.mem_toFinset.1 hg')
      have hu := (List.mem_filter.1 hgt).1
      refine ⟨g, hu, (State.hasTurn_of_turns (hcore g hu) l hg ht (Nat.lt_of_not_le hr)).2 ⟨hgt, fun i hi hik => ?_⟩⟩
      refine State.comesFirst_iff_rank.2 (hmin i (List.mem_toFinset.2 (List.mem_filter.2 ⟨hi, ?_⟩)))
      exact decide_eq_true (hik.trans (of_decide_eq_true hkey))

/-! ### The rule that a group with a slot meets -/

/-- Group `g` has the next slot of core `c` by the rule of R30 to R33, with the candidates `cs`. -/
structure Chosen (s : State) (c g : Nat) (cs : List Nat) : Prop where
  guard : ∀ before h after, (s.core c).guard = before ++ h :: after → (∀ i ∈ before, ¬ s.Left c i) → s.Left c h → g = h
  runs : (∀ i ∈ (s.core c).guard, ¬ s.Left c i) → ((∀ h, ¬ (s.Left c h ∧ Turn (s.core c) cs (s.keyOf h))) ∨
    16 ≤ (s.core c).slots + ((s.residents c).filter (fun h => s.ready h && !(s.group h).issued && decide (0 < (s.group h).hrun))).length) →
      0 < (s.group g).hrun
  first : (∀ i ∈ (s.core c).guard, ¬ s.Left c i) → (∃ h, s.Left c h ∧ Turn (s.core c) cs (s.keyOf h)) →
    (s.core c).slots + ((s.residents c).filter (fun h => s.ready h && !(s.group h).issued && decide (0 < (s.group h).hrun))).length < 16 →
      (s.Left c g ∧ Turn (s.core c) cs (s.keyOf g)) ∧ ∀ h, s.Left c h → s.keyOf h = s.keyOf g → s.comesFirst g h = true

theorem State.runs_readyOn (s : State) (c : Nat) : s.runs (s.readyOn c) =
    (s.residents c).filter (fun h => s.ready h && !(s.group h).issued && decide (0 < (s.group h).hrun)) := by
  rw [State.runs, State.unissued, State.readyOn, List.filter_filter, List.filter_filter]
  refine List.filter_congr fun h _ => ?_
  rw [Group.running]
  cases s.ready h <;> cases (s.group h).issued <;> simp

theorem State.turns_readyOn {s : State} {c : Nat} (hk : ∀ p ∈ (s.core c).weights, 0 < p.2) {h : Nat} :
    h ∈ s.turns (s.core c) (s.readyOn c) ↔ s.Left c h ∧ Turn (s.core c) (s.candidatesOf (s.readyOn c)) (s.keyOf h) := by
  rw [State.mem_turns hk, State.mem_left]

theorem chosen_of_hasTurn {s : State} {g : Nat} (hk : ∀ p ∈ (s.core (s.coreOf g)).weights, 0 < p.2)
    (h : s.hasTurn (s.readyOn (s.coreOf g)) g = true) : Chosen s (s.coreOf g) g (s.candidatesOf (s.readyOn (s.coreOf g))) := by
  generalize hc : s.coreOf g = c at h hk ⊢
  have hcore : s.core (s.coreOf g) = s.core c := by rw [hc]
  have hnil : (∀ i ∈ (s.core c).guard, ¬ s.Left c i) → (s.core c).guard.filter (s.unissued (s.readyOn c)).contains = [] := fun hno =>
    filter_guard_eq_nil fun i hi hu => hno i hi (State.mem_left.1 hu)
  refine ⟨fun before h' after he hb hl => ?_, fun hno hr => ?_, fun hno ⟨h', hd⟩ hr => ?_⟩
  · refine (State.hasTurn_of_guard hcore _ (t := after.filter (s.unissued (s.readyOn c)).contains) ?_).1 h
    rw [he, List.filter_append, filter_guard_eq_nil fun i hi hu => hb i hi (State.mem_left.1 hu), List.nil_append,
      List.filter_cons_of_pos (by simpa using State.mem_left.2 hl)]
  · refine (State.hasTurn_of_runs hcore _ (hnil hno) (hr.imp (fun hd => ?_) fun hr => ?_)).1 h
    · exact List.eq_nil_iff_forall_not_mem.2 fun i hi => hd i ((State.turns_readyOn hk).1 hi)
    · rwa [State.runs_readyOn]
  · rw [← State.runs_readyOn] at hr
    obtain ⟨hg, hfirst⟩ := (State.hasTurn_of_turns hcore _ (hnil hno) (List.ne_nil_of_mem ((State.turns_readyOn hk).2 hd)) hr).1 h
    have hdue := (State.turns_readyOn hk).1 hg
    exact ⟨hdue, fun i hi hkey => hfirst i ((State.turns_readyOn hk).2 ⟨hi, hkey ▸ hdue.2⟩) hkey⟩

/-- A group with no rival on its core is chosen. -/
theorem chosen_alone {s : State} {g : Nat} (hk : ∀ p ∈ (s.core (s.coreOf g)).weights, 0 < p.2) (hg : s.Left (s.coreOf g) g)
    (hslots : (s.core (s.coreOf g)).slots < 16) (halone : ∀ h, s.Left (s.coreOf g) h → h = g) : Chosen s (s.coreOf g) g (s.candidatesOf [g]) := by
  obtain ⟨h, hm, hturn⟩ := s.exists_candidate_turn hk (List.mem_singleton_self g)
  obtain rfl := List.mem_singleton.1 hm
  refine ⟨fun _ h _ _ _ hl => (halone h hl).symm, fun _ hr => ?_, fun _ _ _ => ⟨⟨hg, hturn⟩, fun i hi _ => ?_⟩⟩
  · rcases hr with hno | hr
    · exact absurd ⟨hg, hturn⟩ (hno _)
    · obtain ⟨i, hi⟩ := List.exists_mem_of_length_pos (l := (s.residents (s.coreOf h)).filter
        (fun h => s.ready h && !(s.group h).issued && decide (0 < (s.group h).hrun))) (by omega)
      obtain ⟨hres, hi⟩ := List.mem_filter.1 hi
      simp only [Bool.and_eq_true, Bool.not_eq_true', decide_eq_true_eq] at hi
      obtain ⟨⟨hready, hissued⟩, hrun⟩ := hi
      exact halone i ⟨⟨hres, hready⟩, hissued⟩ ▸ hrun
  · rw [halone i hi]
    exact State.comesFirst_iff_rank.2 le_rfl

end Sys2Proof.Machine
end

section
/-! PROOFS. The issue of a group that has its turn, and the groups that a clk owes a slot (R29 to R33). -/

namespace Sys2Proof.Machine

open Sys2Proof.Claims

/-! ### What a slot changes -/

theorem find_map_pair {α : Type} (f : Nat → α) {l : List Nat} {j : Nat} (h : j ∈ l) : Fmap.find (l.map (fun i => (i, f i))) j = some (f j) := by
  induction l with
  | nil => exact absurd h List.not_mem_nil
  | cons i t ih =>
    by_cases hi : i = j
    · simp [Fmap.find, hi]
    · have := ih ((List.mem_cons.1 h).resolve_left (Ne.symm hi))
      simpa [Fmap.find, hi] using this

/-- What candidate `j` has taken once candidate `key` has the next slot (R30). -/
theorem takenBy_taking (k : Core) {cs : List Nat} (key : Nat) {j : Nat} (h : j ∈ cs) :
    takenBy { k with cands := cs, issues := k.taking cs key } cs j =
      ⟨if j = key then (takenBy k cs j).slots + 1 else (takenBy k cs j).slots,
        max (takenBy k cs j).most (if j = key then Claims.excess k cs j + weightSum k cs else Claims.excess k cs j),
        min (takenBy k cs j).least (if j = key then Claims.excess k cs j + weightSum k cs else Claims.excess k cs j)⟩ := by
  rw [takenBy, if_pos rfl, Core.taking, Fmap.get, find_map_pair (fun j => _) h]
  simp only [Option.getD_some, Core.excess_eq, Core.share_eq, Core.total_eq]

theorem State.core_takeSlot (s : State) (l : List Nat) (g : Nat) : (s.takeSlot l g).core (s.coreOf g) =
    { s.core (s.coreOf g) with cands := s.candidatesOf l, issues := (s.core (s.coreOf g)).taking (s.candidatesOf l) (s.keyOf g) } :=
  Fmap.get_insert_same _ _ _ _

theorem State.core_takeSlot_ne (s : State) (l : List Nat) {g e : Nat} (h : e ≠ s.coreOf g) : (s.takeSlot l g).core e = s.core e :=
  Fmap.get_insert_ne _ _ _ h

theorem State.group_takeSlot (s : State) (l : List Nat) (g : Nat) :
    (s.takeSlot l g).group g = { s.group g with hrun := (s.group g).hrun - 1 } :=
  State.group_modGroup_same s g fun x => { x with hrun := x.hrun - 1 }

theorem State.group_takeSlot_ne (s : State) (l : List Nat) {g h : Nat} (hn : h ≠ g) : (s.takeSlot l g).group h = s.group h :=
  State.group_modGroup_ne s (fun x => { x with hrun := x.hrun - 1 }) hn

/-! ### Which groups go on -/

theorem State.unblocked_of_ready {s : State} {g : Nat} (h : s.ready g = true) : s.unblocked g = true := (Bool.and_eq_true_iff.1 h).1

theorem State.canIssue_iff {s : State} {g : Nat} :
    s.canIssue g = true ↔ s.unblocked g = true ∧ (s.group g).issued = false ∧ (s.core (s.coreOf g)).slots < 16 := by
  simp only [State.canIssue, issueSlots, Bool.and_eq_true, Bool.not_eq_true', and_assoc]
  exact and_congr_right fun _ => and_congr_right fun _ => decide_eq_true_iff

/-- A group that nothing blocks is a resident of its core. -/
theorem State.resident_of_unblocked {s : State} {g : Nat} (h : s.unblocked g = true) : g ∈ s.residents (s.coreOf g) := by
  simp only [State.unblocked, Bool.and_eq_true, decide_eq_true_eq] at h
  obtain ⟨⟨⟨⟨⟨⟨⟨⟨hf, hlive⟩, -⟩, -⟩, -⟩, hres⟩, -⟩, -⟩, -⟩ := h
  obtain ⟨x, hx⟩ := Option.isSome_iff_exists.1 hf
  have hme := State.group_of_find hx
  rw [State.wgOf, hme] at hres
  rw [hme] at hlive
  refine List.mem_map.2 ⟨(g, x), State.mem_groupsWhere.2 ⟨Fmap.mem_of_find hx, ?_⟩, rfl⟩
  simp [hlive, State.coreOf, State.wgOf, hme, hres, WgState.onCore]

theorem State.coreOf_resident {s : State} (hr : Fmap.risingFrom 0 s.groups = true) {c g : Nat} (h : g ∈ s.residents c) : s.coreOf g = c := by
  obtain ⟨x, hx, hres⟩ := (State.mem_residents hr).1 h
  rw [State.coreOf, State.wgOf, State.group_of_find hx]
  simp only [State.resides, Bool.and_eq_true, decide_eq_true_eq] at hres
  exact hres.1.2

theorem State.admitted_of_not {s : State} {g : Nat} (h : s.unblocked g = false ∨ (s.group g).issued = true ∨ 16 ≤ (s.core (s.coreOf g)).slots) :
    s.admitted g = none := by
  have hc : s.canIssue g = false := by
    rw [Bool.eq_false_iff]
    intro hc
    obtain ⟨h1, h2, h3⟩ := State.canIssue_iff.1 hc
    rcases h with h | h | h
    · exact absurd h1 (by simp [h])
    · exact absurd h2 (by simp [h])
    · omega
  simp [State.admitted, hc]

/-- A ready group that may issue and whose turn it is goes on. -/
theorem State.admitted_of_hasTurn {s : State} {g : Nat} (hc : s.canIssue g = true) (hg : s.ready g = true)
    (h : s.hasTurn (s.readyOn (s.coreOf g)) g = true) : ∃ t, s.admitted g = some t := by
  by_cases hr : (s.rivals g).isEmpty = true
  · exact ⟨s.takeSlot [g] g, by simp [State.admitted, hc, hr]⟩
  · exact ⟨s.takeSlot (s.readyOn (s.coreOf g)) g, by simp [State.admitted, hc, hr, hg, h]⟩

/-- A group that goes on has no rival and takes a slot, is not ready and takes none, or has its turn. -/
theorem State.admitted_cases {s t : State} {g : Nat} (h : s.admitted g = some t) : s.canIssue g = true ∧
    (s.rivals g = [] ∧ t = s.takeSlot [g] g ∨ s.ready g = false ∧ t = s ∨
      s.ready g = true ∧ s.hasTurn (s.readyOn (s.coreOf g)) g = true ∧ t = s.takeSlot (s.readyOn (s.coreOf g)) g) := by
  unfold State.admitted at h
  split at h
  · cases h
  next hc =>
    refine ⟨by simpa using hc, ?_⟩
    split at h
    · next hr => exact .inl ⟨List.isEmpty_iff.1 hr, (Option.some.inj h).symm⟩
    · split at h
      · next hg => exact .inr (.inl ⟨by simpa using hg, (Option.some.inj h).symm⟩)
      · next hg =>
        split at h
        · next ht => exact .inr (.inr ⟨by simpa using hg, ht, (Option.some.inj h).symm⟩)
        · cases h

/-- What lets a group go on changes its run and its core's count of shares, and no more. -/
theorem State.admitted_frame {s t : State} {g : Nat} (h : s.admitted g = some t) :
    t = { s with groups := t.groups, cores := t.cores } ∧ (∀ h, h ≠ g → t.group h = s.group h) ∧
      (∀ e, e ≠ s.coreOf g → t.core e = s.core e) ∧ t.group g = { s.group g with hrun := (t.group g).hrun } ∧
      (s.ready g = true → (t.group g).hrun = (s.group g).hrun - 1) ∧
      t.core (s.coreOf g) = { s.core (s.coreOf g) with cands := (t.core (s.coreOf g)).cands, issues := (t.core (s.coreOf g)).issues } := by
  suffices (∃ l, t = s.takeSlot l g) ∨ s.ready g = false ∧ t = s by
    rcases this with ⟨l, rfl⟩ | ⟨hg, rfl⟩
    · exact ⟨rfl, fun h hn => State.group_takeSlot_ne s l hn, fun e hn => State.core_takeSlot_ne s l hn, by rw [State.group_takeSlot],
        fun _ => by rw [State.group_takeSlot], by rw [State.core_takeSlot]⟩
    · exact ⟨rfl, fun _ _ => rfl, fun _ _ => rfl, rfl, fun hr => absurd hr (by simp [hg]), rfl⟩
  obtain ⟨-, ⟨-, ht⟩ | hng | ⟨-, -, ht⟩⟩ := State.admitted_cases h
  · exact .inl ⟨_, ht⟩
  · exact .inr hng
  · exact .inl ⟨_, ht⟩

/-- The slot that a ready group goes on with is its by the rule, and its candidates are those of the ready groups. -/
theorem chosen_of_admitted {s t : State} {g : Nat} (h : s.admitted g = some t) (hg : s.ready g = true) : ∃ l, t = s.takeSlot l g ∧
    ((∀ p ∈ (s.core (s.coreOf g)).weights, 0 < p.2) → Chosen s (s.coreOf g) g (s.candidatesOf l)) ∧
    ∀ j, j ∈ s.candidatesOf l ↔ ∃ h, (h ∈ s.residents (s.coreOf g) ∧ s.ready h = true) ∧ s.keyOf h = j := by
  obtain ⟨hc, ⟨hr, rfl⟩ | ⟨hng, -⟩ | ⟨-, ht, rfl⟩⟩ := State.admitted_cases h
  · obtain ⟨hub, hiss, hslots⟩ := State.canIssue_iff.1 hc
    have hres := State.resident_of_unblocked hub
    have halone : ∀ h ∈ s.residents (s.coreOf g), s.ready h = true → h = g := fun h hh hready => by
      by_contra hne
      have : h ∈ s.rivals g := List.mem_filter.2 ⟨hh, by simp [hne, State.unblocked_of_ready hready]⟩
      rw [hr] at this
      exact List.not_mem_nil this
    refine ⟨[g], rfl, fun hk => chosen_alone hk ⟨⟨hres, hg⟩, hiss⟩ hslots fun h hl => halone h hl.1.1 hl.1.2, fun j => ?_⟩
    rw [State.mem_candidatesOf]
    exact ⟨fun ⟨i, hm, hj⟩ => ⟨g, ⟨hres, hg⟩, List.mem_singleton.1 hm ▸ hj⟩,
      fun ⟨i, ⟨hh, hready⟩, hj⟩ => ⟨i, List.mem_singleton.2 (halone i hh hready), hj⟩⟩
  · exact absurd hg (by simp [hng])
  · refine ⟨_, rfl, fun hk => chosen_of_hasTurn hk ht, fun j => ?_⟩
    rw [State.mem_candidatesOf]
    exact exists_congr fun h => and_congr_left fun _ => State.mem_readyOn

/-- A ready group of core `c` left with the turn goes on. -/
theorem State.exists_turn_readyOn {s : State} {c : Nat} (hr : Fmap.risingFrom 0 s.groups = true) (hslots : (s.core c).slots < 16)
    (hk : ∀ p ∈ (s.core c).weights, 0 < p.2) (hne : ∃ h, h ∈ s.residents c ∧ s.ready h = true)
    (h : (∃ h, s.Left c h ∧ (h ∈ (s.core c).guard ∨ 0 < (s.group h).hrun)) ∨
      ∀ h, h ∈ s.residents c ∧ s.ready h = true → ∃ i, s.Left c i ∧ s.keyOf i = s.keyOf h) :
    ∃ g, s.Left c g ∧ s.coreOf g = c ∧ s.canIssue g = true ∧ s.hasTurn (s.readyOn c) g = true := by
  obtain ⟨h0, hh0⟩ := hne
  have hcore : ∀ h ∈ s.readyOn c, s.coreOf h = c := fun h hh => State.coreOf_resident hr (State.mem_readyOn.1 hh).1
  obtain ⟨g, hu, ht⟩ := State.exists_hasTurn hcore hslots hk (List.ne_nil_of_mem (State.mem_readyOn.2 hh0))
    (h.imp (fun ⟨i, hi, hg⟩ => ⟨i, State.mem_left.2 hi, hg⟩)
      (fun hall i hi => (hall i (State.mem_readyOn.1 hi)).imp fun _ hj => ⟨State.mem_left.2 hj.1, hj.2⟩))
  have hl := State.mem_left.1 hu
  have hc := State.coreOf_resident hr hl.1.1
  exact ⟨g, hl, hc, State.canIssue_iff.2 ⟨State.unblocked_of_ready hl.1.2, hl.2, by rwa [hc]⟩, ht⟩

/-! ### The end of a clk -/

theorem State.forced_iff {s : State} {g : Nat} : s.forced g = true ↔ g ∈ (s.core (s.coreOf g)).guard ∨ 0 < (s.group g).hrun := by
  simp [State.forced, Group.running]

theorem State.mustIssue_isSome {s : State} {g : Nat} (hr : Fmap.risingFrom 0 s.groups = true) (hslots : (s.core (s.coreOf g)).slots < 16)
    (htick : s.ticks (s.dieOf g) = true) (hk : ∀ p ∈ (s.core (s.coreOf g)).weights, 0 < p.2) (hg : s.Left (s.coreOf g) g)
    (hf : g ∈ (s.core (s.coreOf g)).guard ∨ 0 < (s.group g).hrun) : ∃ h, s.mustIssue = some h := by
  obtain ⟨h, hl, hc, hi, ht⟩ := State.exists_turn_readyOn hr hslots hk ⟨g, hg.1⟩ (.inl ⟨g, hg, hf⟩)
  refine Option.isSome_iff_exists.1 (List.find?_isSome.2 ⟨h, ?_, ?_⟩)
  · obtain ⟨x, hx, -⟩ := (State.mem_residents hr).1 hl.1.1
    exact List.mem_map.2 ⟨(h, x), Fmap.mem_of_find hx, rfl⟩
  · have howes : s.owes (s.coreOf g) = true := Bool.and_eq_true_iff.2 ⟨htick, List.any_eq_true.2 ⟨g, hg.1.1, by
      simp [State.forced_iff.2 hf, State.canIssue_iff.2 ⟨State.unblocked_of_ready hg.1.2, hg.2, hslots⟩, hg.1.2]⟩⟩
    simp [hc, hi, ht, hl.1.2, howes]

theorem State.mustIssue_spec {s : State} {h : Nat} (hm : s.mustIssue = some h) :
    (∃ t, s.admitted h = some t) ∧ ∃ g, g ∈ s.residents (s.coreOf h) ∧ s.ready g = true ∧ (s.group g).issued = false ∧
      (g ∈ (s.core (s.coreOf g)).guard ∨ 0 < (s.group g).hrun) := by
  have hp := List.find?_some hm
  simp only [Bool.and_eq_true] at hp
  obtain ⟨⟨⟨hc, howes⟩, hready⟩, hturn⟩ := hp
  obtain ⟨-, hany⟩ := Bool.and_eq_true_iff.1 howes
  obtain ⟨g, hg, hg'⟩ := List.any_eq_true.1 hany
  simp only [Bool.and_eq_true] at hg'
  obtain ⟨⟨hf, hi⟩, hgr⟩ := hg'
  exact ⟨State.admitted_of_hasTurn hc hready hturn, g, hg, hgr, (State.canIssue_iff.1 hi).2.1, State.forced_iff.1 hf⟩

@[simp] theorem Group.runEnded_readySince (x : Group) (c : Bool) : (x.runEnded c).readySince = x.readySince := by cases c <;> rfl

/-- The end of a clk leaves what blocks a group. -/
theorem Group.endClk_blocks (x : Group) : x.endClk.wait = x.wait ∧ x.endClk.parked = x.parked := by
  unfold Group.endClk
  split <;> exact ⟨rfl, rfl⟩

/-- A waiting, parked or unscheduled group is not ready. -/
theorem State.ready_of_blocked {s : State} {g : Nat} (h : (s.group g).wait ≠ none ∨ (s.group g).parked ≠ none ∨ (s.wgOf g).state ≠ .resident) :
    s.ready g = false := by
  rw [Bool.eq_false_iff]
  intro hr
  have hu := State.unblocked_of_ready hr
  simp only [State.unblocked, Bool.and_eq_true, decide_eq_true_eq, Option.isNone_iff_eq_none] at hu
  obtain ⟨⟨⟨⟨⟨⟨⟨-, hp⟩, hw⟩, -⟩, hres⟩, -⟩, -⟩, -⟩ := hu
  rcases h with h | h | h
  · exact h hw
  · exact h hp
  · exact h hres

/-- A clk counts a blocked group's time anew (R33). -/
theorem State.clk_readySince {s : State} {g : Nat} {x : Group} (hr : Fmap.risingFrom 0 s.groups = true) (hx : Fmap.find s.groups g = some x)
    (hl : x.status = .live) (ht : s.ticks (s.dieOf g) = true) (hb : x.wait ≠ none ∨ x.parked ≠ none ∨ (s.wg x.wg).state ≠ .resident) :
    (s.clk.group g).readySince = (s.clk.die (s.dieOf g)).ck.toNat := by
  have hfor : s.ticksFor x = true := by
    rw [State.dieOf, State.coreOf, State.wgOf, State.group_of_find hx] at ht
    simp [State.ticksFor, ht, hl]
  have hf := s.find_clockEdge g
  rw [hx, Option.map_some, if_pos hfor] at hf
  have hme := State.group_of_find hf
  have hd : s.clockEdge.dieOf g = s.dieOf g := by
    rw [State.dieOf, State.coreOf, State.wgOf, hme, Group.endClk_wg, State.dieOf, State.coreOf, State.wgOf, State.group_of_find hx]
    rfl
  have hready : s.clockEdge.ready g = false := by
    refine State.ready_of_blocked ?_
    rw [State.wgOf, hme, Group.endClk_wg, x.endClk_blocks.1, x.endClk_blocks.2]
    exact hb
  obtain ⟨hw, -, -, -, hg⟩ := State.swept_clk hr
  have hfg := hg g
  rw [State.edge, State.find_refreshed, hf, Option.map_some, Option.map_some, hd, hready, ht, Group.endClk_status, hl] at hfg
  rw [State.group_of_find hfg, hw, Group.runEnded_readySince, if_pos (by decide)]
  rfl

/-! ### The statement -/

/-- Settles O60, part by part: who goes on and what that changes, that someone goes on, that a clk waits for those who are owed a
slot, and that a blocked group's time counts anew. -/
theorem arbiterOrder : Obligations.ArbiterOrder := by
  refine ⟨fun s g => ⟨State.admitted_of_not, fun t ht => ?_⟩, fun s c hr hslots hk hne h => ?_, fun s g hr hslots htick hk hg hf => ?_,
    fun s h _ hm => State.mustIssue_spec hm, fun s g x hr hx hl ht hb => State.clk_readySince hr hx hl ht hb⟩
  · obtain ⟨h1, h2, h3, h4, h5, h6⟩ := State.admitted_frame ht
    refine ⟨h1, h2, h3, h4, h5, h6, fun hg hk => ?_⟩
    obtain ⟨l, rfl, hchosen, hcands⟩ := chosen_of_admitted ht hg
    obtain ⟨hguard, hruns, hfirst⟩ := hchosen hk
    simp only [State.core_takeSlot]
    refine ⟨hguard, fun hno => ⟨hruns hno, fun hd hr => ?_⟩, hcands, s.candidatesOf_pairwise l, fun j hj => takenBy_taking _ _ hj⟩
    obtain ⟨hdue, hall⟩ := hfirst hno hd hr
    exact ⟨hdue, fun h hl hkey => State.comesFirst_iff.1 (hall h hl hkey)⟩
  · obtain ⟨g, hg, hc, hi, hturn⟩ := State.exists_turn_readyOn hr hslots hk hne h
    exact ⟨g, hg, State.admitted_of_hasTurn hi hg.1.2 (hc ▸ hturn)⟩
  · obtain ⟨hres, hready, hiss⟩ := hg
    exact State.mustIssue_isSome hr hslots htick hk ⟨⟨hres, hready⟩, hiss⟩ hf

end Sys2Proof.Machine
end
